-- ==== Sys2Proof/Word.lean ====
section
/-!
DEFINITION. The word types of the module (R2, R3) and the sparse table that every part of the state is held in:
a list of (key, value) pairs with strictly rising keys; a key that is not listed reads as a default value that the
reader names. The operations on both stand in Machine/Bits.lean.
-/
namespace Sys2Proof

/-- A dword (R3). -/
abbrev Word := BitVec 64
/-- A byte (R3). -/
abbrev Byte := BitVec 8
/-- One 64-byte line, or one vector register (R3, R486). -/
abbrev Line := BitVec 512
/-- An operand code (R69): 0–31 g0–g31 (or v0–v15 in a vector field), 32 `qld`, 33 `qsd`, 34 `nbl`, 35 `nbr`,
36–39 `s0`–`s3`, 40 `so`, 41 `z`. -/
abbrev Opnd := BitVec 6

/-- A sparse table. -/
abbrev Tab (α : Type) := List (Nat × α)

end Sys2Proof
end

