-- ==== Sys2Proof/Machine/Bits.lean ====
section
/-!
DEFINITION. Slices of words, byte order and signed values (R2, R7, R395), and the operations on sparse tables and lists.
-/
namespace Sys2Proof

/-- The operand code of `z` (R69), which an unused operand field must hold (R109). -/
def opZ : Opnd := 41#6

/-- Bits [hi:lo] of a word of any width, as a number (R2). -/
def bits {n : Nat} (x : BitVec n) (hi lo : Nat) : Nat := (x.toNat >>> lo) % 2 ^ (hi + 1 - lo)

/-- Bit i of a word. -/
def bit {n : Nat} (x : BitVec n) (i : Nat) : Bool := x.getLsbD i

/-- x with bits [hi:lo] replaced by v (R2). -/
def setBits {n : Nat} (x : BitVec n) (hi lo : Nat) (v : Nat) : BitVec n :=
  let w := hi + 1 - lo
  let keep := x.toNat - (((x.toNat >>> lo) % 2 ^ w) <<< lo)
  BitVec.ofNat n (keep + ((v % 2 ^ w) <<< lo))

/-- The signed value of the low w bits of a number. -/
def signedOf (w : Nat) (v : Nat) : Int :=
  let u := v % 2 ^ w
  if 2 * u < 2 ^ w then (u : Int) else (u : Int) - (2 ^ w : Nat)

/-- An integer narrowed to w bits (R7: narrowing is explicit). -/
def truncTo (w : Nat) (x : Int) : Nat := (x % ((2 ^ w : Nat) : Int)).toNat

/-- Trunc64 of R395. -/
def trunc64 (x : Int) : Word := BitVec.ofNat 64 (truncTo 64 x)

/-- Byte i of a word, little-endian (R2). -/
def byteOf {n : Nat} (x : BitVec n) (i : Nat) : Byte := x.extractLsb' (8 * i) 8

/-- A number from bytes, the first the least significant (R2). -/
def leNat : List Byte → Nat
  | [] => 0
  | b :: bs => b.toNat + 256 * leNat bs

/-- The n bytes of a number, least significant first (R2). -/
def leBytes : Nat → Nat → List Byte
  | 0, _ => []
  | n + 1, v => BitVec.ofNat 8 v :: leBytes n (v / 256)

/-- The value at a key, d where the key is not listed. -/
def Tab.get {α : Type} (d : α) : Tab α → Nat → α
  | [], _ => d
  | (k, v) :: t, i => if i = k then v else Tab.get d t i

/-- The listed value at a key. -/
def Tab.find {α : Type} : Tab α → Nat → Option α
  | [], _ => none
  | (k, v) :: t, i => if i = k then some v else Tab.find t i

/-- The table with v at key i; keys stay in rising order. -/
def Tab.put {α : Type} : Tab α → Nat → α → Tab α
  | [], i, v => [(i, v)]
  | (k, w) :: t, i, v =>
    if i < k then (i, v) :: (k, w) :: t
    else if i = k then (i, v) :: t
    else (k, w) :: Tab.put t i v

/-- The table without key i. -/
def Tab.del {α : Type} : Tab α → Nat → Tab α
  | [], _ => []
  | (k, w) :: t, i => if i = k then Tab.del t i else (k, w) :: Tab.del t i

/-- The keys of a table. -/
def Tab.keys {α : Type} (t : Tab α) : List Nat := t.map (·.1)

/-- Strictly rising keys. -/
def Tab.sorted {α : Type} : Tab α → Bool
  | [] => true
  | [_] => true
  | (k, _) :: (k', v') :: t => decide (k < k') && Tab.sorted ((k', v') :: t)

/-- The numbers a, a+1, …, a+n−1. -/
def upFrom (a : Nat) : Nat → List Nat
  | 0 => []
  | n + 1 => a :: upFrom (a + 1) n

/-- The first element that meets p, with its position. -/
def findIdx {α : Type} (p : α → Bool) : List α → Option (Nat × α)
  | [] => none
  | x :: xs => if p x then some (0, x) else (findIdx p xs).map fun (i, y) => (i + 1, y)

/-- The list with position i replaced. -/
def setAt {α : Type} : List α → Nat → α → List α
  | [], _, _ => []
  | _ :: xs, 0, v => v :: xs
  | x :: xs, i + 1, v => x :: setAt xs i v

/-- The list without position i. -/
def dropAt {α : Type} : List α → Nat → List α
  | [], _ => []
  | _ :: xs, 0 => xs
  | x :: xs, i + 1 => x :: dropAt xs i

end Sys2Proof
end

