-- ==== Sys2Proof/Machine/Numbers.lean ====
section
/-!
DEFINITION. Number formats and arithmetic (R135–R160): formats, exact values, the one rounding of R145, overflow and
flags, scalar and lane operations, conversions, block sums of the matrix unit and exact-sum cells. Every exact value is
a rational num/den · 2^exp over integers, so no step rounds but `roundMag`.
-/
namespace Sys2Proof.Num

/-- A floating-point format (R140): width, mantissa bits, bias, the largest finite magnitude as an integer of units
2^(emax − m), emax, and whether it has infinities and NaNs. -/
structure Fmt where
  w : Nat
  m : Nat
  bias : Nat
  maxMant : Nat
  emax : Int
  hasInf : Bool
  hasNan : Bool
  nan : Nat
  deriving DecidableEq, Repr

def f64 : Fmt := ⟨64, 52, 1023, 2 ^ 53 - 1, 1023, true, true, 0x7FF8000000000000⟩
def f32 : Fmt := ⟨32, 23, 127, 2 ^ 24 - 1, 127, true, true, 0x7FC00000⟩
def f16 : Fmt := ⟨16, 10, 15, 2 ^ 11 - 1, 15, true, true, 0x7E00⟩
def bf16 : Fmt := ⟨16, 7, 127, 2 ^ 8 - 1, 127, true, true, 0x7FC0⟩
def e4m3 : Fmt := ⟨8, 3, 7, 14, 8, false, true, 0x7F⟩
def e5m2 : Fmt := ⟨8, 2, 15, 7, 15, true, true, 0x7E⟩
def e2m1 : Fmt := ⟨4, 1, 1, 3, 2, false, false, 0⟩

/-- The format of a type code 8–14 (R124). -/
def fmtOf (t : Nat) : Fmt :=
  match t with
  | 8 => f64 | 9 => f32 | 10 => f16 | 11 => bf16 | 12 => e4m3 | 13 => e5m2 | _ => e2m1

/-- The element width of a type code (R124). -/
def widthOf (t : Nat) : Nat :=
  match t with
  | 0 | 4 | 12 | 13 => 8
  | 1 | 5 | 10 | 11 => 16
  | 2 | 6 | 9 => 32
  | 14 => 4
  | _ => 64

/-- A decoded value: NaN, an infinity with its sign, or (−1)^neg · m · 2^e. -/
inductive Val where
  | nan
  | inf (neg : Bool)
  | fin (neg : Bool) (m : Nat) (e : Int)
  deriving DecidableEq, Repr

/-- The value of an encoding (R141). -/
def Fmt.val (f : Fmt) (x : Nat) : Val :=
  let x := x % 2 ^ f.w
  let s := x / 2 ^ (f.w - 1) == 1
  let eb := x / 2 ^ f.m % 2 ^ (f.w - 1 - f.m)
  let mm := x % 2 ^ f.m
  let top := 2 ^ (f.w - 1 - f.m) - 1
  if f.hasInf && eb == top then (if mm = 0 then .inf s else .nan)
  else if f.hasNan && !f.hasInf && eb == top && mm == 2 ^ f.m - 1 then .nan
  else if eb = 0 then .fin s mm (1 - (f.bias : Int) - f.m)
  else .fin s (mm + 2 ^ f.m) ((eb : Int) - f.bias - f.m)

/-- The encoding of an infinity of a format that has one. -/
def Fmt.inf (f : Fmt) (neg : Bool) : Nat :=
  (2 ^ (f.w - 1 - f.m) - 1) * 2 ^ f.m + neg.toNat * 2 ^ (f.w - 1)
def Fmt.zero (f : Fmt) (neg : Bool) : Nat := neg.toNat * 2 ^ (f.w - 1)
/-- The largest finite magnitude with a sign. -/
def Fmt.max (f : Fmt) (neg : Bool) : Nat :=
  ((f.emax + f.bias).toNat * 2 ^ f.m + (f.maxMant - 2 ^ f.m)) + neg.toNat * 2 ^ (f.w - 1)

/-- Flags NX, UF, OF, DZ, NV at bits 0–4 (R94). -/
def nx : Nat := 1
def uf : Nat := 2
def of : Nat := 4
def dz : Nat := 8
def nv : Nat := 16

/-- Floor(Log2(n/d)) for n, d > 0. -/
def log2Frac (n d : Nat) : Int :=
  let k := (Nat.log2 n : Int) - Nat.log2 d
  let lt := if 0 ≤ k then n < d * 2 ^ k.toNat else n * 2 ^ (-k).toNat < d
  if lt then k - 1 else k

/-- n/d · 2^t as a fraction of natural numbers. -/
def scale (n d : Nat) (t : Int) : Nat × Nat :=
  if 0 ≤ t then (n * 2 ^ t.toNat, d) else (n, d * 2 ^ (-t).toNat)

/-- Which neighbour of the grid a value r/d of the way above lo takes, 0 < r < d (R145): true for hi. -/
def roundUp (mode : Nat) (h : Nat) (neg : Bool) (lo r d : Nat) : Bool :=
  match mode with
  | 0 => decide (d < 2 * r) || (2 * r == d && lo % 2 == 1)
  | 1 => false
  | 2 => !neg
  | 3 => neg
  | _ => decide (h * d < r * 2 ^ 32)

/-- Overflow (R146): the result in place of a magnitude above the largest finite one. -/
def overflow (f : Fmt) (mode : Nat) (sat neg : Bool) : Nat :=
  let toInf := match mode with
    | 1 => false
    | 2 => !neg
    | 3 => neg
    | _ => true
  if !toInf then f.max neg
  else if sat || !f.hasNan then f.max neg
  else if f.hasInf then f.inf neg
  else f.nan

/-- Round (R145) of (−1)^neg · n/d · 2^e, n > 0, into a format: the encoding and the flags of R150. -/
def Fmt.round (f : Fmt) (mode h : Nat) (sat neg : Bool) (n d : Nat) (e : Int) : Nat × Nat :=
  let lg := log2Frac n d + e
  let emin : Int := 1 - f.bias
  let ex : Int := if lg < emin then emin else lg
  let (p, q) := scale n d (e - (ex - f.m))
  let lo := p / q
  let r := p % q
  let mag := if r ≠ 0 && roundUp mode h neg lo r q then lo + 1 else lo
  let tooBig := decide (f.emax < ex) || (decide (ex = f.emax) && decide (f.maxMant < mag))
  if tooBig then (overflow f mode sat neg, of + nx)
  else
    let code :=
      if mag < 2 ^ f.m then mag
      else if mag = 2 ^ (f.m + 1) then (ex + f.bias + 1).toNat * 2 ^ f.m
      else (ex + f.bias).toNat * 2 ^ f.m + (mag - 2 ^ f.m)
    let big := mag == 2 ^ (f.m + 1) && decide (ex = f.emax)
    if big then (overflow f mode sat neg, of + nx)
    else
      (code + neg.toNat * 2 ^ (f.w - 1),
        if r = 0 then 0 else nx + (if lg < emin then uf else 0))

/-- An exact result before rounding. -/
inductive Ex where
  | nan (flags : Nat)
  | inf (neg : Bool) (flags : Nat)
  | zero (neg : Bool)
  | rat (neg : Bool) (n d : Nat) (e : Int)
  deriving DecidableEq, Repr

/-- The exact result delivered in a format: encoding and flags. -/
def Fmt.deliver (f : Fmt) (mode h : Nat) (sat : Bool) : Ex → Nat × Nat
  | .nan fl => (f.nan, fl)
  | .inf s fl => (f.inf s, fl)
  | .zero s => (f.zero s, 0)
  | .rat s n d e => if n = 0 then (f.zero s, 0) else f.round mode h sat s n d e

/-- A signed integer value of a finite number at a common exponent. -/
def atExp (neg : Bool) (m : Nat) (e lo : Int) : Int :=
  let v : Int := (m * 2 ^ (e - lo).toNat : Nat)
  if neg then -v else v

/-- An exact integer times a power of two, with the sign of a zero result given. -/
def ofInt (v : Int) (e : Int) (zneg : Bool) : Ex :=
  if v = 0 then .zero zneg else .rat (decide (v < 0)) v.natAbs 1 e

/-- Exact addition (R149, R424). -/
def addVal (mode : Nat) : Val → Val → Ex
  | .nan, _ => .nan 0
  | _, .nan => .nan 0
  | .inf s, .inf t => if s = t then .inf s 0 else .nan nv
  | .inf s, _ => .inf s 0
  | _, .inf t => .inf t 0
  | .fin s m e, .fin t n k =>
    let lo := min e k
    ofInt (atExp s m e lo + atExp t n k lo) lo (if m = 0 && n = 0 && s == t then s else mode == 3)

def Val.neg : Val → Val
  | .nan => .nan
  | .inf s => .inf !s
  | .fin s m e => .fin (!s) m e

/-- Exact product. -/
def mulVal : Val → Val → Ex
  | .nan, _ => .nan 0
  | _, .nan => .nan 0
  | .inf s, .inf t => .inf (s != t) 0
  | .inf s, .fin t n _ => if n = 0 then .nan nv else .inf (s != t) 0
  | .fin s m _, .inf t => if m = 0 then .nan nv else .inf (s != t) 0
  | .fin s m e, .fin t n k => if m * n = 0 then .zero (s != t) else .rat (s != t) (m * n) 1 (e + k)

/-- Exact quotient (R424). -/
def divVal : Val → Val → Ex
  | .nan, _ => .nan 0
  | _, .nan => .nan 0
  | .inf _, .inf _ => .nan nv
  | .inf s, .fin t _ _ => .inf (s != t) 0
  | .fin s _ _, .inf t => .zero (s != t)
  | .fin s m e, .fin t n k =>
    if n = 0 then (if m = 0 then .nan nv else .inf (s != t) dz)
    else if m = 0 then .zero (s != t)
    else .rat (s != t) m n (e - k)

/-- Exact b·c + d (R424). -/
def fmaVal (mode : Nat) (b c d : Val) : Ex :=
  match mulVal b c, d with
  | .nan f, _ => .nan f
  | _, .nan => .nan 0
  | .inf s _, .inf t => if s = t then .inf s 0 else .nan nv
  | .inf s _, _ => .inf s 0
  | _, .inf t => .inf t 0
  | .zero s, .fin t n k => if n = 0 then .zero (if s = t then s else mode == 3) else .rat t n 1 k
  | .rat s n _ e, .fin t m k =>
    let lo := min e k
    ofInt (atExp s n e lo + atExp t m k lo) lo (mode == 3)

/-- The bits of an integer square root, from bit i down. -/
def isqrtFrom (n : Nat) : Nat → Nat → Nat
  | 0, r => r
  | i + 1, r => isqrtFrom n i (if (r + 2 ^ i) * (r + 2 ^ i) ≤ n then r + 2 ^ i else r)
/-- Floor of the square root. -/
def isqrt (n : Nat) : Nat := isqrtFrom n (Nat.log2 n / 2 + 1) 0

/-- Exact square root: an irrational one is held by a value between the same neighbours of every grid and threshold
that R145 uses. -/
def sqrtVal : Val → Ex
  | .nan => .nan 0
  | .inf s => if s then .nan nv else .inf false 0
  | .fin s m e =>
    if m = 0 then .zero s
    else if s then .nan nv
    else
      let k : Nat := 256 + (if (e % 2) = 0 then 0 else 1)
      let n := m * 2 ^ k
      let r := isqrt n
      let e2 := (e - k) / 2
      if r * r = n then .rat false r 1 e2 else .rat false (2 * r + 1) 2 e2

/-- R425: the order of FMIN and FMAX, with −0 below +0. -/
def ltMin : Val → Val → Bool
  | .fin s m e, .fin t n k =>
    let lo := min e k
    let a := atExp s m e lo; let b := atExp t n k lo
    decide (a < b) || (a == b && s && !t && m == 0 && n == 0)
  | .inf s, .inf t => s && !t
  | .inf s, _ => s
  | _, .inf t => !t
  | _, _ => false

/-- FMIN and FMAX on encodings (R425). -/
def Fmt.minMax (f : Fmt) (isMax : Bool) (x y : Nat) : Nat :=
  match f.val x, f.val y with
  | .nan, .nan => f.nan
  | .nan, _ => y % 2 ^ f.w
  | _, .nan => x % 2 ^ f.w
  | a, b => (if (if isMax then ltMin a b else ltMin b a) then y else x) % 2 ^ f.w

/-- FCLS (R425). -/
def Fmt.cls (f : Fmt) (x : Nat) : Nat :=
  let norm (m : Nat) := decide (2 ^ f.m ≤ m)
  match f.val x with
  | .inf true => 2 ^ 0
  | .fin true m _ => if m = 0 then 2 ^ 3 else if norm m then 2 ^ 1 else 2 ^ 2
  | .fin false m _ => if m = 0 then 2 ^ 4 else if norm m then 2 ^ 6 else 2 ^ 5
  | .inf false => 2 ^ 7
  | .nan => 2 ^ 8

/-- FCMP (R426): condition 0 eq, 1 lt, 2 le, 3 un, 4 ne; the truth value and flags. -/
def Fmt.cmp (f : Fmt) (cnd x y : Nat) : Bool × Nat :=
  let a := f.val x; let b := f.val y
  let un := a == .nan || b == .nan
  let key (s : Bool) (m : Nat) := s && m ≠ 0
  let lt := match a, b with
    | .fin s m e, .fin t n k => decide (atExp s m e (min e k) < atExp t n k (min e k))
    | .inf s, .inf t => s && !t
    | .inf s, _ => s
    | _, .inf t => !t
    | _, _ => false
  let eq := match a, b with
    | .fin s m e, .fin t n k => decide (atExp (key s m) m e (min e k) = atExp (key t n) n k (min e k))
    | .inf s, .inf t => s == t
    | _, _ => false
  match cnd with
  | 0 => (!un && eq, 0)
  | 1 => (!un && lt, if un then nv else 0)
  | 2 => (!un && (lt || eq), if un then nv else 0)
  | 3 => (un, 0)
  | _ => (un || !eq, 0)

/-! ## Conversions (R151–R153) -/

def isInt (t : Nat) : Bool := t ≤ 7
def isSigned (t : Nat) : Bool := t ≤ 3
/-- The integer value of w low bits under a type's signedness. -/
def intVal (t x : Nat) : Int := if isSigned t then signedOf (widthOf t) x else ((x % 2 ^ widthOf t : Nat) : Int)
def intMin (t : Nat) : Int := if isSigned t then -((2 ^ (widthOf t - 1) : Nat) : Int) else 0
def intMax (t : Nat) : Int := if isSigned t then ((2 ^ (widthOf t - 1) : Nat) : Int) - 1 else ((2 ^ widthOf t : Nat) : Int) - 1
def clamp (t : Nat) (v : Int) : Int := if v < intMin t then intMin t else if intMax t < v then intMax t else v
/-- An exact integer result in a lane (R135, R138). -/
def intOut (t : Nat) (sat : Bool) (v : Int) : Nat := truncTo (widthOf t) (if sat then clamp t v else v)

/-- Float to integer (R152). -/
def toInt (t mode h : Nat) (v : Val) : Nat × Nat :=
  match v with
  | .nan => (0, nv)
  | .inf s => (truncTo (widthOf t) (if s then intMin t else intMax t), nv)
  | .fin s m e =>
    let (p, q) := scale m 1 e
    let lo := p / q; let r := p % q
    let mag := if r ≠ 0 && roundUp mode h s lo r q then lo + 1 else lo
    let x : Int := if s then -(mag : Int) else mag
    if intMax t < x then (truncTo (widthOf t) (intMax t), nv)
    else if x < intMin t then (truncTo (widthOf t) (intMin t), nv)
    else (truncTo (widthOf t) x, if r = 0 then 0 else nx)

/-- Float to float (R151). -/
def toFmt (f : Fmt) (mode h : Nat) (sat : Bool) (v : Val) : Nat × Nat :=
  match v with
  | .nan => if f.hasNan then (f.nan, 0) else (0, nv)
  | .inf s => if f.hasInf then (f.inf s, 0) else if f.hasNan && !sat then (f.nan, nv) else (f.max s, nv)
  | .fin s m e => f.deliver mode h sat (if m = 0 then .zero s else .rat s m 1 e)

/-- A conversion between any two types (R151–R153, R427): source type, target type; encoding and flags. Two points of R153 are open:
between integer types of one width and different signedness the bits are kept, and `.sat` clamps; an integer 0 gives +0 in every
rounding mode. DESIGN CHOICE (log 140). -/
def convert (src dst mode h : Nat) (sat : Bool) (x : Nat) : Nat × Nat :=
  if isInt src then
    if isInt dst then
      (if widthOf src < widthOf dst then truncTo (widthOf dst) (intVal src x) else intOut dst sat (intVal src x), 0)
    else
      let v := intVal src x
      (fmtOf dst).deliver mode h sat (ofInt v 0 false)
  else
    let f := fmtOf src
    if isInt dst then toInt dst mode h (f.val x)
    else if src = dst then (if f.val x = .nan then f.nan else x % 2 ^ f.w, 0)
    else toFmt (fmtOf dst) mode h sat (f.val x)

/-! ## RSH (R147) -/

/-- RshHash. -/
def rshHash (seed index counter : Nat) : Nat :=
  let z := (seed + index * 0x9E3779B97F4A7C15 + counter * 0xD1B54A32D192ED03) % 2 ^ 64
  let z := ((z ^^^ (z >>> 30)) * 0xBF58476D1CE4E5B9) % 2 ^ 64
  let z := ((z ^^^ (z >>> 27)) * 0x94D049BB133111EB) % 2 ^ 64
  let z := z ^^^ (z >>> 31)
  z / 2 ^ 32 % 2 ^ 32

/-! ## Exact sums of products (R154, R155, R494) -/

/-- A running exact sum: a finite integer at an exponent, and what special values were met. -/
structure Sum where
  v : Int := 0
  e : Int := 0
  nan : Bool := false
  nv : Bool := false
  pinf : Bool := false
  ninf : Bool := false
  /-- Every term so far is −0; every term so far is +0. -/
  negz : Bool := true
  posz : Bool := true
  deriving DecidableEq, Repr

def Sum.addFin (a : Sum) (neg : Bool) (m : Nat) (e : Int) : Sum :=
  let lo := if a.v = 0 then e else min a.e e
  { a with v := a.v * 2 ^ (a.e - lo).toNat + atExp neg m e lo, e := lo, negz := a.negz && neg && m == 0,
           posz := a.posz && !neg && m == 0 }

/-- One product added. -/
def Sum.addEx (a : Sum) : Ex → Sum
  | .nan f => { a with nan := true, nv := a.nv || f ≠ 0, negz := false, posz := false }
  | .inf s _ => { a with pinf := a.pinf || !s, ninf := a.ninf || s, negz := false, posz := false }
  | .zero s => { a with negz := a.negz && s, posz := a.posz && !s }
  | .rat s n _ e => a.addFin s n e

/-- The value of a sum of products, as one addend. -/
def Sum.val (a : Sum) : Val :=
  if a.nan || (a.pinf && a.ninf) then .nan
  else if a.pinf then .inf false
  else if a.ninf then .inf true
  else if a.v = 0 then .fin a.negz 0 0
  else .fin (decide (a.v < 0)) a.v.natAbs a.e

/-- The value of an operand as an addend of an exact sum. -/
def Val.addend : Val → Ex
  | .nan => .nan 0
  | .inf s => .inf s 0
  | .fin s m e => if m = 0 then .zero s else .rat s m 1 e

/-- The sum itself, before its one rounding (R149, R494). -/
def Sum.ex (mode : Nat) (a : Sum) : Ex :=
  if a.nan then .nan (if a.nv then Num.nv else 0)
  else if a.pinf && a.ninf then .nan Num.nv
  else if a.pinf then .inf false 0
  else if a.ninf then .inf true 0
  else ofInt a.v a.e (if a.negz then true else if a.posz then false else mode == 3)

/-- An X8 scale (R142): the value times 2^(s − 127). -/
def scaled (v : Val) (s : Nat) : Val :=
  if s = 255 then .nan
  else
    match v with
    | .fin n m e => .fin n m (e + s - 127)
    | x => x

/-- AccAdd (R155): the FP32 accumulator plus a block sum, with flags OV 1, SAT 2, NV 4 (R157). -/
def accAdd (acc : Nat) (s : Sum) : Nat × Nat :=
  match addVal 0 (f32.val acc) s.val with
  | .nan _ => (f32.nan, 4)
  | ex =>
    let (r, fl) := f32.deliver 0 0 false ex
    (r, if fl &&& of ≠ 0 then 1 else 0)

/-- The 8-bit integer block addition (R156). -/
def accAddInt (acc : Nat) (s : Int) : Nat × Nat :=
  let v := signedOf 32 acc + s
  let c := clamp 2 v
  (truncTo 32 c, if c = v then 0 else 2)

/-! ## Exact-sum cells (R158–R160) -/

/-- RedxAdd on the 512-bit cell. -/
def redxAdd (cell : Nat) (f : Fmt) (x : Nat) : Nat :=
  let low := cell % 2 ^ 323
  match f.val x with
  | .nan => low ||| 2 ^ 322
  | .inf false => low ||| 2 ^ 320
  | .inf true => low ||| 2 ^ 321
  | .fin s m e =>
    let u := atExp s m (e + 149) 0
    (low / 2 ^ 320) * 2 ^ 320 + truncTo 320 (((low % 2 ^ 320 : Nat) : Int) + u)

/-- XREAD (R160): encoding and flags. -/
def xread (cell : Nat) (f : Fmt) (mode h : Nat) : Nat × Nat :=
  let p := cell / 2 ^ 320 % 2 == 1
  let n := cell / 2 ^ 321 % 2 == 1
  let q := cell / 2 ^ 322 % 2 == 1
  if q || (p && n) then (f.nan, nv)
  else if p then (f.inf false, 0)
  else if n then (f.inf true, 0)
  else f.deliver mode h false (ofInt (signedOf 320 cell) (-149) false)

end Sys2Proof.Num
end

