-- ==== Sys2Proof/Forms.lean ====
section
/-!
DEFINITION. The operand shapes of the instructions: one structure for each way the reference entries fill a head
and its tail (R107, R108, R125–R130, R413, R443, R466, R484). A field that a form does not use (R109) is no field
of its shape. Names follow the spec: A, B, C, D, P, Q, H are operand codes, K… their K bits.
-/
namespace Sys2Proof

/-- The conditions of BC, SET and SKIP (R403). -/
inductive Cond where
  | eq | ne | lt | ge | ltu | geu
  deriving DecidableEq, Repr

/-- Register form B op C, with the `.a` bit (R125, R126, R397). -/
structure Alu3 where
  a : Opnd
  b : Opnd
  c : Opnd
  kb : Bool
  kc : Bool
  half : Bool
  deriving DecidableEq, Repr

/-- Short immediate form B op IMM16 (R125). -/
structure AluI16 where
  a : Opnd
  b : Opnd
  kb : Bool
  half : Bool
  imm : BitVec 16
  deriving DecidableEq, Repr

/-- Long immediate form B op IMM48 (R125). -/
structure AluI48 where
  a : Opnd
  b : Opnd
  kb : Bool
  half : Bool
  imm : BitVec 48
  deriving DecidableEq, Repr

/-- Shift by an immediate count 0–63 (R464). -/
structure ShiftI where
  a : Opnd
  b : Opnd
  kb : Bool
  half : Bool
  n : BitVec 6
  deriving DecidableEq, Repr

/-- One source, one destination (R405, R406, R436, R437, R500). -/
structure Un where
  a : Opnd
  b : Opnd
  kb : Bool
  deriving DecidableEq, Repr

/-- One source, no destination (R435, R446, R463). -/
structure Src1 where
  b : Opnd
  kb : Bool
  deriving DecidableEq, Repr

/-- Two sources, one destination (R434, R468). -/
structure Bin where
  a : Opnd
  b : Opnd
  c : Opnd
  kb : Bool
  kc : Bool
  deriving DecidableEq, Repr

/-- Address and length (R428, R456). -/
structure RangeOp where
  b : Opnd
  c : Opnd
  kb : Bool
  kc : Bool
  deriving DecidableEq, Repr

/-- SET, register form (R473). -/
structure Set3 where
  a : Opnd
  b : Opnd
  c : Opnd
  kb : Bool
  kc : Bool
  cond : Cond
  deriving DecidableEq, Repr

/-- SET, short immediate form (R473). -/
structure SetI16 where
  a : Opnd
  b : Opnd
  kb : Bool
  cond : Cond
  imm : BitVec 16
  deriving DecidableEq, Repr

/-- SET, long immediate form (R473). -/
structure SetI48 where
  a : Opnd
  b : Opnd
  kb : Bool
  cond : Cond
  imm : BitVec 48
  deriving DecidableEq, Repr

/-- CSEL (R409); `onZero` is F. -/
structure Csel where
  a : Opnd
  b : Opnd
  c : Opnd
  d : Opnd
  kb : Bool
  kc : Bool
  kd : Bool
  onZero : Bool
  deriving DecidableEq, Repr

/-- EXTR and EXTR.s (R422); `wid` holds WID − 1. -/
structure Extr where
  a : Opnd
  b : Opnd
  kb : Bool
  pos : BitVec 6
  wid : BitVec 6
  deriving DecidableEq, Repr

/-- INSR (R422). -/
structure Insr where
  a : Opnd
  b : Opnd
  c : Opnd
  kb : Bool
  kc : Bool
  pos : BitVec 6
  wid : BitVec 6
  deriving DecidableEq, Repr

/-- LDI and LDI.u with IMM16 (R440). -/
structure Ldi16 where
  a : Opnd
  half : Bool
  imm : BitVec 16
  deriving DecidableEq, Repr

/-- LDI and LDI.u with IMM48 (R440). -/
structure Ldi48 where
  a : Opnd
  half : Bool
  imm : BitVec 48
  deriving DecidableEq, Repr

/-- A destination and a line and slot displacement, IMM16 form (R112, R398, R401). -/
structure Rel16 where
  a : Opnd
  slot : BitVec 5
  ldisp : BitVec 11
  deriving DecidableEq, Repr

/-- The same in the long form (R112). -/
structure Rel48 where
  a : Opnd
  slot : BitVec 5
  ldisp : BitVec 43
  deriving DecidableEq, Repr

/-- B, IMM16 form (R401). -/
structure Br16 where
  slot : BitVec 5
  ldisp : BitVec 11
  deriving DecidableEq, Repr

/-- B, long form (R401). -/
structure Br48 where
  slot : BitVec 5
  ldisp : BitVec 43
  deriving DecidableEq, Repr

/-- BC, IMM16 form (R403). -/
structure Bc16 where
  b : Opnd
  c : Opnd
  kb : Bool
  kc : Bool
  cond : Cond
  slot : BitVec 5
  ldisp : BitVec 11
  deriving DecidableEq, Repr

/-- BC, long form (R403). -/
structure Bc48 where
  b : Opnd
  c : Opnd
  kb : Bool
  kc : Bool
  cond : Cond
  slot : BitVec 5
  ldisp : BitVec 43
  deriving DecidableEq, Repr

/-- SKIP (R474); `n` holds count − 1. -/
structure SkipF where
  b : Opnd
  c : Opnd
  kb : Bool
  kc : Bool
  cond : Cond
  n : BitVec 2
  deriving DecidableEq, Repr

/-- LD, base plus index (R438); size 0 b, 1 h, 2 w, 3 d. -/
structure LdX where
  a : Opnd
  b : Opnd
  c : Opnd
  kb : Bool
  kc : Bool
  size : BitVec 2
  sx : Bool
  deriving DecidableEq, Repr

/-- LD, base plus displacement (R438). -/
structure LdD where
  a : Opnd
  b : Opnd
  kb : Bool
  size : BitVec 2
  sx : Bool
  disp : BitVec 16
  deriving DecidableEq, Repr

/-- ST, base plus index (R479). -/
structure StX where
  a : Opnd
  ka : Bool
  b : Opnd
  c : Opnd
  kb : Bool
  kc : Bool
  size : BitVec 2
  deriving DecidableEq, Repr

/-- ST, base plus displacement (R479). -/
structure StD where
  a : Opnd
  ka : Bool
  b : Opnd
  kb : Bool
  size : BitVec 2
  disp : BitVec 16
  deriving DecidableEq, Repr

/-- LDRS, base plus index (R441); `dw` is the dword form. -/
structure LdrsX where
  a : Opnd
  b : Opnd
  c : Opnd
  kb : Bool
  kc : Bool
  dw : Bool
  deriving DecidableEq, Repr

/-- LDRS, base plus displacement (R441). -/
structure LdrsD where
  a : Opnd
  b : Opnd
  kb : Bool
  dw : Bool
  disp : BitVec 16
  deriving DecidableEq, Repr

/-- STC (R441). -/
structure StcF where
  a : Opnd
  b : Opnd
  c : Opnd
  kb : Bool
  kc : Bool
  dw : Bool
  deriving DecidableEq, Repr

/-- DROP and WAKE (R415): bit b of the mask names LM bank b. -/
structure BankMask where
  mask : BitVec 16
  deriving DecidableEq, Repr

/-- FENCE (R204). -/
structure FenceF where
  order : BitVec 2
  scope : BitVec 4
  deriving DecidableEq, Repr

/-- ATOM (R127, R400); `o` is the ordered form. -/
structure AtomF where
  a : Opnd
  b : Opnd
  c : Opnd
  d : Opnd
  kb : Bool
  kc : Bool
  kd : Bool
  dw : Bool
  opc : BitVec 4
  o : Bool
  scope : BitVec 4
  deriving DecidableEq, Repr

/-- RED (R459). -/
structure RedF where
  a : Opnd
  ka : Bool
  b : Opnd
  kb : Bool
  dw : Bool
  opc : BitVec 4
  o : Bool
  scope : BitVec 4
  deriving DecidableEq, Repr

/-- REDX (R460); fmt 0 f32, 1 bf16, 2 f16. -/
structure RedxF where
  a : Opnd
  ka : Bool
  b : Opnd
  kb : Bool
  fmt : BitVec 2
  scope : BitVec 4
  deriving DecidableEq, Repr

/-- XREAD (R460). -/
structure XreadF where
  a : Opnd
  b : Opnd
  kb : Bool
  rm : BitVec 3
  ty : BitVec 4
  scope : BitVec 4
  deriving DecidableEq, Repr

/-- BARI, BARA, BART, BARW (R402). -/
structure BarF where
  a : Opnd
  b : Opnd
  c : Opnd
  kb : Bool
  kc : Bool
  scope : BitVec 4
  deriving DecidableEq, Repr

/-- BARV (R402). -/
structure BarvF where
  a : Opnd
  b : Opnd
  kb : Bool
  scope : BitVec 4
  deriving DecidableEq, Repr

/-- SEMW, SEMS, SEMSET (R469). -/
structure SemF where
  c : Opnd
  kc : Bool
  n : BitVec 8
  deriving DecidableEq, Repr

/-- JWAIT, JPOLL (R437); `cp` names the copy engine. -/
structure JobF where
  a : Opnd
  b : Opnd
  kb : Bool
  cp : Bool
  deriving DecidableEq, Repr

/-- SPAWN (R477). -/
structure SpawnF where
  a : Opnd
  b : Opnd
  c : Opnd
  kb : Bool
  kc : Bool
  dom : BitVec 3
  deriving DecidableEq, Repr

/-- SEND and MCAST (R302). -/
structure SendF where
  b : Opnd
  c : Opnd
  kb : Bool
  kc : Bool
  len : BitVec 9
  ord : Bool
  deriving DecidableEq, Repr

/-- SENDX (R302). -/
structure SendxF where
  b : Opnd
  c : Opnd
  kb : Bool
  kc : Bool
  len : BitVec 9
  ord : Bool
  xf : BitVec 3
  par : BitVec 23
  deriving DecidableEq, Repr

/-- SCLOSE (R468). -/
structure ScloseF where
  a : Opnd
  c : Opnd
  kc : Bool
  deriving DecidableEq, Repr

/-- SBIND (R467). -/
structure SbindF where
  a : Opnd
  b : Opnd
  c : Opnd
  kb : Bool
  kc : Bool
  n : BitVec 2
  deriving DecidableEq, Repr

/-- A destination alone (R432, R454). -/
structure Dest where
  a : Opnd
  deriving DecidableEq, Repr

/-- The wait and signal items of an engine command (R108, R240). -/
structure EngSig where
  wsem : BitVec 8
  wthr : BitVec 12
  ssem : BitVec 8
  sinc : BitVec 8
  deriving DecidableEq, Repr

/-- MXLD and MXMMA (R239). -/
structure MxPQ where
  a : Opnd
  sig : EngSig
  p : Opnd
  kp : Bool
  q : Opnd
  kq : Bool
  deriving DecidableEq, Repr

/-- MXDRN (R239). -/
structure MxDrn where
  a : Opnd
  sig : EngSig
  p : Opnd
  kp : Bool
  q : Opnd
  kq : Bool
  h : Opnd
  kh : Bool
  deriving DecidableEq, Repr

/-- MXROT and MXGANG (R451): `n` is RING or SIZE. -/
structure MxN where
  a : Opnd
  sig : EngSig
  n : BitVec 2
  deriving DecidableEq, Repr

/-- MXZERO (R451). -/
structure MxZero where
  a : Opnd
  sig : EngSig
  q : Opnd
  kq : Bool
  deriving DecidableEq, Repr

/-- CPY, CP2D, GATH, SCAT, CPYX (R267, R407); `dsc` only in CPY. -/
structure CpF where
  a : Opnd
  sig : EngSig
  p : Opnd
  kp : Bool
  q : Opnd
  kq : Bool
  h : Opnd
  kh : Bool
  dsc : Bool
  sq : BitVec 2
  deriving DecidableEq, Repr

/-- DTLD (R418). -/
structure DtldF where
  a : Opnd
  sig : EngSig
  q : Opnd
  kq : Bool
  h : Opnd
  kh : Bool
  sq : BitVec 2
  deriving DecidableEq, Repr

/-- FADD, FSUB, FMUL, FDIV, FMIN, FMAX (R128, R423). -/
structure Fp2 where
  a : Opnd
  b : Opnd
  c : Opnd
  kb : Bool
  kc : Bool
  ty : BitVec 4
  rm : BitVec 3
  deriving DecidableEq, Repr

/-- FSQRT and FCLS. -/
structure Fp1 where
  a : Opnd
  b : Opnd
  kb : Bool
  ty : BitVec 4
  rm : BitVec 3
  deriving DecidableEq, Repr

/-- FMA. -/
structure Fp3 where
  a : Opnd
  b : Opnd
  c : Opnd
  d : Opnd
  kb : Bool
  kc : Bool
  kd : Bool
  ty : BitVec 4
  rm : BitVec 3
  deriving DecidableEq, Repr

/-- FCMP (R128). -/
structure FcmpF where
  a : Opnd
  b : Opnd
  c : Opnd
  kb : Bool
  kc : Bool
  ty : BitVec 4
  cnd : BitVec 3
  deriving DecidableEq, Repr

/-- FCVT (R128). -/
structure FcvtF where
  a : Opnd
  b : Opnd
  kb : Bool
  src : BitVec 4
  rm : BitVec 3
  sat : Bool
  dst : BitVec 4
  deriving DecidableEq, Repr

/-- The vector compute forms (R129, R489). `zero` is F (inactive lanes zero); `rm` holds CND in VCMP; `d` holds the
third operand, VCVT's STYPE or VRED's ROP. -/
structure VecF where
  a : Opnd
  b : Opnd
  kb : Bool
  c : Opnd
  kc : Bool
  d : Opnd
  kd : Bool
  m : Opnd
  km : Bool
  ty : BitVec 4
  rm : BitVec 3
  sat : Bool
  zero : Bool
  deriving DecidableEq, Repr

/-- The vector memory forms (R129, R497). -/
structure VMemF where
  a : Opnd
  ka : Bool
  b : Opnd
  kb : Bool
  c : Opnd
  kc : Bool
  disp : BitVec 32
  ty : BitVec 4
  m : Opnd
  km : Bool
  deriving DecidableEq, Repr

/-- VMOV, VBC, VEXT, VINS (R129, R499). -/
structure VMovF where
  a : Opnd
  b : Opnd
  kb : Bool
  c : Opnd
  kc : Bool
  lane : BitVec 6
  ty : BitVec 4
  deriving DecidableEq, Repr

/-- CSRR (R410). -/
structure CsrrF where
  a : Opnd
  n : BitVec 12
  deriving DecidableEq, Repr

/-- CSRW (R410). -/
structure CsrwF where
  a : Opnd
  ka : Bool
  n : BitVec 12
  deriving DecidableEq, Repr

/-- CSRX (R410). -/
structure CsrxF where
  a : Opnd
  b : Opnd
  kb : Bool
  n : BitVec 12
  deriving DecidableEq, Repr

/-- TRAP and SVC (R481). -/
structure CodeF where
  code : BitVec 16
  deriving DecidableEq, Repr

/-- The host port through which a partition block is reached, and its partition (R383). -/
structure BlockPort where
  port : Nat
  part : Nat
  deriving DecidableEq, Repr

/-- What an image of management firmware is checked by: the key that it names and its version (R390). -/
structure FwImage where
  key : Nat
  ver : Nat
  deriving DecidableEq, Repr

/-- A packet as a Tamvex port receives it: the fields of R295 that the receiver uses, the request fields and the payload. -/
structure WirePacket where
  kind : Nat
  ord : Bool
  svcn : Nat
  dvcn : Nat
  smod : Nat
  sl : Nat
  gen : Nat
  pkey : BitVec 32
  seq : BitVec 32
  sendx : Bool
  xf : Nat
  par : Nat
  seed : BitVec 64
  sw : BitVec 64
  slot : Nat
  va : BitVec 64
  size : Nat
  opc : Nat
  c : BitVec 64
  d : BitVec 64
  super : Bool
  fault : Option Nat
  value : Nat
  payload : List (BitVec 8)
  deriving DecidableEq, Repr

end Sys2Proof
end

