-- ==== Sys2Proof/Syntax.lean ====
section
/-!
DEFINITION. The instruction set: one constructor for each row of the opcode table, in the table's order. The first 195 are
encoded instructions (R131), each holding the fields of its form; the others are the events of the machine (chapters
*The module and its naming* to *Host, peers, bring-up and management*), which have no encoding: what a site, core, unit
or outside agent does of itself. Their arguments say where the event happens (a core by 128·site + L, a tile by
16·site + tile, a site by its linear number, a partition by its number) and what arrives there.
-/
namespace Sys2Proof

/-- The opcode table, row by row. -/
inductive Instr where
  /-- ADD_REG, R397. -/
  | addReg (f : Alu3)
  /-- ADD_SHORT_IMM, R397. -/
  | addShortImm (f : AluI16)
  /-- ADD_LONG_IMM, R397. -/
  | addLongImm (f : AluI48)
  /-- SUB_REG, R397. -/
  | subReg (f : Alu3)
  /-- SUB_SHORT_IMM, R397. -/
  | subShortImm (f : AluI16)
  /-- SUB_LONG_IMM, R397. -/
  | subLongImm (f : AluI48)
  /-- MUL_REG, R448. -/
  | mulReg (f : Alu3)
  /-- MUL_SHORT_IMM, R448. -/
  | mulShortImm (f : AluI16)
  /-- MUL_LONG_IMM, R448. -/
  | mulLongImm (f : AluI48)
  /-- MULH_REG, R448. -/
  | mulhReg (f : Alu3)
  /-- MULH_SHORT_IMM, R448. -/
  | mulhShortImm (f : AluI16)
  /-- MULH_LONG_IMM, R448. -/
  | mulhLongImm (f : AluI48)
  /-- MULH_U_REG, R448. -/
  | mulhUReg (f : Alu3)
  /-- MULH_U_SHORT_IMM, R448. -/
  | mulhUShortImm (f : AluI16)
  /-- MULH_U_LONG_IMM, R448. -/
  | mulhULongImm (f : AluI48)
  /-- DIV_REG, R414. -/
  | divReg (f : Alu3)
  /-- DIV_SHORT_IMM, R414. -/
  | divShortImm (f : AluI16)
  /-- DIV_LONG_IMM, R414. -/
  | divLongImm (f : AluI48)
  /-- DIV_U_REG, R414. -/
  | divUReg (f : Alu3)
  /-- DIV_U_SHORT_IMM, R414. -/
  | divUShortImm (f : AluI16)
  /-- DIV_U_LONG_IMM, R414. -/
  | divULongImm (f : AluI48)
  /-- REM_REG, R414. -/
  | remReg (f : Alu3)
  /-- REM_SHORT_IMM, R414. -/
  | remShortImm (f : AluI16)
  /-- REM_LONG_IMM, R414. -/
  | remLongImm (f : AluI48)
  /-- REM_U_REG, R414. -/
  | remUReg (f : Alu3)
  /-- REM_U_SHORT_IMM, R414. -/
  | remUShortImm (f : AluI16)
  /-- REM_U_LONG_IMM, R414. -/
  | remULongImm (f : AluI48)
  /-- AND_REG, R399. -/
  | andReg (f : Alu3)
  /-- AND_SHORT_IMM, R399. -/
  | andShortImm (f : AluI16)
  /-- AND_LONG_IMM, R399. -/
  | andLongImm (f : AluI48)
  /-- ANDN_REG, R399. -/
  | andnReg (f : Alu3)
  /-- ANDN_SHORT_IMM, R399. -/
  | andnShortImm (f : AluI16)
  /-- ANDN_LONG_IMM, R399. -/
  | andnLongImm (f : AluI48)
  /-- OR_REG, R399. -/
  | orReg (f : Alu3)
  /-- OR_SHORT_IMM, R399. -/
  | orShortImm (f : AluI16)
  /-- OR_LONG_IMM, R399. -/
  | orLongImm (f : AluI48)
  /-- XOR_REG, R399. -/
  | xorReg (f : Alu3)
  /-- XOR_SHORT_IMM, R399. -/
  | xorShortImm (f : AluI16)
  /-- XOR_LONG_IMM, R399. -/
  | xorLongImm (f : AluI48)
  /-- SHL_REG, R464. -/
  | shlReg (f : Alu3)
  /-- SHL_IMM, R464. -/
  | shlImm (f : ShiftI)
  /-- SHR_REG, R464. -/
  | shrReg (f : Alu3)
  /-- SHR_IMM, R464. -/
  | shrImm (f : ShiftI)
  /-- SAR_REG, R464. -/
  | sarReg (f : Alu3)
  /-- SAR_IMM, R464. -/
  | sarImm (f : ShiftI)
  /-- ROT_REG, R464. -/
  | rotReg (f : Alu3)
  /-- ROT_IMM, R464. -/
  | rotImm (f : ShiftI)
  /-- MIN_REG, R444. -/
  | minReg (f : Alu3)
  /-- MIN_SHORT_IMM, R444. -/
  | minShortImm (f : AluI16)
  /-- MIN_LONG_IMM, R444. -/
  | minLongImm (f : AluI48)
  /-- MAX_REG, R444. -/
  | maxReg (f : Alu3)
  /-- MAX_SHORT_IMM, R444. -/
  | maxShortImm (f : AluI16)
  /-- MAX_LONG_IMM, R444. -/
  | maxLongImm (f : AluI48)
  /-- MIN_U_REG, R444. -/
  | minUReg (f : Alu3)
  /-- MIN_U_SHORT_IMM, R444. -/
  | minUShortImm (f : AluI16)
  /-- MIN_U_LONG_IMM, R444. -/
  | minULongImm (f : AluI48)
  /-- MAX_U_REG, R444. -/
  | maxUReg (f : Alu3)
  /-- MAX_U_SHORT_IMM, R444. -/
  | maxUShortImm (f : AluI16)
  /-- MAX_U_LONG_IMM, R444. -/
  | maxULongImm (f : AluI48)
  /-- CLZ, R405. -/
  | clz (f : Un)
  /-- CTZ, R405. -/
  | ctz (f : Un)
  /-- POPC, R405. -/
  | popc (f : Un)
  /-- BSWP, R405. -/
  | bswp (f : Un)
  /-- SET_REG, R473. -/
  | setReg (f : Set3)
  /-- SET_SHORT_IMM, R473. -/
  | setShortImm (f : SetI16)
  /-- SET_LONG_IMM, R473. -/
  | setLongImm (f : SetI48)
  /-- CSEL, R409. -/
  | csel (f : Csel)
  /-- EXTR, R422. -/
  | extr (f : Extr)
  /-- EXTR_S, R422. -/
  | extrS (f : Extr)
  /-- INSR, R422. -/
  | insr (f : Insr)
  /-- LDI_SHORT, R440. -/
  | ldiShort (f : Ldi16)
  /-- LDI_LONG, R440. -/
  | ldiLong (f : Ldi48)
  /-- LDI_U_SHORT, R440. -/
  | ldiUShort (f : Ldi16)
  /-- LDI_U_LONG, R440. -/
  | ldiULong (f : Ldi48)
  /-- ADPC_SHORT, R398. -/
  | adpcShort (f : Rel16)
  /-- ADPC_LONG, R398. -/
  | adpcLong (f : Rel48)
  /-- LD_INDEX, R438. -/
  | ldIndex (f : LdX)
  /-- LD_DISP, R438. -/
  | ldDisp (f : LdD)
  /-- ST_INDEX, R479. -/
  | stIndex (f : StX)
  /-- ST_DISP, R479. -/
  | stDisp (f : StD)
  /-- LDRS_INDEX, R441. -/
  | ldrsIndex (f : LdrsX)
  /-- LDRS_DISP, R441. -/
  | ldrsDisp (f : LdrsD)
  /-- STC, R441. -/
  | stc (f : StcF)
  /-- PREF, R456. -/
  | pref (f : RangeOp)
  /-- SMAP, R456. -/
  | smap (f : RangeOp)
  /-- SFLUSH, R456. -/
  | sflush (f : RangeOp)
  /-- SINV, R456. -/
  | sinv (f : RangeOp)
  /-- DROP_RET, R415. -/
  | dropRet (f : BankMask)
  /-- DROP_OFF, R415. -/
  | dropOff (f : BankMask)
  /-- WAKE, R415. -/
  | wake (f : BankMask)
  /-- FENCE, R204. -/
  | fence (f : FenceF)
  /-- ICINV, R428. -/
  | icinv (f : RangeOp)
  /-- FBAR, R429. -/
  | fbar
  /-- ATOM, R400. -/
  | atom (f : AtomF)
  /-- RED, R459. -/
  | red (f : RedF)
  /-- REDX, R461. -/
  | redx (f : RedxF)
  /-- XREAD, R462. -/
  | xread (f : XreadF)
  /-- WAITRS, R500. -/
  | waitrs (f : Un)
  /-- BARI, R402. -/
  | bari (f : BarF)
  /-- BARA, R402. -/
  | bara (f : BarF)
  /-- BART, R402. -/
  | bart (f : BarF)
  /-- BARW, R402. -/
  | barw (f : BarF)
  /-- BARV, R402. -/
  | barv (f : BarvF)
  /-- SEMW, R469. -/
  | semw (f : SemF)
  /-- SEMS, R469. -/
  | sems (f : SemF)
  /-- SEMSET, R469. -/
  | semset (f : SemF)
  /-- JWAIT, R437. -/
  | jwait (f : JobF)
  /-- JPOLL, R437. -/
  | jpoll (f : JobF)
  /-- WAIT, R437. -/
  | wait (f : Un)
  /-- B_SHORT, R401. -/
  | bShort (f : Br16)
  /-- B_LONG, R401. -/
  | bLong (f : Br48)
  /-- CALL_SHORT, R401. -/
  | callShort (f : Rel16)
  /-- CALL_LONG, R401. -/
  | callLong (f : Rel48)
  /-- BC_SHORT, R403. -/
  | bcShort (f : Bc16)
  /-- BC_LONG, R403. -/
  | bcLong (f : Bc48)
  /-- JMP, R435. -/
  | jmp (f : Src1)
  /-- CALLR, R406. -/
  | callr (f : Un)
  /-- RET, R463. -/
  | ret (f : Src1)
  /-- SKIP, R474. -/
  | skip (f : SkipF)
  /-- END, R419. -/
  | endAct
  /-- YIELD, R420. -/
  | yield
  /-- SPAWN, R477. -/
  | spawn (f : SpawnF)
  /-- JOIN, R436. -/
  | join (f : Un)
  /-- MIGR, R447. -/
  | migr (f : Src1)
  /-- SEND, R471. -/
  | send (f : SendF)
  /-- SENDX, R471. -/
  | sendx (f : SendxF)
  /-- MCAST, R445. -/
  | mcast (f : SendF)
  /-- SOPEN, R468. -/
  | sopen (f : Bin)
  /-- SCLOSE, R468. -/
  | sclose (f : ScloseF)
  /-- SBIND, R467. -/
  | sbind (f : SbindF)
  /-- HSELF, R432. -/
  | hself (f : Dest)
  /-- HQRY, R434. -/
  | hqry (f : Bin)
  /-- MXLD, R452. -/
  | mxld (f : MxPQ)
  /-- MXMMA, R453. -/
  | mxmma (f : MxPQ)
  /-- MXDRN, R450. -/
  | mxdrn (f : MxDrn)
  /-- MXROT, R451. -/
  | mxrot (f : MxN)
  /-- MXZERO, R451. -/
  | mxzero (f : MxZero)
  /-- MXGANG, R451. -/
  | mxgang (f : MxN)
  /-- MXSTAT, R454. -/
  | mxstat (f : Dest)
  /-- MXSTAT_CLR, R454. -/
  | mxstatClr (f : Dest)
  /-- CPY, R407. -/
  | cpy (f : CpF)
  /-- CP2D, R407. -/
  | cp2d (f : CpF)
  /-- GATH, R431. -/
  | gath (f : CpF)
  /-- SCAT, R431. -/
  | scat (f : CpF)
  /-- CPYX, R408. -/
  | cpyx (f : CpF)
  /-- DTLD, R418. -/
  | dtld (f : DtldF)
  /-- FADD, R424. -/
  | fadd (f : Fp2)
  /-- FSUB, R424. -/
  | fsub (f : Fp2)
  /-- FMUL, R424. -/
  | fmul (f : Fp2)
  /-- FDIV, R424. -/
  | fdiv (f : Fp2)
  /-- FSQRT, R424. -/
  | fsqrt (f : Fp1)
  /-- FMIN, R425. -/
  | fmin (f : Fp2)
  /-- FMAX, R425. -/
  | fmax (f : Fp2)
  /-- FCLS, R425. -/
  | fcls (f : Fp1)
  /-- FMA, R424. -/
  | fma (f : Fp3)
  /-- FCMP, R426. -/
  | fcmp (f : FcmpF)
  /-- FCVT, R427. -/
  | fcvt (f : FcvtF)
  /-- VADD, R490. -/
  | vadd (f : VecF)
  /-- VSUB, R490. -/
  | vsub (f : VecF)
  /-- VMUL, R490. -/
  | vmul (f : VecF)
  /-- VFMA, R490. -/
  | vfma (f : VecF)
  /-- VMIN, R490. -/
  | vmin (f : VecF)
  /-- VMAX, R490. -/
  | vmax (f : VecF)
  /-- VABS, R490. -/
  | vabs (f : VecF)
  /-- VNEG, R490. -/
  | vneg (f : VecF)
  /-- VAND, R491. -/
  | vand (f : VecF)
  /-- VOR, R491. -/
  | vor (f : VecF)
  /-- VXOR, R491. -/
  | vxor (f : VecF)
  /-- VSHL, R491. -/
  | vshl (f : VecF)
  /-- VSHR, R491. -/
  | vshr (f : VecF)
  /-- VSAR, R491. -/
  | vsar (f : VecF)
  /-- VCMP, R492. -/
  | vcmp (f : VecF)
  /-- VSEL, R492. -/
  | vsel (f : VecF)
  /-- VCVT, R493. -/
  | vcvt (f : VecF)
  /-- VDOT, R494. -/
  | vdot (f : VecF)
  /-- VRED, R495. -/
  | vred (f : VecF)
  /-- VPERM, R496. -/
  | vperm (f : VecF)
  /-- VLD, R497. -/
  | vld (f : VMemF)
  /-- VST, R497. -/
  | vst (f : VMemF)
  /-- VLDS, R497. -/
  | vlds (f : VMemF)
  /-- VSTS, R497. -/
  | vsts (f : VMemF)
  /-- VGATH, R497. -/
  | vgath (f : VMemF)
  /-- VMOV, R499. -/
  | vmov (f : VMovF)
  /-- VBC, R499. -/
  | vbc (f : VMovF)
  /-- VEXT, R499. -/
  | vext (f : VMovF)
  /-- VINS, R499. -/
  | vins (f : VMovF)
  /-- CSRR, R411. -/
  | csrr (f : CsrrF)
  /-- CSRW, R411. -/
  | csrw (f : CsrwF)
  /-- CSRX, R411. -/
  | csrx (f : CsrxF)
  /-- TRAP, R482. -/
  | trap (f : CodeF)
  /-- SVC, R482. -/
  | svc (f : CodeF)
  /-- ERET, R421. -/
  | eret
  /-- URET, R485. -/
  | uret
  /-- NOP, R455. -/
  | nop
  /-- BRK, R404. -/
  | brk
  /-- C_STASH_WRITE, R188: A write of c.stash stalls until every line is written back and leaving banks are zeroed, then takes effect. -/
  | cStashWrite (cid : Nat) (ctx : Nat)
  /-- C_CPR_WRITE, R412: A write of c.cpr stalls until no CPR entry is outstanding, then moves the rings. -/
  | cCprWrite (cid : Nat) (ctx : Nat)
  /-- C_SW_WRITE, R94: An access to c.sw waits for earlier vector instructions to retire; clearing VE kills v0-v15. -/
  | cSwWrite (cid : Nat) (ctx : Nat)
  /-- HANDLER_CREATION, R307: A queued message creates a handler in a freed handler slot, after re-checking its handler address. -/
  | handlerCreation (cid : Nat)
  /-- TASK_START, R62: A deque record starts as a class 5 activation when a context and general slot are free. -/
  | taskStart (cid : Nat)
  /-- WORK_RANGE_START, R328: The lowest remaining range of the oldest node entry starts as a class 6 activation. -/
  | workRangeStart (cid : Nat)
  /-- WAKE_UP_ARRIVAL, R42: An arriving wake-up pushes a DOM core record at the LIFO end of the deque, or is held when it is full. -/
  | wakeUpArrival (p : Nat)
  /-- WAKE_UP_HELD_PUSH, R66: A wake-up held at the NI is pushed when a record leaves the full deque or the pool is enabled. -/
  | wakeUpHeldPush (cid : Nat)
  /-- TRAP_ACTIVATION_CREATION, R352: With no trap activation running, the core creates one for the oldest unconsumed supervisor-queue entry. -/
  | trapActivationCreation (cid : Nat) (ctx : Nat)
  /-- DEFERRED_TRAP_ENTRY, R352: A KIND 1 entry waiting for a full supervisor queue is written once the next entry frees. -/
  | deferredTrapEntry (cid : Nat)
  /-- ACTIVATION_BINDING, R38: A READY activation is bound into a free bound-ready window. -/
  | activationBinding (cid : Nat) (key : Nat)
  /-- CONTEXT_ENTRY, R62: The first candidate by class enters a freed issuing context. -/
  | contextEntry (cid : Nat) (ctx : Nat)
  /-- DISPLACEMENT, R46: A class 1 or 2 arrival with no free context moves the highest-class issuing activation to a window. -/
  | displacement (cid : Nat)
  /-- AGING, R63: After 2^16 cycles waiting, an activation rises one class, not above 2. -/
  | aging (cid : Nat) (key : Nat)
  /-- BUDGET_EXPIRY, R64: A budget reaching zero delivers a BUDGET upcall and starts the 4,096-cycle grace period. -/
  | budgetExpiry (cid : Nat) (ctx : Nat)
  /-- FORCED_SUSPENSION, R64: At the end of the grace period the activation is suspended with WAITK 9 and a reloaded budget. -/
  | forcedSuspension (cid : Nat) (ctx : Nat)
  /-- HANDLER_BUDGET_EXPIRY, R48: A handler past 4,096 issuing cycles raises BUDGET as a supervisor trap. -/
  | handlerBudgetExpiry (cid : Nat) (ctx : Nat)
  /-- STEAL_ATTEMPT, R55: An idle core picks a victim in widening rings and sends a steal request. -/
  | stealAttempt (cid : Nat)
  /-- STEAL_ROUND_RESTART, R56: 256 cycles after a fruitless round, stealing restarts at tile level. -/
  | stealRoundRestart (cid : Nat)
  /-- STEAL_REQUEST, R54: The victim's deque serves a steal from the FIFO end or its dispatch queue, or fails it. -/
  | stealRequest (thief : Nat)
  /-- STEAL_REPLY, R55: A stolen record or range starts in the thief's free context as class 7. -/
  | stealReply (thief : Nat)
  /-- MIGRATION_PACKET, R60: The destination accepts a migration packet and creates a class 3 activation, or replies RETRY or a fault. -/
  | migrationPacket (p : Nat)
  /-- MIGRATION_RESEND, R60: After the RETRY backoff the source resends the migration packet. -/
  | migrationResend (cid : Nat) (key : Nat)
  /-- JOIN_REREAD, R224: An unmonitored suspended JOIN re-reads its join word every 256 cycles. -/
  | joinReread (cid : Nat) (key : Nat)
  /-- WAIT_EXPIRY, R237: The cycle count of WAIT elapses and the activation becomes READY. -/
  | waitExpiry (cid : Nat) (key : Nat)
  /-- WAITRS_TIMEOUT, R224: A WAITRS timeout elapses and the activation becomes READY with status 1. -/
  | waitrsTimeout (cid : Nat) (key : Nat)
  /-- LATE_FAULT_DELIVERY, R88: A pending LATE is delivered to the issuing activation at its next commit point. -/
  | lateFaultDelivery (cid : Nat) (ctx : Nat)
  /-- NEIGHBOUR_WORD_ARRIVAL, R71: A word sent on the tile ring lands in the neighbour's link buffer. -/
  | neighbourWordArrival (cid : Nat) (left : Bool)
  /-- REGISTER_BANK_IDLE, R84: A register bank untouched for 256 cycles goes to RETAIN. -/
  | registerBankIdle (cid : Nat) (key : Nat) (bank : Nat)
  /-- LM_BANK_WAKE_COMPLETE, R85: A waking LM bank reaches FULL, zeroed, 24 cycles after WAKE. -/
  | lmBankWakeComplete (pid : Nat) (bank : Nat)
  /-- GROOMER_VISIT, R91: The groomer reads, corrects and rewrites one LM word as a locked operation. -/
  | groomerVisit (pid : Nat) (off : Nat) (err : Nat)
  /-- VECTOR_INSTRUCTION_START, R487: The vector unit starts the next committed vector instruction in commit order. -/
  | vectorInstructionStart (cid : Nat)
  /-- VECTOR_RETIREMENT, R487: A vector instruction writes its results, ORs its flags and frees its CPR entry. -/
  | vectorRetirement (cid : Nat)
  /-- VECTOR_LATE_FAULT, R488: A vector instruction faults late and cancels the activation's later vector instructions. -/
  | vectorLateFault (cid : Nat)
  /-- ICACHE_FILL, R189: An instruction-cache line fill from the home L2 arrives. -/
  | icacheFill (cid : Nat) (ctx : Nat)
  /-- READ_REQUEST, R173: A read arrives at its home or target NI and is translated, checked and answered. -/
  | readRequest (p : Nat)
  /-- WRITE_REQUEST, R173: A write arrives at its home or target, is re-checked and performed, dropped, or answered RETRY. -/
  | writeRequest (late : Bool) (k : Nat)
  /-- CHECK_REQUEST, R173: A check without data arrives and is translated and checked, and a reply is sent. -/
  | checkRequest (p : Nat)
  /-- ATOMIC_REQUEST, R216: An atomic, reduction or barrier operation is performed at a home slice or atomic handler. -/
  | atomicRequest (p : Nat)
  /-- REPLY, R301: A reply lands in its reserved slot and completes the request. -/
  | reply (p : Nat)
  /-- RETRY_REPLY, R301: A RETRY answer lands and starts the requester's backoff. -/
  | retryReply (p : Nat)
  /-- RETRY_RESEND, R301: After the backoff the requester resends the packet with the same SEQ. -/
  | retryResend (p : Nat)
  /-- REPLY_SLOT_TIMEOUT, R299: No reply 2^20 cycles after injection releases the slot and completes the request as NOROUTE. -/
  | replySlotTimeout (cid : Nat) (slot : Nat)
  /-- PAGE_TABLE_WALK, R177: The home NI walks its three-level tree for a TLB miss and returns a leaf or a fault. -/
  | pageTableWalk (site : Nat) (va : Nat)
  /-- STASH_RECALL, R186: A recall or invalidation from the home arrives at a stash, which returns M data and drops the line. -/
  | stashRecall (cid : Nat) (line : Nat) (write : Bool)
  /-- STASH_WRITE_BACK, R186: A dirty stash line's write-back arrives at its home. -/
  | stashWriteBack (cid : Nat) (line : Nat)
  /-- RESERVATION_RECALL_DEFERRAL, R223: A recall deferred for an LDRS is sent after 64 cycles or at the STC. -/
  | reservationRecallDeferral (cid : Nat) (line : Nat)
  /-- PENDING_BYTE_DECREMENT, R227: A copy's chunk decrement subtracts from PEND and applies BarDone, or is discarded. -/
  | pendingByteDecrement (tile : Nat) (q : Nat)
  /-- BARW_REGISTRATION_RETRY, R228: A waiter refused registration retries after backoff. -/
  | barwRegistrationRetry (cid : Nat) (key : Nat)
  /-- COLLECTIVE_COMBINE, R231: A chiplet's collective unit sends the BARAs combined within an 8-cycle window as one COL arrival. -/
  | collectiveCombine (site : Nat)
  /-- BARRIER_COMPLETION_MULTICAST, R231: A network barrier completion arrives at a site and its NI wakes its waiters. -/
  | barrierCompletionMulticast (site : Nat) (loc : Nat)
  /-- TLBI_COMPLETION, R182: Every access translated by dropped entries is performed and pins released, clearing BUSY. -/
  | tlbiCompletion (site : Nat)
  /-- MATRIX_COMMAND_START, R246: The head command of a matrix queue starts once the previous completes and its semaphore wait passes. -/
  | matrixCommandStart (tile : Nat) (slot : Nat)
  /-- MATRIX_STEP_GRANT, R256: At a step boundary the arbiter grants one ready requester a native step. -/
  | matrixStepGrant (tile : Nat)
  /-- MATRIX_STEP_EFFECT, R255: A native step's additions and flags take effect 40 cycles after its start. -/
  | matrixStepEffect (tile : Nat)
  /-- LATCH_SWAP, R249: At the step boundary after a fill, the staging copy becomes the latch and MXLD completes. -/
  | latchSwap (tile : Nat) (slot : Nat)
  /-- MXROT_RENDEZVOUS, R250: Every slot of a sub-ring has MXROT at its queue head, and the rotation copy begins. -/
  | mxrotRendezvous (tile : Nat) (slot : Nat)
  /-- LATCH_ROTATION_SWAP, R250: After the rotation copy, all latches of the sub-ring swap at one step boundary. -/
  | latchRotationSwap (tile : Nat)
  /-- GANG_FORMATION, R252: A matching MXGANG set with idle old leaders forms the new gang. -/
  | gangFormation (tile : Nat) (slot : Nat)
  /-- MXZERO_COMPLETION, R261: MXZERO zeroes its last block and completes. -/
  | mxzeroCompletion (tile : Nat) (slot : Nat)
  /-- DRAIN_COMPLETION, R259: The drain's trailer and wake-up are acknowledged and MXDRN completes and signals. -/
  | drainCompletion (tile : Nat) (slot : Nat)
  /-- MATRIX_LATE_FAULT, R263: A running matrix command faults late and its queue cancels commands until delivery. -/
  | matrixLateFault (tile : Nat) (slot : Nat)
  /-- COPY_COMMAND_START, R266: The head command of a copy queue starts once the previous ends and its semaphore wait passes. -/
  | copyCommandStart (tile : Nat) (q : Nat)
  /-- CPYX_PINNING, R275: A CPYX translates and pins every page it touches before moving bytes. -/
  | cpyxPinning (tile : Nat) (q : Nat)
  /-- COPY_PIECE, R266: The copy engine moves one 64-byte destination piece of a running command. -/
  | copyPiece (tile : Nat) (q : Nat)
  /-- COPY_STALL, R273: A refused walk or RETRY stalls a copy at its offset and reports it. -/
  | copyStall (tile : Nat) (q : Nat)
  /-- COPY_LATE_FAULT, R274: A copy fault ends the command with LATE and cancels its queue. -/
  | copyLateFault (tile : Nat) (q : Nat)
  /-- COPY_COMMAND_COMPLETION, R272: All writes and decrements are acknowledged; the copy completes, signals and may wake. -/
  | copyCommandCompletion (tile : Nat) (q : Nat)
  /-- DTLD_TABLE_CHANGE, R286: After earlier users finish, DTLD writes the slot, advances GEN and invalidates buffers. -/
  | dtldTableChange (tile : Nat) (q : Nat)
  /-- PACKET_INJECTION, R301: An NI injects a waiting packet once a reply slot is free. -/
  | packetInjection (p : Nat)
  /-- ROUTER_FORWARD, R292: A router forwards a packet one hop by dimension order on its network. -/
  | routerForward (p : Nat)
  /-- ACTIVE_MESSAGE, R307: An arriving message is checked and queued, diverted, or answered RETRY. -/
  | activeMessage (p : Nat)
  /-- MULTICAST_COPY, R310: A multicast copy is accepted into the handler queue or NACKed. -/
  | multicastCopy (p : Nat)
  /-- NACK, R310: A NACK reaches the sender's multicast record. -/
  | nack (p : Nat)
  /-- MULTICAST_RESEND, R310: After backoff the sender resends a unicast copy to a NACKing core. -/
  | multicastResend (p : Nat)
  /-- SENDX_LANDING, R308: A SENDX is checked, transformed and written into the receiver's LM, or diverted. -/
  | sendxLanding (p : Nat)
  /-- STREAM_OPEN, R312: A stream-open packet reserves its route hop by hop toward the receiver. -/
  | streamOpen (p : Nat)
  /-- STREAM_ATTACH, R312: A waiting stream route attaches once the port is bound to a matching sender. -/
  | streamAttach (cid : Nat) (idx : Nat)
  /-- STREAM_FLIT_SEND, R312: The NI sends a data flit at 8 words, at SCLOSE, or 4 cycles after the last word. -/
  | streamFlitSend (cid : Nat) (idx : Nat)
  /-- STREAM_DATA_ARRIVAL, R312: Stream words arrive in the receive port's buffer. -/
  | streamDataArrival (k : Nat)
  /-- STREAM_CLOSE, R313: The closing flit arrives and ends the route after its last word. -/
  | streamClose (k : Nat)
  /-- STREAM_IDLE_BREAK, R314: 2^16 idle cycles break a stream and release its route. -/
  | streamIdleBreak (cid : Nat) (idx : Nat)
  /-- TRAP_REPORT, R316: A trap report reaches its row collector and is merged or held in a slot. -/
  | trapReport (site : Nat)
  /-- COLLECTOR_DELIVERY, R357: With EN and ring room, the collector writes a record and messages the fault service. -/
  | collectorDelivery (part : Nat) (collector : Nat)
  /-- TAMVEX_PACKET, R387: A packet arrives over a Tamvex port and is checked or discarded. -/
  | tamvexPacket (port : Nat) (w : WirePacket)
  /-- DOORBELL, R321: A write of HQ_TAIL rings the doorbell as a .sys release. -/
  | doorbell (at_ : BlockPort) (value : Nat)
  /-- LAUNCH_START, R323: With STATE 0 and HEAD not TAIL, the device takes an entry, numbers the launch and multicasts it. -/
  | launchStart (part : Nat)
  /-- LAUNCH_PACKET, R323: Each site loads the TCBs, checks the image and sends its verdict and CRC to the root. -/
  | launchPacket (site : Nat)
  /-- GRAPH_VERDICT, R323: With every verdict in, the root multicasts the start or ends the launch with status 2. -/
  | graphVerdict (part : Nat)
  /-- GRAPH_START, R323: Each site sets pending counts and releases nodes with NPRED 0. -/
  | graphStart (site : Nat)
  /-- CREDIT_PARTIAL_SUM, R330: Within 16 cycles the collective unit sends a node's unsent credits to the root. -/
  | creditPartialSum (site : Nat) (node : Nat)
  /-- KERNEL_TOTAL, R330: The root adds partial sums and sequences a completion or an overcount end. -/
  | kernelTotal (part : Nat) (node : Nat)
  /-- COMPLETION_EVENT, R331: A site applies the next completion-stream event by CNUM, retiring and releasing successors. -/
  | completionEvent (site : Nat)
  /-- COND_DECISION, R332: The root reads a COND predicate and sequences the decision. -/
  | condDecision (part : Nat) (node : Nat)
  /-- LOOP_DECISION, R333: The root reads a LOOP predicate and sequences body or exit. -/
  | loopDecision (part : Nat) (node : Nat)
  /-- HOSTSIG_STORE, R331: The root stores VALUE at HADDR, may raise MSI-X, and completes on acknowledgement. -/
  | hostsigStore (part : Nat) (node : Nat)
  /-- GRAPH_END, R334: Once END is released and all work is gone, the root writes the completion record and idles. -/
  | graphEnd (part : Nat)
  /-- LIVENESS_EVENT, R338: A vacated VCN's report puts a liveness event in the stream; sites change their snapshot and move ranges. -/
  | livenessEvent (site : Nat)
  /-- STOP_EVENT, R340: A cancel or failure puts a stop event in the stream that discards queued work. -/
  | stopEvent (site : Nat)
  /-- HQ_CANCEL, R340: A write of HQ_CTL CANCEL cancels the current launch. -/
  | hqCancel (at_ : BlockPort)
  /-- PAGE_NOTICE_RESUME, R358: A write of FC_CMD with ACT 0 sends a resume notice for FC_VPN. -/
  | pageNoticeResume (part : Nat) (all : Bool) (rsite : Nat)
  /-- PAGE_NOTICE_CANCEL, R358: A write of FC_CMD with ACT 1 sends a cancel notice for FC_VPN. -/
  | pageNoticeCancel (part : Nat) (all : Bool) (rsite : Nat)
  /-- PAGE_NOTICE_ARRIVAL, R358: A notice at a site clears page waits, resuming or faulting activations and resuming or cancelling stalled copies. -/
  | pageNoticeArrival (part : Nat) (site : Nat)
  /-- SWAP_OUT, R364: PSWAP_CTL CMD 1 starts quiescing the partition, or is refused with ERR. -/
  | swapOut (part : Nat)
  /-- SWAP_IN, R367: PSWAP_CTL CMD 2 restores a saved partition by VCN, or is refused. -/
  | swapIn (part : Nat)
  /-- SWAP_EXCHANGE, R363: PSWAP_CTL CMD 3 swaps this partition out and OTHER in, or is refused. -/
  | swapExchange (part : Nat) (other : Nat)
  /-- QUIESCENCE_AGREEMENT, R364: The sites agree on COL that all are quiescent and saving begins. -/
  | quiescenceAgreement (part : Nat)
  /-- SWAP_SAVE_COMPLETION, R365: Swap-mode copies and PSAVE writes finish and STATE becomes saved. -/
  | swapSaveCompletion (part : Nat)
  /-- SWAP_RESTORE_COMPLETION, R367: Restore finishes, group memory is reset if needed, and dispatch resumes. -/
  | swapRestoreCompletion (part : Nat)
  /-- PSWAP_ST_READ, R363: A read of PSWAP_ST returns it and clears ERR. -/
  | pswapStRead (part : Nat)
  /-- RETIRE, R369: A write of RETIRE with GO quiesces a logical core and starts moving it to the spare, or is refused. -/
  | retire (site : Nat) (value : Word)
  /-- RETIREMENT_COMPLETION, R369: The LM copy ends; the LPCT entry is rebound or vacated and held traffic released. -/
  | retirementCompletion (site : Nat)
  /-- SELF_TEST_PASS, R371: The self-test engine records a pass of a retired core. -/
  | selfTestPass (pid : Nat)
  /-- PASS_EXPIRY, R371: 2^49 cycles after T1 without readmission, PASS returns to 0. -/
  | passExpiry (pid : Nat)
  /-- BALLOON_RELEASE, R376: With EN, FREE below LOW and a non-empty pool, the engine releases the head page. -/
  | balloonRelease (site : Nat)
  /-- SPILL_MOVE, R378: As backing frees, the controller moves the oldest spilled line into backing. -/
  | spillMove (site : Nat)
  /-- MC_EXPOSE_WRITE, R373: An accepted MC_EXPOSE write sets the exposure and zeroes every line. -/
  | mcExposeWrite (site : Nat)
  /-- MC_SPILL_READ, R373: A read of MC_SPILL returns it and clears RETRIES. -/
  | mcSpillRead (site : Nat)
  /-- MC_BTAIL_WRITE, R375: A write of MC_BTAIL registers balloon entries. -/
  | mcBtailWrite (site : Nat) (value : Word)
  /-- MC_BPOOL_WRITE, R375: A write of MC_BPOOL names the reserved ring page. -/
  | mcBpoolWrite (site : Nat) (value : Word)
  /-- PSAVE_WRITE, R374: An owner write of PSAVE names and reserves the 1 MiB save area, or is ignored. -/
  | psaveWrite (site : Nat) (value : Word)
  /-- LPCT_ENTRY_WRITE, R19: An LPCT entry write is accepted with a GEN advance or ignored. -/
  | lpctEntryWrite (site : Nat) (l : Nat) (value : Word)
  /-- NI_TLBI, R182: A write of NI_TLBI drops TLB entries and sets BUSY. -/
  | niTlbi (site : Nat) (value : Word)
  /-- CFG_REGISTER_WRITE, R32: A write to a register without a row of its own is performed and acknowledged. -/
  | cfgRegisterWrite (space : Nat) (idx : Nat) (off : Nat) (value : Word)
  /-- POWER_ON, R388: Power-on makes the E-chiplets offer clock and configuration. -/
  | powerOn
  /-- CLOCK_OFFER, R388: A DARK site accepts clock from its first offering neighbour and offers it on. -/
  | clockOffer (site : Nat)
  /-- SITE_STATE_ADVANCE, R388: A site passes bring-up steps in order, or goes to QUARANTINE on a failure. -/
  | siteStateAdvance (site : Nat) (ok : Bool) (step : Nat)
  /-- MC_FIRMWARE_BOOT, R390: The boot ROM verifies the MC image and runs it or its recovery loader. -/
  | mcFirmwareBoot (mc : Nat) (image : FwImage) (sigOk : Bool)
  /-- HOST_CXL_MEM_ACCESS, R385: A host CXL.mem access reaches a SEG address as a supervisor access. -/
  | hostCxlMemAccess (port : Nat) (o : Nat) (n : Nat) (write : Bool) (value : Nat)
  /-- TOKEN_LINK_ENABLE, R391: An owner token with ACT 1 enables a Tamvex link. -/
  | tokenLinkEnable (sig : Bool) (key : Nat) (body : BitVec 512) (port : Nat)
  /-- TOKEN_PARTITION_KEY, R391: An owner token with ACT 2 sets a partition key. -/
  | tokenPartitionKey (sig : Bool) (key : Nat) (body : BitVec 512) (part : Nat) (pk : BitVec 32)
  /-- TOKEN_READMIT, R391: An owner token with ACT 3 readmits a retired core. -/
  | tokenReadmit (sig : Bool) (key : Nat) (body : BitVec 512) (site : Nat) (idx : Nat) (rcnt : Nat)
  /-- TOKEN_CLEAR_CORE_STOP, R391: An owner token with ACT 4 clears a core stop. -/
  | tokenClearCoreStop (sig : Bool) (key : Nat) (body : BitVec 512) (site : Nat) (l : Nat)
  /-- TOKEN_SET_RETIRED, R391: An owner token with ACT 5 sets a site RETIRED. -/
  | tokenSetRetired (sig : Bool) (key : Nat) (body : BitVec 512) (site : Nat)
  /-- TOKEN_MC_EXPOSE, R391: An owner token with ACT 6 writes MC_EXPOSE. -/
  | tokenMcExpose (sig : Bool) (key : Nat) (body : BitVec 512) (site : Nat) (fact : Nat)
  /-- POWER_CLAMP, R392: A clamp limit is crossed and the arbiter skips every other step boundary. -/
  | powerClamp
  /-- PARTITION_CREATION, R15: The owner's system software creates a partition over live sites, with handle epoch 1 and per-core serials, SEQ numbers and semaphores at 0. -/
  | partitionCreation (part : Nat) (sites : List Nat)
  /-- PARTITION_RESHAPE, R23: A reshape advances the handle epoch in every NI, renumbers PSIs and ends the vacancy of VCNs. -/
  | partitionReshape (part : Nat) (sites : List Nat)
  /-- TAMVEX_LINK_TRAINING, R387: A Tamvex link trains or drops of itself, which sets or clears UP in TVX_CTL. -/
  | tamvexLinkTraining (port : Nat) (up : Bool)
  /-- PCIE_LINK_TRAINING, R384: A host port trains as CXL 3.2 or as PCIe only, which fixes the protocols it offers. -/
  | pcieLinkTraining (port : Nat) (cxl : Bool)
  /-- POWER_CLAMP_RELEASE, R392: The draw falls back under the clamp limit and the arbiter grants steps at every boundary again. -/
  | powerClampRelease
  /-- POWER_LOSS, R34: Module power is lost, and only power-cycle-persistent state such as TOKCNT survives. -/
  | powerLoss
  /-- SELF_TEST_START, R371: Management firmware starts a self-test of a retired physical core, which puts ST under test. -/
  | selfTestStart (pid : Nat)
  /-- MATRIX_DRAIN_SEGMENT, R259: A running MXDRN reads one 32-element row segment, converts it and issues its writes to the target. -/
  | matrixDrainSegment (tile : Nat) (slot : Nat)
  /-- STREAM_CREDIT, R312: Credit for receive-port buffer space returns to the stream sender and unstalls a write to so. -/
  | streamCredit (k : Nat)
  deriving DecidableEq, Repr

end Sys2Proof
end

