-- ==== Sys2Proof/WellFormed.lean ====
section
/-!
DEFINITION. The reserved field values of every form (R124–R131, R132, and the field tables R413, R443, R466, R484,
R489, R497, R499). An instruction is well-formed when no reserved value stands in a field of its shape; an ill-formed
one has no encoding, and its bits raise ILLOP. Operand roles (R69) are not checked here: a code in a forbidden role
raises BADOPND when the instruction runs (R132). An event carries no encoding and is always well-formed.
-/
namespace Sys2Proof

/-- Rounding-mode codes that are not reserved (R124). -/
def okRm (rm : BitVec 3) : Bool := rm ≠ 5#3 && rm ≠ 6#3
/-- Scope codes `.ctx`–`.sys` (R124). -/
def okScope (s : BitVec 4) : Bool := s.toNat ≤ 8
/-- Scope codes of the barrier instructions, `.ctx`–`.dev` (R215). -/
def okBarScope (s : BitVec 4) : Bool := s.toNat ≤ 6
/-- The scalar floating-point types, codes 8–11 (R128). -/
def okFty (t : BitVec 4) : Bool := 8 ≤ t.toNat && t.toNat ≤ 11
/-- A type code of integers (R124). -/
def isIntTy (t : BitVec 4) : Bool := t.toNat ≤ 7
/-- Elements of a type code in 512 bits (R486). -/
def laneCount (t : BitVec 4) : Nat :=
  match t.toNat with
  | 0 | 4 | 12 | 13 => 64
  | 1 | 5 | 10 | 11 => 32
  | 2 | 6 | 9 => 16
  | 3 | 7 | 8 => 8
  | 14 => 128
  | _ => 0

/-- R125, R126: X = 1 only where the major has `.a` forms. -/
def wfHalf (hasA half : Bool) : Bool := hasA || !half
/-- R422: POS + WID ≤ 64. -/
def wfField (pos wid : BitVec 6) : Bool := pos.toNat + (wid.toNat + 1) ≤ 64
/-- R438: LD.d has no sign extension. -/
def wfLd (size : BitVec 2) (sx : Bool) : Bool := !(size == 3#2 && sx)
/-- R127: OPC 0–9, and D only in cas. -/
def wfAtom (f : AtomF) : Bool :=
  okScope f.scope && f.opc.toNat ≤ 9 && (f.opc == 9#4 || (f.d == opZ && !f.kd))
/-- R459. -/
def wfRed (f : RedF) : Bool := okScope f.scope && f.opc.toNat ≤ 7
/-- R460. -/
def wfRedx (f : RedxF) : Bool := okScope f.scope && f.fmt.toNat ≤ 2
/-- R460. -/
def wfXread (f : XreadF) : Bool := okScope f.scope && okRm f.rm && (f.ty == 8#4 || f.ty == 9#4)
/-- R302: LEN is a multiple of 8 from 8 to 256. -/
def wfLen (len : BitVec 9) : Bool := len.toNat % 8 == 0 && 8 ≤ len.toNat && len.toNat ≤ 256
/-- R302, R131: XF is not 2 or 7. -/
def wfSendx (f : SendxF) : Bool := wfLen f.len && f.xf ≠ 2#3 && f.xf ≠ 7#3
/-- R267: SQ is not 3, and DSC only in CPY. -/
def wfCp (isCpy : Bool) (f : CpF) : Bool := f.sq ≠ 3#2 && (isCpy || !f.dsc)
/-- R128: FMIN and FMAX carry rounding-mode code 0. -/
def wfFp (rounds : Bool) (ty : BitVec 4) (rm : BitVec 3) : Bool :=
  okFty ty && (if rounds then okRm rm else rm == 0#3)
/-- R128: CND 0–4. -/
def wfFcmp (f : FcmpF) : Bool := okFty f.ty && f.cnd.toNat ≤ 4
/-- R427: type code 15 is reserved in either field. -/
def wfFcvt (f : FcvtF) : Bool := f.src ≠ 15#4 && f.dst ≠ 15#4 && okRm f.rm

/-- The column RM of R489: any mode for floats, 0 for integers. -/
def vRm (f : VecF) : Bool := if isIntTy f.ty then f.rm == 0#3 else okRm f.rm
def vNoD (f : VecF) : Bool := f.d == opZ && !f.kd
def vNoC (f : VecF) : Bool := f.c == opZ && !f.kc

/-- The table of compute forms (R489), one VOP a line. -/
def wfVec (vop : Nat) (f : VecF) : Bool :=
  let t := f.ty.toNat
  match vop with
  | 0 | 1 | 2 => t ≤ 11 && vNoD f && vRm f
  | 3 => t ≤ 11 && vRm f
  | 4 | 5 => t ≤ 11 && vNoD f && f.rm == 0#3 && !f.sat
  | 6 | 7 => (t ≤ 3 || (8 ≤ t && t ≤ 11)) && vNoC f && vNoD f && f.rm == 0#3 && (isIntTy f.ty || !f.sat)
  | 8 | 9 | 10 => t ≤ 11 && vNoD f && f.rm == 0#3 && !f.sat
  | 11 | 12 | 13 => t ≤ 7 && vNoD f && f.rm == 0#3 && !f.sat
  | 14 => t ≤ 11 && vNoD f && f.rm.toNat ≤ 4 && !(isIntTy f.ty && f.rm == 3#3) && !f.sat && !f.zero
  | 15 => t ≤ 11 && f.rm == 0#3 && !f.sat
  | 16 => t ≤ 14 && f.d.toNat ≤ 14 && !f.kd && vNoC f && okRm f.rm
          && ((t ≠ 14 && f.d.toNat ≠ 14) || (f.m == opZ))
  | 17 => (t == 0 || t == 4 || (10 ≤ t && t ≤ 13)) && vRm f && (isIntTy f.ty || !f.sat)
  | 18 => t ≤ 11 && f.d.toNat ≤ 5 && !f.kd && vNoC f && (isIntTy f.ty || f.d.toNat ≤ 2) && vRm f
          && (isIntTy f.ty || !f.sat) && !f.zero
  | 19 => t ≤ 11 && vNoD f && f.rm == 0#3 && !f.sat
  | _ => false

/-- The memory forms (R497); `fx` is F, and 4 for VGATH. -/
def wfVMem (fx : Nat) (f : VMemF) : Bool :=
  let t := f.ty.toNat
  match fx with
  | 0 => t ≤ 14 && f.c == opZ && !f.kc && !f.ka && (t ≠ 14 || f.m == opZ)
  | 1 => t ≤ 14 && f.c == opZ && !f.kc && (t ≠ 14 || f.m == opZ)
  | 2 => t ≤ 13 && !f.ka
  | 3 => t ≤ 13
  | _ => (t == 2 || t == 3 || (6 ≤ t && t ≤ 9)) && !f.ka

/-- The move forms (R499). -/
def wfVMov (fx : Nat) (f : VMovF) : Bool :=
  let t := f.ty.toNat
  match fx with
  | 0 => t == 0 && f.lane == 0#6 && f.c == opZ && !f.kc
  | 1 => t ≤ 13 && f.lane == 0#6 && f.c == opZ && !f.kc
  | 2 => t ≤ 13 && f.lane.toNat < laneCount f.ty && f.c == opZ && !f.kc
  | _ => t ≤ 13 && f.lane.toNat < laneCount f.ty

-- GENERATED: the rows of the opcode table
/-- Well-formedness, row by row. -/
def Instr.wf (i : Instr) : Bool :=
  match i with
  | .addReg _ => true
  | .addShortImm _ => true
  | .addLongImm _ => true
  | .subReg _ => true
  | .subShortImm _ => true
  | .subLongImm _ => true
  | .mulReg _ => true
  | .mulShortImm _ => true
  | .mulLongImm _ => true
  | .mulhReg _ => true
  | .mulhShortImm _ => true
  | .mulhLongImm _ => true
  | .mulhUReg _ => true
  | .mulhUShortImm _ => true
  | .mulhULongImm _ => true
  | .divReg f => !f.half
  | .divShortImm f => !f.half
  | .divLongImm f => !f.half
  | .divUReg f => !f.half
  | .divUShortImm f => !f.half
  | .divULongImm f => !f.half
  | .remReg f => !f.half
  | .remShortImm f => !f.half
  | .remLongImm f => !f.half
  | .remUReg f => !f.half
  | .remUShortImm f => !f.half
  | .remULongImm f => !f.half
  | .andReg _ => true
  | .andShortImm _ => true
  | .andLongImm _ => true
  | .andnReg _ => true
  | .andnShortImm _ => true
  | .andnLongImm _ => true
  | .orReg _ => true
  | .orShortImm _ => true
  | .orLongImm _ => true
  | .xorReg _ => true
  | .xorShortImm _ => true
  | .xorLongImm _ => true
  | .shlReg _ => true
  | .shlImm _ => true
  | .shrReg _ => true
  | .shrImm _ => true
  | .sarReg _ => true
  | .sarImm _ => true
  | .rotReg _ => true
  | .rotImm _ => true
  | .minReg f => !f.half
  | .minShortImm f => !f.half
  | .minLongImm f => !f.half
  | .maxReg f => !f.half
  | .maxShortImm f => !f.half
  | .maxLongImm f => !f.half
  | .minUReg f => !f.half
  | .minUShortImm f => !f.half
  | .minULongImm f => !f.half
  | .maxUReg f => !f.half
  | .maxUShortImm f => !f.half
  | .maxULongImm f => !f.half
  | .clz _ => true
  | .ctz _ => true
  | .popc _ => true
  | .bswp _ => true
  | .setReg _ => true
  | .setShortImm _ => true
  | .setLongImm _ => true
  | .csel _ => true
  | .extr f => wfField f.pos f.wid
  | .extrS f => wfField f.pos f.wid
  | .insr f => wfField f.pos f.wid
  | .ldiShort _ => true
  | .ldiLong _ => true
  | .ldiUShort _ => true
  | .ldiULong _ => true
  | .adpcShort _ => true
  | .adpcLong _ => true
  | .ldIndex f => wfLd f.size f.sx
  | .ldDisp f => wfLd f.size f.sx
  | .stIndex _ => true
  | .stDisp _ => true
  | .ldrsIndex _ => true
  | .ldrsDisp _ => true
  | .stc _ => true
  | .pref _ => true
  | .smap _ => true
  | .sflush _ => true
  | .sinv _ => true
  | .dropRet _ => true
  | .dropOff _ => true
  | .wake _ => true
  | .fence f => okScope f.scope
  | .icinv _ => true
  | .fbar => true
  | .atom f => wfAtom f
  | .red f => wfRed f
  | .redx f => wfRedx f
  | .xread f => wfXread f
  | .waitrs _ => true
  | .bari f => okBarScope f.scope
  | .bara f => okBarScope f.scope
  | .bart f => okBarScope f.scope
  | .barw f => okBarScope f.scope
  | .barv f => okBarScope f.scope
  | .semw _ => true
  | .sems _ => true
  | .semset _ => true
  | .jwait _ => true
  | .jpoll _ => true
  | .wait _ => true
  | .bShort _ => true
  | .bLong _ => true
  | .callShort _ => true
  | .callLong _ => true
  | .bcShort _ => true
  | .bcLong _ => true
  | .jmp _ => true
  | .callr _ => true
  | .ret _ => true
  | .skip _ => true
  | .endAct => true
  | .yield => true
  | .spawn f => f.dom.toNat ≤ 4
  | .join _ => true
  | .migr _ => true
  | .send f => wfLen f.len
  | .sendx f => wfSendx f
  | .mcast f => wfLen f.len
  | .sopen _ => true
  | .sclose _ => true
  | .sbind _ => true
  | .hself _ => true
  | .hqry _ => true
  | .mxld _ => true
  | .mxmma _ => true
  | .mxdrn _ => true
  | .mxrot f => f.n ≠ 3#2
  | .mxzero _ => true
  | .mxgang _ => true
  | .mxstat _ => true
  | .mxstatClr _ => true
  | .cpy f => wfCp true f
  | .cp2d f => wfCp false f
  | .gath f => wfCp false f
  | .scat f => wfCp false f
  | .cpyx f => wfCp false f
  | .dtld f => f.sq ≠ 3#2
  | .fadd f => wfFp true f.ty f.rm
  | .fsub f => wfFp true f.ty f.rm
  | .fmul f => wfFp true f.ty f.rm
  | .fdiv f => wfFp true f.ty f.rm
  | .fsqrt f => wfFp true f.ty f.rm
  | .fmin f => wfFp false f.ty f.rm
  | .fmax f => wfFp false f.ty f.rm
  | .fcls f => wfFp false f.ty f.rm
  | .fma f => wfFp true f.ty f.rm
  | .fcmp f => wfFcmp f
  | .fcvt f => wfFcvt f
  | .vadd f => wfVec 0 f
  | .vsub f => wfVec 1 f
  | .vmul f => wfVec 2 f
  | .vfma f => wfVec 3 f
  | .vmin f => wfVec 4 f
  | .vmax f => wfVec 5 f
  | .vabs f => wfVec 6 f
  | .vneg f => wfVec 7 f
  | .vand f => wfVec 8 f
  | .vor f => wfVec 9 f
  | .vxor f => wfVec 10 f
  | .vshl f => wfVec 11 f
  | .vshr f => wfVec 12 f
  | .vsar f => wfVec 13 f
  | .vcmp f => wfVec 14 f
  | .vsel f => wfVec 15 f
  | .vcvt f => wfVec 16 f
  | .vdot f => wfVec 17 f
  | .vred f => wfVec 18 f
  | .vperm f => wfVec 19 f
  | .vld f => wfVMem 0 f
  | .vst f => wfVMem 1 f
  | .vlds f => wfVMem 2 f
  | .vsts f => wfVMem 3 f
  | .vgath f => wfVMem 4 f
  | .vmov f => wfVMov 0 f
  | .vbc f => wfVMov 1 f
  | .vext f => wfVMov 2 f
  | .vins f => wfVMov 3 f
  | .csrr _ => true
  | .csrw _ => true
  | .csrx _ => true
  | .trap _ => true
  | .svc _ => true
  | .eret => true
  | .uret => true
  | .nop => true
  | .brk => true
  | .cStashWrite _ _ => true
  | .cCprWrite _ _ => true
  | .cSwWrite _ _ => true
  | .handlerCreation _ => true
  | .taskStart _ => true
  | .workRangeStart _ => true
  | .wakeUpArrival _ => true
  | .wakeUpHeldPush _ => true
  | .trapActivationCreation _ _ => true
  | .deferredTrapEntry _ => true
  | .activationBinding _ _ => true
  | .contextEntry _ _ => true
  | .displacement _ => true
  | .aging _ _ => true
  | .budgetExpiry _ _ => true
  | .forcedSuspension _ _ => true
  | .handlerBudgetExpiry _ _ => true
  | .stealAttempt _ => true
  | .stealRoundRestart _ => true
  | .stealRequest _ => true
  | .stealReply _ => true
  | .migrationPacket _ => true
  | .migrationResend _ _ => true
  | .joinReread _ _ => true
  | .waitExpiry _ _ => true
  | .waitrsTimeout _ _ => true
  | .lateFaultDelivery _ _ => true
  | .neighbourWordArrival _ _ => true
  | .registerBankIdle _ _ _ => true
  | .lmBankWakeComplete _ _ => true
  | .groomerVisit _ _ _ => true
  | .vectorInstructionStart _ => true
  | .vectorRetirement _ => true
  | .vectorLateFault _ => true
  | .icacheFill _ _ => true
  | .readRequest _ => true
  | .writeRequest _ _ => true
  | .checkRequest _ => true
  | .atomicRequest _ => true
  | .reply _ => true
  | .retryReply _ => true
  | .retryResend _ => true
  | .replySlotTimeout _ _ => true
  | .pageTableWalk _ _ => true
  | .stashRecall _ _ _ => true
  | .stashWriteBack _ _ => true
  | .reservationRecallDeferral _ _ => true
  | .pendingByteDecrement _ _ => true
  | .barwRegistrationRetry _ _ => true
  | .collectiveCombine _ => true
  | .barrierCompletionMulticast _ _ => true
  | .tlbiCompletion _ => true
  | .matrixCommandStart _ _ => true
  | .matrixStepGrant _ => true
  | .matrixStepEffect _ => true
  | .latchSwap _ _ => true
  | .mxrotRendezvous _ _ => true
  | .latchRotationSwap _ => true
  | .gangFormation _ _ => true
  | .mxzeroCompletion _ _ => true
  | .drainCompletion _ _ => true
  | .matrixLateFault _ _ => true
  | .copyCommandStart _ _ => true
  | .cpyxPinning _ _ => true
  | .copyPiece _ _ => true
  | .copyStall _ _ => true
  | .copyLateFault _ _ => true
  | .copyCommandCompletion _ _ => true
  | .dtldTableChange _ _ => true
  | .packetInjection _ => true
  | .routerForward _ => true
  | .activeMessage _ => true
  | .multicastCopy _ => true
  | .nack _ => true
  | .multicastResend _ => true
  | .sendxLanding _ => true
  | .streamOpen _ => true
  | .streamAttach _ _ => true
  | .streamFlitSend _ _ => true
  | .streamDataArrival _ => true
  | .streamClose _ => true
  | .streamIdleBreak _ _ => true
  | .trapReport _ => true
  | .collectorDelivery _ _ => true
  | .tamvexPacket _ _ => true
  | .doorbell _ _ => true
  | .launchStart _ => true
  | .launchPacket _ => true
  | .graphVerdict _ => true
  | .graphStart _ => true
  | .creditPartialSum _ _ => true
  | .kernelTotal _ _ => true
  | .completionEvent _ => true
  | .condDecision _ _ => true
  | .loopDecision _ _ => true
  | .hostsigStore _ _ => true
  | .graphEnd _ => true
  | .livenessEvent _ => true
  | .stopEvent _ => true
  | .hqCancel _ => true
  | .pageNoticeResume _ _ _ => true
  | .pageNoticeCancel _ _ _ => true
  | .pageNoticeArrival _ _ => true
  | .swapOut _ => true
  | .swapIn _ => true
  | .swapExchange _ _ => true
  | .quiescenceAgreement _ => true
  | .swapSaveCompletion _ => true
  | .swapRestoreCompletion _ => true
  | .pswapStRead _ => true
  | .retire _ _ => true
  | .retirementCompletion _ => true
  | .selfTestPass _ => true
  | .passExpiry _ => true
  | .balloonRelease _ => true
  | .spillMove _ => true
  | .mcExposeWrite _ => true
  | .mcSpillRead _ => true
  | .mcBtailWrite _ _ => true
  | .mcBpoolWrite _ _ => true
  | .psaveWrite _ _ => true
  | .lpctEntryWrite _ _ _ => true
  | .niTlbi _ _ => true
  | .cfgRegisterWrite _ _ _ _ => true
  | .powerOn => true
  | .clockOffer _ => true
  | .siteStateAdvance _ _ _ => true
  | .mcFirmwareBoot _ _ _ => true
  | .hostCxlMemAccess _ _ _ _ _ => true
  | .tokenLinkEnable _ _ _ _ => true
  | .tokenPartitionKey _ _ _ _ _ => true
  | .tokenReadmit _ _ _ _ _ _ => true
  | .tokenClearCoreStop _ _ _ _ _ => true
  | .tokenSetRetired _ _ _ _ => true
  | .tokenMcExpose _ _ _ _ _ => true
  | .powerClamp => true
  | .partitionCreation _ _ => true
  | .partitionReshape _ _ => true
  | .tamvexLinkTraining _ _ => true
  | .pcieLinkTraining _ _ => true
  | .powerClampRelease => true
  | .powerLoss => true
  | .selfTestStart _ => true
  | .matrixDrainSegment _ _ => true
  | .streamCredit _ => true

end Sys2Proof
end

