-- ==== Sys2Proof/Decode.lean ====
section
/-!
DEFINITION. The encodings (R97–R100, R107, R108, R125–R132). A `Code` is an instruction's head and its tail, the tail
read little-endian and extended with zeros to 64 bits. `decode` reads the fields that OP, TL and the minors select and
accepts them only when they are well-formed and encode to the very bits read, so every reserved value, every unused
field that does not hold its fixed value and every K bit that must be 0 is refused (R132): none stands for ILLOP.
-/
namespace Sys2Proof

/-- A head and its tail (R107, R108). -/
structure Code where
  head : BitVec 16
  tail : BitVec 64
  deriving DecidableEq, Repr

def Code.op (c : Code) : Nat := bits c.head 15 10
def Code.tl (c : Code) : Nat := bits c.head 9 8
def Code.x (c : Code) : Nat := bits c.head 0 0
/-- F (R108). -/
def Code.minor (c : Code) : Nat := bits c.tail 1 0
/-- MODS (R130). -/
def Code.mods (c : Code) : Nat := bits c.tail 63 57
/-- VOP (R129). -/
def Code.vop (c : Code) : Nat := bits c.tail 20 16
def Code.a (c : Code) : Opnd := BitVec.ofNat 6 (bits c.head 7 2)
def Code.ka (c : Code) : Bool := bit c.head 1
def Code.xb (c : Code) : Bool := bit c.head 0
/-- The w-bit tail field at bit lo. -/
def Code.fld (c : Code) (w lo : Nat) : BitVec w := BitVec.ofNat w (c.tail.toNat >>> lo)
def Code.flag (c : Code) (lo : Nat) : Bool := bit c.tail lo
def Code.b (c : Code) : Opnd := c.fld 6 10
def Code.c (c : Code) : Opnd := c.fld 6 4
def Code.kb (c : Code) : Bool := c.flag 3
def Code.kc (c : Code) : Bool := c.flag 2

/-- Bytes of a tail-length code (R98). -/
def tailBytes (tl : Nat) : Nat :=
  match tl with
  | 0 => 0
  | 1 => 2
  | 2 => 4
  | _ => 8

/-- A head from its fields (R107). -/
def mkHead (op tl : Nat) (a : Opnd) (ka x : Bool) : BitVec 16 :=
  BitVec.ofNat 16 (op * 1024 + tl * 256 + a.toNat * 4 + ka.toNat * 2 + x.toNat)

/-- A T2 tail from its fields (R108). -/
def t2 (b c : Opnd) (kb kc : Bool) (f : Nat) : Nat :=
  b.toNat * 1024 + c.toNat * 16 + kb.toNat * 8 + kc.toNat * 4 + f

def mkCode (op tl : Nat) (a : Opnd) (ka x : Bool) (tail : Nat) : Code :=
  ⟨mkHead op tl a ka x, BitVec.ofNat 64 tail⟩

/-- A T2 form. -/
def mkT2 (op : Nat) (a : Opnd) (ka x : Bool) (b c : Opnd) (kb kc : Bool) (f : Nat) : Code :=
  mkCode op 1 a ka x (t2 b c kb kc f)
/-- A T4 form with IMM16. -/
def mkT4 (op : Nat) (a : Opnd) (ka x : Bool) (b c : Opnd) (kb kc : Bool) (f imm : Nat) : Code :=
  mkCode op 2 a ka x (imm * 65536 + t2 b c kb kc f)
/-- A long T8 form with IMM48. -/
def mkT8 (op : Nat) (a : Opnd) (ka x : Bool) (b c : Opnd) (kb kc : Bool) (f imm : Nat) : Code :=
  mkCode op 3 a ka x (imm * 65536 + t2 b c kb kc f)

/-- F and X of a condition (R403, R473). -/
def Cond.f : Cond → Nat
  | .eq => 0
  | .ne => 1
  | .lt | .ltu => 2
  | .ge | .geu => 3
def Cond.x : Cond → Bool
  | .ltu | .geu => true
  | _ => false
def Code.cond (c : Code) : Cond :=
  match c.minor, c.xb with
  | 0, _ => .eq
  | 1, _ => .ne
  | 2, false => .lt
  | 2, true => .ltu
  | _, false => .ge
  | _, true => .geu

/-- WSEM, WTHR, SSEM and SINC (R108). -/
def Code.sig (c : Code) : EngSig := ⟨c.fld 8 0, c.fld 12 8, c.fld 8 20, c.fld 8 28⟩
/-- The engine-command tail (R108, R130). -/
def mkEng (op : Nat) (a : Opnd) (x : Bool) (s : EngSig) (p : Opnd) (kp : Bool) (q : Opnd) (kq : Bool) (h : Opnd) (kh : Bool)
    (mods : Nat) : Code :=
  mkCode op 3 a false x (s.wsem.toNat + s.wthr.toNat * 2 ^ 8 + s.ssem.toNat * 2 ^ 20 + s.sinc.toNat * 2 ^ 28
    + p.toNat * 2 ^ 36 + kp.toNat * 2 ^ 42 + q.toNat * 2 ^ 43 + kq.toNat * 2 ^ 49 + h.toNat * 2 ^ 50 + kh.toNat * 2 ^ 56
    + mods * 2 ^ 57)

def encNone (op x : Nat) : Code := mkCode op 0 opZ false (x == 1) 0

def encAlu3 (op f : Nat) (s : Alu3) : Code := mkT2 op s.a false s.half s.b s.c s.kb s.kc f
def getAlu3 (c : Code) : Alu3 := ⟨c.a, c.b, c.c, c.kb, c.kc, c.xb⟩
def encAluI16 (op f : Nat) (s : AluI16) : Code := mkT4 op s.a false s.half s.b opZ s.kb false f s.imm.toNat
def getAluI16 (c : Code) : AluI16 := ⟨c.a, c.b, c.kb, c.xb, c.fld 16 16⟩
def encAluI48 (op f : Nat) (s : AluI48) : Code := mkT8 op s.a false s.half s.b opZ s.kb false f s.imm.toNat
def getAluI48 (c : Code) : AluI48 := ⟨c.a, c.b, c.kb, c.xb, c.fld 48 16⟩
def encShiftI (op f : Nat) (s : ShiftI) : Code := mkT4 op s.a false s.half s.b opZ s.kb false f s.n.toNat
def getShiftI (c : Code) : ShiftI := ⟨c.a, c.b, c.kb, c.xb, c.fld 6 16⟩
def encUn (op f : Nat) (s : Un) : Code := mkT2 op s.a false false s.b opZ s.kb false f
def getUn (c : Code) : Un := ⟨c.a, c.b, c.kb⟩
def encSrc1 (op f : Nat) (s : Src1) : Code := mkT2 op opZ false false s.b opZ s.kb false f
def getSrc1 (c : Code) : Src1 := ⟨c.b, c.kb⟩
def encBin (op f : Nat) (s : Bin) : Code := mkT2 op s.a false false s.b s.c s.kb s.kc f
def getBin (c : Code) : Bin := ⟨c.a, c.b, c.c, c.kb, c.kc⟩
def encRangeOp (op f : Nat) (s : RangeOp) : Code := mkT2 op opZ false false s.b s.c s.kb s.kc f
def getRangeOp (c : Code) : RangeOp := ⟨c.b, c.c, c.kb, c.kc⟩
def encSet3 (op : Nat) (s : Set3) : Code := mkT2 op s.a false s.cond.x s.b s.c s.kb s.kc s.cond.f
def getSet3 (c : Code) : Set3 := ⟨c.a, c.b, c.c, c.kb, c.kc, c.cond⟩
def encSetI16 (op : Nat) (s : SetI16) : Code := mkT4 op s.a false s.cond.x s.b opZ s.kb false s.cond.f s.imm.toNat
def getSetI16 (c : Code) : SetI16 := ⟨c.a, c.b, c.kb, c.cond, c.fld 16 16⟩
def encSetI48 (op : Nat) (s : SetI48) : Code := mkT8 op s.a false s.cond.x s.b opZ s.kb false s.cond.f s.imm.toNat
def getSetI48 (c : Code) : SetI48 := ⟨c.a, c.b, c.kb, c.cond, c.fld 48 16⟩
/-- IMM16 [5:0] D, [6] KD (R409). -/
def encCsel (op : Nat) (s : Csel) : Code :=
  mkT4 op s.a false false s.b s.c s.kb s.kc s.onZero.toNat (s.d.toNat + s.kd.toNat * 64)
def getCsel (c : Code) : Csel := ⟨c.a, c.b, c.c, c.fld 6 16, c.kb, c.kc, c.flag 22, bit c.tail 0⟩
def encExtr (op f : Nat) (s : Extr) : Code :=
  mkT4 op s.a false false s.b opZ s.kb false f (s.pos.toNat + s.wid.toNat * 64)
def getExtr (c : Code) : Extr := ⟨c.a, c.b, c.kb, c.fld 6 16, c.fld 6 22⟩
def encInsr (op : Nat) (s : Insr) : Code :=
  mkT4 op s.a false false s.b s.c s.kb s.kc 2 (s.pos.toNat + s.wid.toNat * 64)
def getInsr (c : Code) : Insr := ⟨c.a, c.b, c.c, c.kb, c.kc, c.fld 6 16, c.fld 6 22⟩
def encLdi16 (op f : Nat) (s : Ldi16) : Code := mkT4 op s.a false s.half opZ opZ false false f s.imm.toNat
def getLdi16 (c : Code) : Ldi16 := ⟨c.a, c.xb, c.fld 16 16⟩
def encLdi48 (op f : Nat) (s : Ldi48) : Code := mkT8 op s.a false s.half opZ opZ false false f s.imm.toNat
def getLdi48 (c : Code) : Ldi48 := ⟨c.a, c.xb, c.fld 48 16⟩
/-- SLOT and LDISP (R112). -/
def encRel16 (op x : Nat) (s : Rel16) : Code :=
  mkT4 op s.a false (x == 1) opZ opZ false false 0 (s.slot.toNat + s.ldisp.toNat * 32)
def getRel16 (c : Code) : Rel16 := ⟨c.a, c.fld 5 16, c.fld 11 21⟩
def encRel48 (op x : Nat) (s : Rel48) : Code :=
  mkT8 op s.a false (x == 1) opZ opZ false false 0 (s.slot.toNat + s.ldisp.toNat * 32)
def getRel48 (c : Code) : Rel48 := ⟨c.a, c.fld 5 16, c.fld 43 21⟩
def encBr16 (op x : Nat) (s : Br16) : Code :=
  mkT4 op opZ false (x == 1) opZ opZ false false 0 (s.slot.toNat + s.ldisp.toNat * 32)
def getBr16 (c : Code) : Br16 := ⟨c.fld 5 16, c.fld 11 21⟩
def encBr48 (op x : Nat) (s : Br48) : Code :=
  mkT8 op opZ false (x == 1) opZ opZ false false 0 (s.slot.toNat + s.ldisp.toNat * 32)
def getBr48 (c : Code) : Br48 := ⟨c.fld 5 16, c.fld 43 21⟩
def encBc16 (op : Nat) (s : Bc16) : Code :=
  mkT4 op opZ false s.cond.x s.b s.c s.kb s.kc s.cond.f (s.slot.toNat + s.ldisp.toNat * 32)
def getBc16 (c : Code) : Bc16 := ⟨c.b, c.c, c.kb, c.kc, c.cond, c.fld 5 16, c.fld 11 21⟩
def encBc48 (op : Nat) (s : Bc48) : Code :=
  mkT8 op opZ false s.cond.x s.b s.c s.kb s.kc s.cond.f (s.slot.toNat + s.ldisp.toNat * 32)
def getBc48 (c : Code) : Bc48 := ⟨c.b, c.c, c.kb, c.kc, c.cond, c.fld 5 16, c.fld 43 21⟩
def encSkipF (op : Nat) (s : SkipF) : Code := mkT4 op opZ false s.cond.x s.b s.c s.kb s.kc s.cond.f s.n.toNat
def getSkipF (c : Code) : SkipF := ⟨c.b, c.c, c.kb, c.kc, c.cond, c.fld 2 16⟩
def encLdX (op : Nat) (s : LdX) : Code := mkT2 op s.a false s.sx s.b s.c s.kb s.kc s.size.toNat
def getLdX (c : Code) : LdX := ⟨c.a, c.b, c.c, c.kb, c.kc, c.fld 2 0, c.xb⟩
def encLdD (op : Nat) (s : LdD) : Code := mkT4 op s.a false s.sx s.b opZ s.kb false s.size.toNat s.disp.toNat
def getLdD (c : Code) : LdD := ⟨c.a, c.b, c.kb, c.fld 2 0, c.xb, c.fld 16 16⟩
def encStX (op : Nat) (s : StX) : Code := mkT2 op s.a s.ka false s.b s.c s.kb s.kc s.size.toNat
def getStX (c : Code) : StX := ⟨c.a, c.ka, c.b, c.c, c.kb, c.kc, c.fld 2 0⟩
def encStD (op : Nat) (s : StD) : Code := mkT4 op s.a s.ka false s.b opZ s.kb false s.size.toNat s.disp.toNat
def getStD (c : Code) : StD := ⟨c.a, c.ka, c.b, c.kb, c.fld 2 0, c.fld 16 16⟩
def encLdrsX (op : Nat) (s : LdrsX) : Code := mkT2 op s.a false false s.b s.c s.kb s.kc s.dw.toNat
def getLdrsX (c : Code) : LdrsX := ⟨c.a, c.b, c.c, c.kb, c.kc, bit c.tail 0⟩
def encLdrsD (op : Nat) (s : LdrsD) : Code := mkT4 op s.a false false s.b opZ s.kb false s.dw.toNat s.disp.toNat
def getLdrsD (c : Code) : LdrsD := ⟨c.a, c.b, c.kb, bit c.tail 0, c.fld 16 16⟩
def encStcF (op : Nat) (s : StcF) : Code := mkT2 op s.a false false s.b s.c s.kb s.kc (2 + s.dw.toNat)
def getStcF (c : Code) : StcF := ⟨c.a, c.b, c.c, c.kb, c.kc, bit c.tail 0⟩
def encBankMask (op f : Nat) (s : BankMask) : Code := mkT4 op opZ false false opZ opZ false false f s.mask.toNat
def getBankMask (c : Code) : BankMask := ⟨c.fld 16 16⟩
def encFenceF (op : Nat) (s : FenceF) : Code := mkT4 op opZ false false opZ opZ false false s.order.toNat s.scope.toNat
def getFenceF (c : Code) : FenceF := ⟨c.fld 2 0, c.fld 4 16⟩
/-- The IMM16 layout of R127. -/
def encAtomF (op : Nat) (s : AtomF) : Code :=
  mkT4 op s.a false false s.b s.c s.kb s.kc (2 + s.dw.toNat)
    (s.opc.toNat + s.o.toNat * 16 + s.scope.toNat * 32 + s.kd.toNat * 512 + s.d.toNat * 1024)
def getAtomF (c : Code) : AtomF :=
  ⟨c.a, c.b, c.c, c.fld 6 26, c.kb, c.kc, c.flag 25, bit c.tail 0, c.fld 4 16, c.flag 20, c.fld 4 21⟩
def encRedF (op : Nat) (s : RedF) : Code :=
  mkT4 op s.a s.ka false s.b opZ s.kb false (2 + s.dw.toNat)
    (s.opc.toNat + s.o.toNat * 16 + s.scope.toNat * 32 + opZ.toNat * 1024)
def getRedF (c : Code) : RedF := ⟨c.a, c.ka, c.b, c.kb, bit c.tail 0, c.fld 4 16, c.flag 20, c.fld 4 21⟩
def encRedxF (op : Nat) (s : RedxF) : Code :=
  mkT4 op s.a s.ka false s.b opZ s.kb false s.fmt.toNat s.scope.toNat
def getRedxF (c : Code) : RedxF := ⟨c.a, c.ka, c.b, c.kb, c.fld 2 0, c.fld 4 16⟩
def encXreadF (op : Nat) (s : XreadF) : Code :=
  mkT4 op s.a false false s.b opZ s.kb false 3 (s.rm.toNat + s.ty.toNat * 8 + s.scope.toNat * 128)
def getXreadF (c : Code) : XreadF := ⟨c.a, c.b, c.kb, c.fld 3 16, c.fld 4 19, c.fld 4 23⟩
def encBarF (op f : Nat) (s : BarF) : Code := mkT4 op s.a false false s.b s.c s.kb s.kc f s.scope.toNat
def getBarF (c : Code) : BarF := ⟨c.a, c.b, c.c, c.kb, c.kc, c.fld 4 16⟩
def encBarvF (op : Nat) (s : BarvF) : Code := mkT4 op s.a false true s.b opZ s.kb false 0 s.scope.toNat
def getBarvF (c : Code) : BarvF := ⟨c.a, c.b, c.kb, c.fld 4 16⟩
def encSemF (op f : Nat) (s : SemF) : Code := mkT4 op opZ false false opZ s.c false s.kc f s.n.toNat
def getSemF (c : Code) : SemF := ⟨c.c, c.kc, c.fld 8 16⟩
def encJobF (op f : Nat) (s : JobF) : Code := mkT2 op s.a false s.cp s.b opZ s.kb false f
def getJobF (c : Code) : JobF := ⟨c.a, c.b, c.kb, c.xb⟩
def encSpawnF (op : Nat) (s : SpawnF) : Code := mkT4 op s.a false false s.b s.c s.kb s.kc 0 s.dom.toNat
def getSpawnF (c : Code) : SpawnF := ⟨c.a, c.b, c.c, c.kb, c.kc, c.fld 3 16⟩
def encSendF (op f : Nat) (s : SendF) : Code :=
  mkT4 op opZ false false s.b s.c s.kb s.kc f (s.len.toNat + s.ord.toNat * 512)
def getSendF (c : Code) : SendF := ⟨c.b, c.c, c.kb, c.kc, c.fld 9 16, c.flag 25⟩
def encSendxF (op : Nat) (s : SendxF) : Code :=
  mkT8 op opZ false true s.b s.c s.kb s.kc 0
    (s.len.toNat + s.ord.toNat * 512 + s.xf.toNat * 1024 + s.par.toNat * 8192)
def getSendxF (c : Code) : SendxF := ⟨c.b, c.c, c.kb, c.kc, c.fld 9 16, c.flag 25, c.fld 3 26, c.fld 23 29⟩
def encScloseF (op : Nat) (s : ScloseF) : Code := mkT2 op s.a false false opZ s.c false s.kc 1
def getScloseF (c : Code) : ScloseF := ⟨c.a, c.c, c.kc⟩
def encSbindF (op : Nat) (s : SbindF) : Code := mkT4 op s.a false false s.b s.c s.kb s.kc 2 s.n.toNat
def getSbindF (c : Code) : SbindF := ⟨c.a, c.b, c.c, c.kb, c.kc, c.fld 2 16⟩
def encDest (op f : Nat) (s : Dest) : Code := mkT2 op s.a false false opZ opZ false false f
def getDest (c : Code) : Dest := ⟨c.a⟩
def encMxPQ (op : Nat) (s : MxPQ) : Code := mkEng op s.a false s.sig s.p s.kp s.q s.kq opZ false 0
def getMxPQ (c : Code) : MxPQ := ⟨c.a, c.sig, c.fld 6 36, c.flag 42, c.fld 6 43, c.flag 49⟩
def encMxDrn (op : Nat) (s : MxDrn) : Code := mkEng op s.a false s.sig s.p s.kp s.q s.kq s.h s.kh 0
def getMxDrn (c : Code) : MxDrn := ⟨c.a, c.sig, c.fld 6 36, c.flag 42, c.fld 6 43, c.flag 49, c.fld 6 50, c.flag 56⟩
def encMxN (op f : Nat) (s : MxN) : Code := mkEng op s.a false s.sig opZ false opZ false opZ false (f + s.n.toNat * 4)
def getMxN (c : Code) : MxN := ⟨c.a, c.sig, c.fld 2 59⟩
def encMxZero (op : Nat) (s : MxZero) : Code := mkEng op s.a false s.sig opZ false s.q s.kq opZ false 1
def getMxZero (c : Code) : MxZero := ⟨c.a, c.sig, c.fld 6 43, c.flag 49⟩
/-- MODS of majors 0x31–0x33 (R267). -/
def encCpF (op x : Nat) (s : CpF) : Code :=
  mkEng op s.a (x == 1) s.sig s.p s.kp s.q s.kq s.h s.kh (s.dsc.toNat + s.sq.toNat * 2)
def getCpF (c : Code) : CpF :=
  ⟨c.a, c.sig, c.fld 6 36, c.flag 42, c.fld 6 43, c.flag 49, c.fld 6 50, c.flag 56, c.flag 57, c.fld 2 58⟩
def encDtldF (op : Nat) (s : DtldF) : Code := mkEng op s.a true s.sig opZ false s.q s.kq s.h s.kh (s.sq.toNat * 2)
def getDtldF (c : Code) : DtldF := ⟨c.a, c.sig, c.fld 6 43, c.flag 49, c.fld 6 50, c.flag 56, c.fld 2 58⟩
/-- The IMM16 layout of R128. -/
def encFp2 (op f : Nat) (s : Fp2) : Code :=
  mkT4 op s.a false false s.b s.c s.kb s.kc f (s.ty.toNat + s.rm.toNat * 16 + opZ.toNat * 256)
def getFp2 (c : Code) : Fp2 := ⟨c.a, c.b, c.c, c.kb, c.kc, c.fld 4 16, c.fld 3 20⟩
def encFp1 (op f : Nat) (s : Fp1) : Code :=
  mkT4 op s.a false false s.b opZ s.kb false f (s.ty.toNat + s.rm.toNat * 16 + opZ.toNat * 256)
def getFp1 (c : Code) : Fp1 := ⟨c.a, c.b, c.kb, c.fld 4 16, c.fld 3 20⟩
def encFp3 (op : Nat) (s : Fp3) : Code :=
  mkT4 op s.a false false s.b s.c s.kb s.kc 0 (s.ty.toNat + s.rm.toNat * 16 + s.d.toNat * 256 + s.kd.toNat * 16384)
def getFp3 (c : Code) : Fp3 := ⟨c.a, c.b, c.c, c.fld 6 24, c.kb, c.kc, c.flag 30, c.fld 4 16, c.fld 3 20⟩
def encFcmpF (op : Nat) (s : FcmpF) : Code :=
  mkT4 op s.a false false s.b s.c s.kb s.kc 0 (s.ty.toNat + s.cnd.toNat * 16)
def getFcmpF (c : Code) : FcmpF := ⟨c.a, c.b, c.c, c.kb, c.kc, c.fld 4 16, c.fld 3 20⟩
def encFcvtF (op : Nat) (s : FcvtF) : Code :=
  mkT4 op s.a false false s.b opZ s.kb false 1 (s.src.toNat + s.rm.toNat * 16 + s.sat.toNat * 128 + s.dst.toNat * 256)
def getFcvtF (c : Code) : FcvtF := ⟨c.a, c.b, c.kb, c.fld 4 16, c.fld 3 20, c.flag 23, c.fld 4 24⟩
/-- Major 0x38 (R129). -/
def encVecF (op vop : Nat) (s : VecF) : Code :=
  mkT8 op s.a false false s.b s.c s.kb s.kc s.zero.toNat
    (vop + s.ty.toNat * 2 ^ 5 + s.rm.toNat * 2 ^ 9 + s.sat.toNat * 2 ^ 12 + s.d.toNat * 2 ^ 13 + s.kd.toNat * 2 ^ 19
      + s.m.toNat * 2 ^ 20 + s.km.toNat * 2 ^ 26)
def getVecF (c : Code) : VecF :=
  ⟨c.a, c.b, c.kb, c.c, c.kc, c.fld 6 29, c.flag 35, c.fld 6 36, c.flag 42, c.fld 4 21, c.fld 3 25, c.flag 28, bit c.tail 0⟩
/-- Major 0x39 (R129). -/
def encVMemF (op f x : Nat) (s : VMemF) : Code :=
  mkT8 op s.a s.ka (x == 1) s.b s.c s.kb s.kc f
    (s.disp.toNat + s.ty.toNat * 2 ^ 32 + s.m.toNat * 2 ^ 36 + s.km.toNat * 2 ^ 42)
def getVMemF (c : Code) : VMemF :=
  ⟨c.a, c.ka, c.b, c.kb, c.c, c.kc, c.fld 32 16, c.fld 4 48, c.fld 6 52, c.flag 58⟩
/-- Major 0x3A (R129). -/
def encVMovF (op f : Nat) (s : VMovF) : Code :=
  mkT4 op s.a false false s.b s.c s.kb s.kc f (s.lane.toNat + s.ty.toNat * 64)
def getVMovF (c : Code) : VMovF := ⟨c.a, c.b, c.kb, c.c, c.kc, c.fld 6 16, c.fld 4 22⟩
def encCsrrF (op : Nat) (s : CsrrF) : Code := mkT4 op s.a false false opZ opZ false false 0 s.n.toNat
def getCsrrF (c : Code) : CsrrF := ⟨c.a, c.fld 12 16⟩
def encCsrwF (op : Nat) (s : CsrwF) : Code := mkT4 op s.a s.ka false opZ opZ false false 1 s.n.toNat
def getCsrwF (c : Code) : CsrwF := ⟨c.a, c.ka, c.fld 12 16⟩
def encCsrxF (op : Nat) (s : CsrxF) : Code := mkT4 op s.a false false s.b opZ s.kb false 2 s.n.toNat
def getCsrxF (c : Code) : CsrxF := ⟨c.a, c.b, c.kb, c.fld 12 16⟩
def encCodeF (op f : Nat) (s : CodeF) : Code := mkT4 op opZ false false opZ opZ false false f s.code.toNat
def getCodeF (c : Code) : CodeF := ⟨c.fld 16 16⟩

/-- The encoding of an instruction (R131), one row of the opcode table a line; an event has none. DEDUCED (log 133). -/
def encode (i : Instr) : Option Code :=
  match i with
  | .addReg f => some (encAlu3 4 0 f)
  | .addShortImm f => some (encAluI16 4 0 f)
  | .addLongImm f => some (encAluI48 4 0 f)
  | .subReg f => some (encAlu3 4 1 f)
  | .subShortImm f => some (encAluI16 4 1 f)
  | .subLongImm f => some (encAluI48 4 1 f)
  | .mulReg f => some (encAlu3 1 0 f)
  | .mulShortImm f => some (encAluI16 1 0 f)
  | .mulLongImm f => some (encAluI48 1 0 f)
  | .mulhReg f => some (encAlu3 1 1 f)
  | .mulhShortImm f => some (encAluI16 1 1 f)
  | .mulhLongImm f => some (encAluI48 1 1 f)
  | .mulhUReg f => some (encAlu3 1 2 f)
  | .mulhUShortImm f => some (encAluI16 1 2 f)
  | .mulhULongImm f => some (encAluI48 1 2 f)
  | .divReg f => some (encAlu3 2 0 f)
  | .divShortImm f => some (encAluI16 2 0 f)
  | .divLongImm f => some (encAluI48 2 0 f)
  | .divUReg f => some (encAlu3 2 1 f)
  | .divUShortImm f => some (encAluI16 2 1 f)
  | .divULongImm f => some (encAluI48 2 1 f)
  | .remReg f => some (encAlu3 2 2 f)
  | .remShortImm f => some (encAluI16 2 2 f)
  | .remLongImm f => some (encAluI48 2 2 f)
  | .remUReg f => some (encAlu3 2 3 f)
  | .remUShortImm f => some (encAluI16 2 3 f)
  | .remULongImm f => some (encAluI48 2 3 f)
  | .andReg f => some (encAlu3 3 0 f)
  | .andShortImm f => some (encAluI16 3 0 f)
  | .andLongImm f => some (encAluI48 3 0 f)
  | .andnReg f => some (encAlu3 3 1 f)
  | .andnShortImm f => some (encAluI16 3 1 f)
  | .andnLongImm f => some (encAluI48 3 1 f)
  | .orReg f => some (encAlu3 3 2 f)
  | .orShortImm f => some (encAluI16 3 2 f)
  | .orLongImm f => some (encAluI48 3 2 f)
  | .xorReg f => some (encAlu3 3 3 f)
  | .xorShortImm f => some (encAluI16 3 3 f)
  | .xorLongImm f => some (encAluI48 3 3 f)
  | .shlReg f => some (encAlu3 5 0 f)
  | .shlImm f => some (encShiftI 5 0 f)
  | .shrReg f => some (encAlu3 5 1 f)
  | .shrImm f => some (encShiftI 5 1 f)
  | .sarReg f => some (encAlu3 5 2 f)
  | .sarImm f => some (encShiftI 5 2 f)
  | .rotReg f => some (encAlu3 5 3 f)
  | .rotImm f => some (encShiftI 5 3 f)
  | .minReg f => some (encAlu3 6 0 f)
  | .minShortImm f => some (encAluI16 6 0 f)
  | .minLongImm f => some (encAluI48 6 0 f)
  | .maxReg f => some (encAlu3 6 1 f)
  | .maxShortImm f => some (encAluI16 6 1 f)
  | .maxLongImm f => some (encAluI48 6 1 f)
  | .minUReg f => some (encAlu3 6 2 f)
  | .minUShortImm f => some (encAluI16 6 2 f)
  | .minULongImm f => some (encAluI48 6 2 f)
  | .maxUReg f => some (encAlu3 6 3 f)
  | .maxUShortImm f => some (encAluI16 6 3 f)
  | .maxULongImm f => some (encAluI48 6 3 f)
  | .clz f => some (encUn 7 0 f)
  | .ctz f => some (encUn 7 1 f)
  | .popc f => some (encUn 7 2 f)
  | .bswp f => some (encUn 7 3 f)
  | .setReg f => some (encSet3 8 f)
  | .setShortImm f => some (encSetI16 8 f)
  | .setLongImm f => some (encSetI48 8 f)
  | .csel f => some (encCsel 9 f)
  | .extr f => some (encExtr 10 0 f)
  | .extrS f => some (encExtr 10 1 f)
  | .insr f => some (encInsr 10 f)
  | .ldiShort f => some (encLdi16 14 0 f)
  | .ldiLong f => some (encLdi48 14 0 f)
  | .ldiUShort f => some (encLdi16 14 1 f)
  | .ldiULong f => some (encLdi48 14 1 f)
  | .adpcShort f => some (encRel16 15 0 f)
  | .adpcLong f => some (encRel48 15 0 f)
  | .ldIndex f => some (encLdX 16 f)
  | .ldDisp f => some (encLdD 16 f)
  | .stIndex f => some (encStX 17 f)
  | .stDisp f => some (encStD 17 f)
  | .ldrsIndex f => some (encLdrsX 18 f)
  | .ldrsDisp f => some (encLdrsD 18 f)
  | .stc f => some (encStcF 18 f)
  | .pref f => some (encRangeOp 19 0 f)
  | .smap f => some (encRangeOp 19 1 f)
  | .sflush f => some (encRangeOp 19 2 f)
  | .sinv f => some (encRangeOp 19 3 f)
  | .dropRet f => some (encBankMask 20 0 f)
  | .dropOff f => some (encBankMask 20 1 f)
  | .wake f => some (encBankMask 20 2 f)
  | .fence f => some (encFenceF 21 f)
  | .icinv f => some (encRangeOp 22 0 f)
  | .fbar => some (encNone 22 1)
  | .atom f => some (encAtomF 24 f)
  | .red f => some (encRedF 25 f)
  | .redx f => some (encRedxF 26 f)
  | .xread f => some (encXreadF 26 f)
  | .waitrs f => some (encUn 27 0 f)
  | .bari f => some (encBarF 28 0 f)
  | .bara f => some (encBarF 28 1 f)
  | .bart f => some (encBarF 28 2 f)
  | .barw f => some (encBarF 28 3 f)
  | .barv f => some (encBarvF 28 f)
  | .semw f => some (encSemF 29 0 f)
  | .sems f => some (encSemF 29 1 f)
  | .semset f => some (encSemF 29 2 f)
  | .jwait f => some (encJobF 30 0 f)
  | .jpoll f => some (encJobF 30 1 f)
  | .wait f => some (encUn 30 2 f)
  | .bShort f => some (encBr16 32 0 f)
  | .bLong f => some (encBr48 32 0 f)
  | .callShort f => some (encRel16 32 1 f)
  | .callLong f => some (encRel48 32 1 f)
  | .bcShort f => some (encBc16 33 f)
  | .bcLong f => some (encBc48 33 f)
  | .jmp f => some (encSrc1 34 0 f)
  | .callr f => some (encUn 34 1 f)
  | .ret f => some (encSrc1 34 2 f)
  | .skip f => some (encSkipF 35 f)
  | .endAct => some (encNone 36 0)
  | .yield => some (encNone 36 1)
  | .spawn f => some (encSpawnF 37 f)
  | .join f => some (encUn 38 0 f)
  | .migr f => some (encSrc1 39 0 f)
  | .send f => some (encSendF 40 0 f)
  | .sendx f => some (encSendxF 40 f)
  | .mcast f => some (encSendF 41 0 f)
  | .sopen f => some (encBin 42 0 f)
  | .sclose f => some (encScloseF 42 f)
  | .sbind f => some (encSbindF 42 f)
  | .hself f => some (encDest 43 0 f)
  | .hqry f => some (encBin 43 1 f)
  | .mxld f => some (encMxPQ 44 f)
  | .mxmma f => some (encMxPQ 45 f)
  | .mxdrn f => some (encMxDrn 46 f)
  | .mxrot f => some (encMxN 47 0 f)
  | .mxzero f => some (encMxZero 47 f)
  | .mxgang f => some (encMxN 47 2 f)
  | .mxstat f => some (encDest 48 0 f)
  | .mxstatClr f => some (encDest 48 1 f)
  | .cpy f => some (encCpF 49 0 f)
  | .cp2d f => some (encCpF 49 1 f)
  | .gath f => some (encCpF 50 0 f)
  | .scat f => some (encCpF 50 1 f)
  | .cpyx f => some (encCpF 51 0 f)
  | .dtld f => some (encDtldF 51 f)
  | .fadd f => some (encFp2 52 0 f)
  | .fsub f => some (encFp2 52 1 f)
  | .fmul f => some (encFp2 52 2 f)
  | .fdiv f => some (encFp2 52 3 f)
  | .fsqrt f => some (encFp1 53 0 f)
  | .fmin f => some (encFp2 53 1 f)
  | .fmax f => some (encFp2 53 2 f)
  | .fcls f => some (encFp1 53 3 f)
  | .fma f => some (encFp3 54 f)
  | .fcmp f => some (encFcmpF 55 f)
  | .fcvt f => some (encFcvtF 55 f)
  | .vadd f => some (encVecF 56 0 f)
  | .vsub f => some (encVecF 56 1 f)
  | .vmul f => some (encVecF 56 2 f)
  | .vfma f => some (encVecF 56 3 f)
  | .vmin f => some (encVecF 56 4 f)
  | .vmax f => some (encVecF 56 5 f)
  | .vabs f => some (encVecF 56 6 f)
  | .vneg f => some (encVecF 56 7 f)
  | .vand f => some (encVecF 56 8 f)
  | .vor f => some (encVecF 56 9 f)
  | .vxor f => some (encVecF 56 10 f)
  | .vshl f => some (encVecF 56 11 f)
  | .vshr f => some (encVecF 56 12 f)
  | .vsar f => some (encVecF 56 13 f)
  | .vcmp f => some (encVecF 56 14 f)
  | .vsel f => some (encVecF 56 15 f)
  | .vcvt f => some (encVecF 56 16 f)
  | .vdot f => some (encVecF 56 17 f)
  | .vred f => some (encVecF 56 18 f)
  | .vperm f => some (encVecF 56 19 f)
  | .vld f => some (encVMemF 57 0 0 f)
  | .vst f => some (encVMemF 57 1 0 f)
  | .vlds f => some (encVMemF 57 2 0 f)
  | .vsts f => some (encVMemF 57 3 0 f)
  | .vgath f => some (encVMemF 57 0 1 f)
  | .vmov f => some (encVMovF 58 0 f)
  | .vbc f => some (encVMovF 58 1 f)
  | .vext f => some (encVMovF 58 2 f)
  | .vins f => some (encVMovF 58 3 f)
  | .csrr f => some (encCsrrF 60 f)
  | .csrw f => some (encCsrwF 60 f)
  | .csrx f => some (encCsrxF 60 f)
  | .trap f => some (encCodeF 61 0 f)
  | .svc f => some (encCodeF 61 1 f)
  | .eret => some (encNone 62 0)
  | .uret => some (encNone 62 1)
  | .nop => some (encNone 63 0)
  | .brk => some (encNone 63 1)
  | .cStashWrite _ _ => none
  | .cCprWrite _ _ => none
  | .cSwWrite _ _ => none
  | .handlerCreation _ => none
  | .taskStart _ => none
  | .workRangeStart _ => none
  | .wakeUpArrival _ => none
  | .wakeUpHeldPush _ => none
  | .trapActivationCreation _ _ => none
  | .deferredTrapEntry _ => none
  | .activationBinding _ _ => none
  | .contextEntry _ _ => none
  | .displacement _ => none
  | .aging _ _ => none
  | .budgetExpiry _ _ => none
  | .forcedSuspension _ _ => none
  | .handlerBudgetExpiry _ _ => none
  | .stealAttempt _ => none
  | .stealRoundRestart _ => none
  | .stealRequest _ => none
  | .stealReply _ => none
  | .migrationPacket _ => none
  | .migrationResend _ _ => none
  | .joinReread _ _ => none
  | .waitExpiry _ _ => none
  | .waitrsTimeout _ _ => none
  | .lateFaultDelivery _ _ => none
  | .neighbourWordArrival _ _ => none
  | .registerBankIdle _ _ _ => none
  | .lmBankWakeComplete _ _ => none
  | .groomerVisit _ _ _ => none
  | .vectorInstructionStart _ => none
  | .vectorRetirement _ => none
  | .vectorLateFault _ => none
  | .icacheFill _ _ => none
  | .readRequest _ => none
  | .writeRequest _ _ => none
  | .checkRequest _ => none
  | .atomicRequest _ => none
  | .reply _ => none
  | .retryReply _ => none
  | .retryResend _ => none
  | .replySlotTimeout _ _ => none
  | .pageTableWalk _ _ => none
  | .stashRecall _ _ _ => none
  | .stashWriteBack _ _ => none
  | .reservationRecallDeferral _ _ => none
  | .pendingByteDecrement _ _ => none
  | .barwRegistrationRetry _ _ => none
  | .collectiveCombine _ => none
  | .barrierCompletionMulticast _ _ => none
  | .tlbiCompletion _ => none
  | .matrixCommandStart _ _ => none
  | .matrixStepGrant _ => none
  | .matrixStepEffect _ => none
  | .latchSwap _ _ => none
  | .mxrotRendezvous _ _ => none
  | .latchRotationSwap _ => none
  | .gangFormation _ _ => none
  | .mxzeroCompletion _ _ => none
  | .drainCompletion _ _ => none
  | .matrixLateFault _ _ => none
  | .copyCommandStart _ _ => none
  | .cpyxPinning _ _ => none
  | .copyPiece _ _ => none
  | .copyStall _ _ => none
  | .copyLateFault _ _ => none
  | .copyCommandCompletion _ _ => none
  | .dtldTableChange _ _ => none
  | .packetInjection _ => none
  | .routerForward _ => none
  | .activeMessage _ => none
  | .multicastCopy _ => none
  | .nack _ => none
  | .multicastResend _ => none
  | .sendxLanding _ => none
  | .streamOpen _ => none
  | .streamAttach _ _ => none
  | .streamFlitSend _ _ => none
  | .streamDataArrival _ => none
  | .streamClose _ => none
  | .streamIdleBreak _ _ => none
  | .trapReport _ => none
  | .collectorDelivery _ _ => none
  | .tamvexPacket _ _ => none
  | .doorbell _ _ => none
  | .launchStart _ => none
  | .launchPacket _ => none
  | .graphVerdict _ => none
  | .graphStart _ => none
  | .creditPartialSum _ _ => none
  | .kernelTotal _ _ => none
  | .completionEvent _ => none
  | .condDecision _ _ => none
  | .loopDecision _ _ => none
  | .hostsigStore _ _ => none
  | .graphEnd _ => none
  | .livenessEvent _ => none
  | .stopEvent _ => none
  | .hqCancel _ => none
  | .pageNoticeResume _ _ _ => none
  | .pageNoticeCancel _ _ _ => none
  | .pageNoticeArrival _ _ => none
  | .swapOut _ => none
  | .swapIn _ => none
  | .swapExchange _ _ => none
  | .quiescenceAgreement _ => none
  | .swapSaveCompletion _ => none
  | .swapRestoreCompletion _ => none
  | .pswapStRead _ => none
  | .retire _ _ => none
  | .retirementCompletion _ => none
  | .selfTestPass _ => none
  | .passExpiry _ => none
  | .balloonRelease _ => none
  | .spillMove _ => none
  | .mcExposeWrite _ => none
  | .mcSpillRead _ => none
  | .mcBtailWrite _ _ => none
  | .mcBpoolWrite _ _ => none
  | .psaveWrite _ _ => none
  | .lpctEntryWrite _ _ _ => none
  | .niTlbi _ _ => none
  | .cfgRegisterWrite _ _ _ _ => none
  | .powerOn => none
  | .clockOffer _ => none
  | .siteStateAdvance _ _ _ => none
  | .mcFirmwareBoot _ _ _ => none
  | .hostCxlMemAccess _ _ _ _ _ => none
  | .tokenLinkEnable _ _ _ _ => none
  | .tokenPartitionKey _ _ _ _ _ => none
  | .tokenReadmit _ _ _ _ _ _ => none
  | .tokenClearCoreStop _ _ _ _ _ => none
  | .tokenSetRetired _ _ _ _ => none
  | .tokenMcExpose _ _ _ _ _ => none
  | .powerClamp => none
  | .partitionCreation _ _ => none
  | .partitionReshape _ _ => none
  | .tamvexLinkTraining _ _ => none
  | .pcieLinkTraining _ _ => none
  | .powerClampRelease => none
  | .powerLoss => none
  | .selfTestStart _ => none
  | .matrixDrainSegment _ _ => none
  | .streamCredit _ => none

/-- The one row that OP, TL and the minor fields of a head and tail can name, with its fields read (R131). Reserved values
and unused fields are refused afterwards, by `decode`. -/
def candidate (c : Code) : Option Instr :=
  let op := c.op; let tl := c.tl; let f := c.minor; let x := c.x
  if op = 1 then
    if tl = 1 then if f = 0 then some (.mulReg (getAlu3 c)) else if f = 1 then some (.mulhReg (getAlu3 c)) else if f = 2 then some (.mulhUReg (getAlu3 c)) else none
    else if tl = 2 then if f = 0 then some (.mulShortImm (getAluI16 c)) else if f = 1 then some (.mulhShortImm (getAluI16 c)) else if f = 2 then some (.mulhUShortImm (getAluI16 c)) else none
    else if tl = 3 then if f = 0 then some (.mulLongImm (getAluI48 c)) else if f = 1 then some (.mulhLongImm (getAluI48 c)) else if f = 2 then some (.mulhULongImm (getAluI48 c)) else none
    else none
  else if op = 2 then
    if tl = 1 then if f = 0 then some (.divReg (getAlu3 c)) else if f = 1 then some (.divUReg (getAlu3 c)) else if f = 2 then some (.remReg (getAlu3 c)) else if f = 3 then some (.remUReg (getAlu3 c)) else none
    else if tl = 2 then if f = 0 then some (.divShortImm (getAluI16 c)) else if f = 1 then some (.divUShortImm (getAluI16 c)) else if f = 2 then some (.remShortImm (getAluI16 c)) else if f = 3 then some (.remUShortImm (getAluI16 c)) else none
    else if tl = 3 then if f = 0 then some (.divLongImm (getAluI48 c)) else if f = 1 then some (.divULongImm (getAluI48 c)) else if f = 2 then some (.remLongImm (getAluI48 c)) else if f = 3 then some (.remULongImm (getAluI48 c)) else none
    else none
  else if op = 3 then
    if tl = 1 then if f = 0 then some (.andReg (getAlu3 c)) else if f = 1 then some (.andnReg (getAlu3 c)) else if f = 2 then some (.orReg (getAlu3 c)) else if f = 3 then some (.xorReg (getAlu3 c)) else none
    else if tl = 2 then if f = 0 then some (.andShortImm (getAluI16 c)) else if f = 1 then some (.andnShortImm (getAluI16 c)) else if f = 2 then some (.orShortImm (getAluI16 c)) else if f = 3 then some (.xorShortImm (getAluI16 c)) else none
    else if tl = 3 then if f = 0 then some (.andLongImm (getAluI48 c)) else if f = 1 then some (.andnLongImm (getAluI48 c)) else if f = 2 then some (.orLongImm (getAluI48 c)) else if f = 3 then some (.xorLongImm (getAluI48 c)) else none
    else none
  else if op = 4 then
    if tl = 1 then if f = 0 then some (.addReg (getAlu3 c)) else if f = 1 then some (.subReg (getAlu3 c)) else none
    else if tl = 2 then if f = 0 then some (.addShortImm (getAluI16 c)) else if f = 1 then some (.subShortImm (getAluI16 c)) else none
    else if tl = 3 then if f = 0 then some (.addLongImm (getAluI48 c)) else if f = 1 then some (.subLongImm (getAluI48 c)) else none
    else none
  else if op = 5 then
    if tl = 1 then if f = 0 then some (.shlReg (getAlu3 c)) else if f = 1 then some (.shrReg (getAlu3 c)) else if f = 2 then some (.sarReg (getAlu3 c)) else if f = 3 then some (.rotReg (getAlu3 c)) else none
    else if tl = 2 then if f = 0 then some (.shlImm (getShiftI c)) else if f = 1 then some (.shrImm (getShiftI c)) else if f = 2 then some (.sarImm (getShiftI c)) else if f = 3 then some (.rotImm (getShiftI c)) else none
    else none
  else if op = 6 then
    if tl = 1 then if f = 0 then some (.minReg (getAlu3 c)) else if f = 1 then some (.maxReg (getAlu3 c)) else if f = 2 then some (.minUReg (getAlu3 c)) else if f = 3 then some (.maxUReg (getAlu3 c)) else none
    else if tl = 2 then if f = 0 then some (.minShortImm (getAluI16 c)) else if f = 1 then some (.maxShortImm (getAluI16 c)) else if f = 2 then some (.minUShortImm (getAluI16 c)) else if f = 3 then some (.maxUShortImm (getAluI16 c)) else none
    else if tl = 3 then if f = 0 then some (.minLongImm (getAluI48 c)) else if f = 1 then some (.maxLongImm (getAluI48 c)) else if f = 2 then some (.minULongImm (getAluI48 c)) else if f = 3 then some (.maxULongImm (getAluI48 c)) else none
    else none
  else if op = 7 then
    if tl = 1 then if f = 0 then some (.clz (getUn c)) else if f = 1 then some (.ctz (getUn c)) else if f = 2 then some (.popc (getUn c)) else if f = 3 then some (.bswp (getUn c)) else none
    else none
  else if op = 8 then
    if tl = 1 then some (.setReg (getSet3 c))
    else if tl = 2 then some (.setShortImm (getSetI16 c))
    else if tl = 3 then some (.setLongImm (getSetI48 c))
    else none
  else if op = 9 then
    if tl = 2 then some (.csel (getCsel c))
    else none
  else if op = 10 then
    if tl = 2 then if f = 0 then some (.extr (getExtr c)) else if f = 1 then some (.extrS (getExtr c)) else if f = 2 then some (.insr (getInsr c)) else none
    else none
  else if op = 14 then
    if tl = 2 then if f = 0 then some (.ldiShort (getLdi16 c)) else if f = 1 then some (.ldiUShort (getLdi16 c)) else none
    else if tl = 3 then if f = 0 then some (.ldiLong (getLdi48 c)) else if f = 1 then some (.ldiULong (getLdi48 c)) else none
    else none
  else if op = 15 then
    if tl = 2 then some (.adpcShort (getRel16 c))
    else if tl = 3 then some (.adpcLong (getRel48 c))
    else none
  else if op = 16 then
    if tl = 1 then some (.ldIndex (getLdX c))
    else if tl = 2 then some (.ldDisp (getLdD c))
    else none
  else if op = 17 then
    if tl = 1 then some (.stIndex (getStX c))
    else if tl = 2 then some (.stDisp (getStD c))
    else none
  else if op = 18 then
    if tl = 1 then if f ≤ 1 then some (.ldrsIndex (getLdrsX c)) else if 2 ≤ f then some (.stc (getStcF c)) else none
    else if tl = 2 then some (.ldrsDisp (getLdrsD c))
    else none
  else if op = 19 then
    if tl = 1 then if f = 0 then some (.pref (getRangeOp c)) else if f = 1 then some (.smap (getRangeOp c)) else if f = 2 then some (.sflush (getRangeOp c)) else if f = 3 then some (.sinv (getRangeOp c)) else none
    else none
  else if op = 20 then
    if tl = 2 then if f = 0 then some (.dropRet (getBankMask c)) else if f = 1 then some (.dropOff (getBankMask c)) else if f = 2 then some (.wake (getBankMask c)) else none
    else none
  else if op = 21 then
    if tl = 2 then some (.fence (getFenceF c))
    else none
  else if op = 22 then
    if tl = 0 then some .fbar
    else if tl = 1 then some (.icinv (getRangeOp c))
    else none
  else if op = 24 then
    if tl = 2 then some (.atom (getAtomF c))
    else none
  else if op = 25 then
    if tl = 2 then some (.red (getRedF c))
    else none
  else if op = 26 then
    if tl = 2 then if f ≤ 2 then some (.redx (getRedxF c)) else if f = 3 then some (.xread (getXreadF c)) else none
    else none
  else if op = 27 then
    if tl = 1 then some (.waitrs (getUn c))
    else none
  else if op = 28 then
    if tl = 2 then if f = 0 ∧ x = 0 then some (.bari (getBarF c)) else if f = 1 ∧ x = 0 then some (.bara (getBarF c)) else if f = 2 ∧ x = 0 then some (.bart (getBarF c)) else if f = 3 ∧ x = 0 then some (.barw (getBarF c)) else if f = 0 ∧ x = 1 then some (.barv (getBarvF c)) else none
    else none
  else if op = 29 then
    if tl = 2 then if f = 0 then some (.semw (getSemF c)) else if f = 1 then some (.sems (getSemF c)) else if f = 2 then some (.semset (getSemF c)) else none
    else none
  else if op = 30 then
    if tl = 1 then if f = 0 then some (.jwait (getJobF c)) else if f = 1 then some (.jpoll (getJobF c)) else if f = 2 ∧ x = 0 then some (.wait (getUn c)) else none
    else none
  else if op = 32 then
    if tl = 2 then if x = 0 then some (.bShort (getBr16 c)) else if x = 1 then some (.callShort (getRel16 c)) else none
    else if tl = 3 then if x = 0 then some (.bLong (getBr48 c)) else if x = 1 then some (.callLong (getRel48 c)) else none
    else none
  else if op = 33 then
    if tl = 2 then some (.bcShort (getBc16 c))
    else if tl = 3 then some (.bcLong (getBc48 c))
    else none
  else if op = 34 then
    if tl = 1 then if f = 0 then some (.jmp (getSrc1 c)) else if f = 1 then some (.callr (getUn c)) else if f = 2 then some (.ret (getSrc1 c)) else none
    else none
  else if op = 35 then
    if tl = 2 then some (.skip (getSkipF c))
    else none
  else if op = 36 then
    if tl = 0 then if x = 0 then some .endAct else if x = 1 then some .yield else none
    else none
  else if op = 37 then
    if tl = 2 then some (.spawn (getSpawnF c))
    else none
  else if op = 38 then
    if tl = 1 then some (.join (getUn c))
    else none
  else if op = 39 then
    if tl = 1 then some (.migr (getSrc1 c))
    else none
  else if op = 40 then
    if tl = 2 then some (.send (getSendF c))
    else if tl = 3 then some (.sendx (getSendxF c))
    else none
  else if op = 41 then
    if tl = 2 then some (.mcast (getSendF c))
    else none
  else if op = 42 then
    if tl = 1 then if f = 0 then some (.sopen (getBin c)) else if f = 1 then some (.sclose (getScloseF c)) else none
    else if tl = 2 then some (.sbind (getSbindF c))
    else none
  else if op = 43 then
    if tl = 1 then if f = 0 then some (.hself (getDest c)) else if f = 1 then some (.hqry (getBin c)) else none
    else none
  else if op = 44 then
    if tl = 3 then some (.mxld (getMxPQ c))
    else none
  else if op = 45 then
    if tl = 3 then some (.mxmma (getMxPQ c))
    else none
  else if op = 46 then
    if tl = 3 then some (.mxdrn (getMxDrn c))
    else none
  else if op = 47 then
    if tl = 3 then if c.mods % 4 = 0 then some (.mxrot (getMxN c)) else if c.mods % 4 = 1 then some (.mxzero (getMxZero c)) else if c.mods % 4 = 2 then some (.mxgang (getMxN c)) else none
    else none
  else if op = 48 then
    if tl = 1 then if f = 0 then some (.mxstat (getDest c)) else if f = 1 then some (.mxstatClr (getDest c)) else none
    else none
  else if op = 49 then
    if tl = 3 then if x = 0 then some (.cpy (getCpF c)) else if x = 1 then some (.cp2d (getCpF c)) else none
    else none
  else if op = 50 then
    if tl = 3 then if x = 0 then some (.gath (getCpF c)) else if x = 1 then some (.scat (getCpF c)) else none
    else none
  else if op = 51 then
    if tl = 3 then if x = 0 then some (.cpyx (getCpF c)) else if x = 1 then some (.dtld (getDtldF c)) else none
    else none
  else if op = 52 then
    if tl = 2 then if f = 0 then some (.fadd (getFp2 c)) else if f = 1 then some (.fsub (getFp2 c)) else if f = 2 then some (.fmul (getFp2 c)) else if f = 3 then some (.fdiv (getFp2 c)) else none
    else none
  else if op = 53 then
    if tl = 2 then if f = 0 then some (.fsqrt (getFp1 c)) else if f = 1 then some (.fmin (getFp2 c)) else if f = 2 then some (.fmax (getFp2 c)) else if f = 3 then some (.fcls (getFp1 c)) else none
    else none
  else if op = 54 then
    if tl = 2 then some (.fma (getFp3 c))
    else none
  else if op = 55 then
    if tl = 2 then if f = 0 then some (.fcmp (getFcmpF c)) else if f = 1 then some (.fcvt (getFcvtF c)) else none
    else none
  else if op = 56 then
    if tl = 3 then if c.vop = 0 then some (.vadd (getVecF c)) else if c.vop = 1 then some (.vsub (getVecF c)) else if c.vop = 2 then some (.vmul (getVecF c)) else if c.vop = 3 then some (.vfma (getVecF c)) else if c.vop = 4 then some (.vmin (getVecF c)) else if c.vop = 5 then some (.vmax (getVecF c)) else if c.vop = 6 then some (.vabs (getVecF c)) else if c.vop = 7 then some (.vneg (getVecF c)) else if c.vop = 8 then some (.vand (getVecF c)) else if c.vop = 9 then some (.vor (getVecF c)) else if c.vop = 10 then some (.vxor (getVecF c)) else if c.vop = 11 then some (.vshl (getVecF c)) else if c.vop = 12 then some (.vshr (getVecF c)) else if c.vop = 13 then some (.vsar (getVecF c)) else if c.vop = 14 then some (.vcmp (getVecF c)) else if c.vop = 15 then some (.vsel (getVecF c)) else if c.vop = 16 then some (.vcvt (getVecF c)) else if c.vop = 17 then some (.vdot (getVecF c)) else if c.vop = 18 then some (.vred (getVecF c)) else if c.vop = 19 then some (.vperm (getVecF c)) else none
    else none
  else if op = 57 then
    if tl = 3 then if f = 0 ∧ x = 0 then some (.vld (getVMemF c)) else if f = 1 ∧ x = 0 then some (.vst (getVMemF c)) else if f = 2 ∧ x = 0 then some (.vlds (getVMemF c)) else if f = 3 ∧ x = 0 then some (.vsts (getVMemF c)) else if f = 0 ∧ x = 1 then some (.vgath (getVMemF c)) else none
    else none
  else if op = 58 then
    if tl = 2 then if f = 0 then some (.vmov (getVMovF c)) else if f = 1 then some (.vbc (getVMovF c)) else if f = 2 then some (.vext (getVMovF c)) else if f = 3 then some (.vins (getVMovF c)) else none
    else none
  else if op = 60 then
    if tl = 2 then if f = 0 then some (.csrr (getCsrrF c)) else if f = 1 then some (.csrw (getCsrwF c)) else if f = 2 then some (.csrx (getCsrxF c)) else none
    else none
  else if op = 61 then
    if tl = 2 then if f = 0 then some (.trap (getCodeF c)) else if f = 1 then some (.svc (getCodeF c)) else none
    else none
  else if op = 62 then
    if tl = 0 then if x = 0 then some .eret else if x = 1 then some .uret else none
    else none
  else if op = 63 then
    if tl = 0 then if x = 0 then some .nop else if x = 1 then some .brk else none
    else none
  else none

/-- The decoder (R131, R132): the row named, when its fields are allowed and every other bit holds its fixed value.
DEDUCED (log 133). -/
def decode (c : Code) : Option Instr :=
  match candidate c with
  | some i => if i.wf && encode i == some c then some i else none
  | none => none

/-- An instruction of the opcode table from its bits as the table numbers them: the head alone for a 16-bit row; the
head above the T2 tail for a 32-bit row, the tail's higher bytes being zero. DEDUCED (log 8). -/
def tableCode (nbits w : Nat) : Code :=
  if nbits ≤ 16 then ⟨BitVec.ofNat 16 w, 0#64⟩
  else ⟨BitVec.ofNat 16 (w >>> 16), BitVec.ofNat 64 (w % 65536)⟩

/-- The instruction the decoder reads from a row's bits. DEDUCED (log 8). -/
def decodeTableWord (nbits w : Nat) : Option Instr := decode (tableCode nbits w)

/-- The 64-byte line that holds one instruction at slot 1 (R97–R99): line word with HC = 1 and TB the tail's size, the
head, gap bytes of zero, the tail at the end. -/
def oneLine (c : Code) : List Byte :=
  let n := tailBytes c.tl
  leBytes 2 (1 + n * 32) ++ leBytes 2 c.head.toNat ++ leBytes (60 - n) 0 ++ leBytes n c.tail.toNat

/-! ## Lines (R97–R100) -/

/-- Head k of a line image, 1 ≤ k ≤ 31 (R97). -/
def lineHead (b : List Byte) (k : Nat) : BitVec 16 :=
  BitVec.ofNat 16 (leNat ((b.drop (2 * k)).take 2))

/-- HC and TB of a line image (R97). -/
def lineHc (b : List Byte) : Nat := leNat (b.take 2) % 32
def lineTb (b : List Byte) : Nat := leNat (b.take 2) / 32 % 64

/-- S(k): the tail bytes of heads 1 to k (R99). -/
def tailSum (b : List Byte) : Nat → Nat
  | 0 => 0
  | k + 1 => tailSum b k + tailBytes (bits (lineHead b (k + 1)) 9 8)

/-- A well-formed line (R100). -/
def lineOk (b : List Byte) : Bool :=
  let hc := lineHc b; let tb := lineTb b
  b.length == 64 && leNat (b.take 2) / 2048 == 0 && hc ≠ 0 && tb % 2 == 0 && 2 + 2 * hc + tb ≤ 64
    && tb == tailSum b hc
    && ((b.drop (2 + 2 * hc)).take (62 - 2 * hc - tb)).all (· == 0#8)

/-- The head and tail at slot k of a line image (R99). -/
def lineCode (b : List Byte) (k : Nat) : Code :=
  let h := lineHead b k
  let n := tailBytes (bits h 9 8)
  ⟨h, BitVec.ofNat 64 (leNat ((b.drop (64 - tailSum b k)).take n))⟩

/-- The instruction at slot k of a line image; none where its encoding is no instruction (R132). -/
def decodeAt (b : List Byte) (k : Nat) : Option Instr := decode (lineCode b k)

end Sys2Proof
end

