-- ==== Sys2Proof/Config.lean ====
section
/-!
DEFINITION. What the spec leaves to each module or leaves open: constants with no body, so that nothing is known of
their values.
-/
namespace Sys2Proof.Config

/-- MODID (R34): the 64-bit identity that is fused into each module. DESIGN CHOICE (log 13). -/
opaque modId : BitVec 64
/-- Bytes of backing that a stored 64-byte line takes before the cap of 64 (R373: the compressed form is internal).
DESIGN CHOICE (log 14). -/
opaque lineBacking : List (BitVec 8) → Nat
/-- What `c.cpr` holds after a write that would lay the CPR area over the CSA (R1, R89). DESIGN CHOICE (log 127). -/
opaque cprFree : BitVec 64 → BitVec 64
/-- What a host queue register holds after a write that R321 forbids (R1), by the register and the value written.
DESIGN CHOICE (log 127). -/
opaque hqFree : Nat → BitVec 64 → BitVec 64
/-- The hash of a public key, as the fuses hold it (R390, R391). DESIGN CHOICE (log 123). -/
opaque keyHash : Nat → BitVec 256
/-- Waiters that one place of execution can register for barrier objects (R228). DESIGN CHOICE (log 15). -/
opaque barRoom : Nat
/-- Elements that a native step reads from a latch whose tile has been replaced by one of another shape (R249, R258).
DESIGN CHOICE (log 78). -/
opaque tileFree : Nat → Nat
/-- Pages that a home can hold pinned for copies at one time (R275). DESIGN CHOICE (log 85). -/
opaque pinCapacity : Nat
/-- Whether the host answers an access made in a cycle to a place of its memory before the timer of R299 ends it: the device sets no
other bound (R163). DESIGN CHOICE (log 12). -/
opaque hostAnswers : Nat → Nat → Bool
/-- Bytes of the area at PSAVE after a save, by cycle and place: R365 gives no layout. DESIGN CHOICE (log 66). -/
opaque saveByte : Nat → Nat → BitVec 8
/-- Whether the next instruction of a context of a core waits on the scoreboard in a cycle (R68, R75): a matter of latencies.
DESIGN CHOICE (log 3). -/
opaque scoreboard : Nat → Nat → Nat → Bool
/-- Pad bytes of a coded record as the engine writes them (R282), by cycle and place. DESIGN CHOICE (log 16). -/
opaque padByte : Nat → Nat → BitVec 8

end Sys2Proof.Config
end

