-- ==== Sys2Proof/Machine/State.lean ====
section
/-!
DEFINITION. The state of the module as plain data: everything the spec gives the machine, one structure for each thing
that holds state. A table that lists nothing stands for its reset contents, which the reader of the table names.

Numbers that name places: a site by its linear number (R8); a core by cid = 128·site + L (R11); a physical core by
pid = 144·site + P; a tile by 16·site + 4·group + tile; a group by 4·site + group; a partition by its number (R15).
One flat numbering of memory bytes serves `Module.mem`: LM byte o of physical core pid is pid·2^19 + o; device-physical
byte a of site s is 2^64 + s·2^53 + a; host byte a is 2·2^64 + a (R195).
-/
namespace Sys2Proof.Machine

/-- Why the machine stops. -/
inductive Fault where
  /-- `exec` of an instruction with no ISSUING activation in the focused context: there is nothing for the instruction
  to act on. Raised by every instruction's meaning and by no event; `step` never reaches it, because an idle focus lets
  a cycle pass. Safe: the machine stops where the hardware would not be executing anything. -/
  | noActivation
  deriving DecidableEq, Repr

/-- Why an instruction has no meaning. -/
inductive Refusal where
  /-- The constructor has no meaning in the model yet. Raised by `exec` alone. Safe. -/
  | notModelled (mnemonic : String)
  deriving DecidableEq, Repr

/-- The causes of R344. -/
inductive Cause where
  | illop | badline | badtgt | badopnd | priv | deadreg | deadbank | misalign | guard | page | perm | badhandle | pkey
  | uncorr | budget | hblock | miglive | stepped | brkpt | late | staletbl | span | barbusy | oospace | streambrk | noroute
  deriving DecidableEq, Repr

/-- A fault record (R347): upcall record, supervisor-queue entry and trap-activation input. -/
structure FaultRec where
  cause : Nat := 0
  sub : Nat := 0
  kind : Nat := 0
  v : Bool := false
  pw : Bool := false
  l8 : Bool := false
  l9 : Bool := false
  disp : Nat := 0
  lost : Nat := 0
  seq : Nat := 0
  job : Nat := 0
  pc : Word := 0
  addr : Word := 0
  vcn : Nat := 0
  psite : Nat := 0
  pcore : Nat := 0
  lgen : Nat := 0
  sseq : Nat := 0
  svcn : Nat := 0
  aidv : Nat := 0
  aids : Nat := 0
  save8 : Word := 0
  save9 : Word := 0
  deriving DecidableEq, Repr

/-- A late fault found and not yet delivered (R88). -/
structure LatePend where
  seq : Nat
  sub : Cause
  job : Nat
  pc : Word
  addr : Word
  /-- The engine queue that cancels until the delivery (R248): copy engine or matrix unit, and the queue. -/
  q : Option (Bool × Nat)
  deriving DecidableEq, Repr

/-! ## Activations (R36, R44, R67) -/

/-- The activation control words (R36). -/
structure Ctl where
  pc : Word := 0
  sw : Word := 0
  liveg : BitVec 32 := 0
  livev : BitVec 16 := 0
  path : BitVec 3 := 0
  cls : BitVec 3 := 0
  dom : BitVec 3 := 0
  hnd : Bool := false
  joina : Word := 0
  budget : BitVec 32 := 0
  waitk : BitVec 4 := 0
  waita : Word := 0
  waitv : Word := 0
  aidv : BitVec 16 := 0
  aids : BitVec 32 := 0
  deriving DecidableEq, Repr

/-- A workspace window (R67): the registers and control words of one activation. `touch` holds the cycle of the last
access to each register bank (0–3 scalar, 4–7 vector) and `ret` the banks that have gone to RETAIN for want of one (R84). -/
structure Win where
  ctl : Ctl := {}
  g : Tab Word := []
  v : Tab Line := []
  touch : Tab Nat := []
  ret : BitVec 8 := 0
  /-- Registers with an uncorrectable word (R90): k for gk, 32 + k for vk. -/
  bad : List Nat := []
  /-- Registers struck by an error that no read has found: uncorrectable where `bad` names them too. -/
  hit : List Nat := []
  /-- Errors of registers that reads have corrected, still to be counted for the management plane. -/
  fixed : Nat := 0
  /-- Flags that engine commands have ORed into the status word in one cycle: a write of `c.sw` in that cycle keeps them (R411). -/
  orNow : Nat × Nat := (0, 0)
  deriving DecidableEq, Repr

/-- The states of R44; ENDED is the absence of the activation. -/
inductive ActSt where
  | ready
  | bound
  | issuing (ctx : Nat)
  | suspended
  | migrating
  | faulted
  deriving DecidableEq, Repr

/-- What a suspended activation waits for, beside WAITK, WAITA and WAITV (R44). -/
inductive WaitOn where
  | nothing
  /-- JOIN: the word's address, the PC of the JOIN, whether a monitor watches it, and the cycle from which its next re-read is
  due: every 256 cycles without a monitor, and with one once it has fired (R224). -/
  | join (va : Word) (pc : Word) (mon : Bool) (next : Option Nat)
  /-- BARW at the object's byte location, registered or to be retried at a cycle, after so many RETRYs (R228). -/
  | bar (loc : Nat) (registered : Bool) (next : Nat) (tries : Nat)
  | sem (n : Nat) (thr : Nat)
  /-- JWAIT: engine (true for copy) and job. -/
  | job (cp : Bool) (id : Nat)
  /-- WAITRS with its timeout cycle (R224). -/
  | resv (deadline : Option Nat)
  | cycles (until_ : Nat)
  /-- URET waiting for a page notice (R351). -/
  | uret
  deriving DecidableEq, Repr

/-- An activation that has not ended. Its registers stand in `win` while it is BOUND, ISSUING or being changed, and in
its workspace otherwise (R38). -/
structure Act where
  /-- LM offset of the workspace. -/
  wp : Nat := 0
  st : ActSt := .ready
  win : Option Win := none
  /-- Cycle in which it became READY; its age counts from here (R62, R63). -/
  since : Nat := 0
  /-- Cycle of its last rise by aging, or `since` (R63). -/
  aged : Nat := 0
  /-- Cycle in which it entered its context (R46). -/
  entered : Nat := 0
  /-- Cycle up to which its budget has been counted (R64). -/
  counted : Nat := 0
  /-- Issuing cycles used by a handler (R48). -/
  hcyc : Nat := 0
  /-- Cycles of grace left after budget expiry (R64). -/
  grace : Option Nat := none
  /-- The page of the page wait of its upcall record (R355, R358). -/
  pw : Option Nat := none
  /-- A cancel notice came before its URET (R358). -/
  pwCancel : Bool := false
  wait : WaitOn := .nothing
  /-- Destination and value of a suspending instruction that has completed, to be written at the next binding. -/
  wb : Option (Opnd × Word) := none
  /-- Destination of the suspending instruction. -/
  dst : Opnd := 41#6
  /-- STEP is due when it next enters a context (R360), for the instruction at this PC. -/
  stepAt : Option Word := none
  /-- Its supervisor-queue entry waits for room (R352). -/
  defer : Option FaultRec := none
  late : List LatePend := []
  /-- Migration: the packet, and the cycle from which it may be sent again (R60). -/
  mig : Option Nat := none
  migTo : Word := 0
  /-- Next number of its ordered atomics to each home (R220). -/
  onum : Tab Nat := []
  deriving DecidableEq, Repr

/-- A line buffer (R190), with the activation that it was filled for. -/
structure LineBuf where
  base : Nat
  bytes : List Byte
  aid : Nat
  deriving DecidableEq, Repr

/-- A reservation on one 64-byte line (R222), named by its first byte location; until the cycle `until_` the home defers
recalls of the line (R223); `va` is the address that LDRS named. -/
structure Resv where
  line : Nat
  dram : Bool
  until_ : Nat
  va : Word
  deriving DecidableEq, Repr

/-- An issuing context (R67). -/
structure Ctx where
  act : Option Nat := none
  /-- `c.wp` bits [18:6] (R92). -/
  wp : BitVec 13 := 0
  /-- Next sequence number (R87), `c.seq`. -/
  seq : BitVec 16 := 0
  line : Option LineBuf := none
  resv : Option Resv := none
  deriving DecidableEq, Repr

/-! ## Packets and NI state (R295, R301) -/

/-- Kinds of R295. -/
inductive PKind where
  | read | write | check | atomic | reply | retry | message | migration | wakeup | steal | streamOpen | streamClose
  | collective | trapReport | nack
  deriving DecidableEq, Repr

/-- The answer a reply carries. -/
inductive Ans where
  | ok (v : Nat)
  | bad (c : Cause) (addr : Word)
  | none_
  deriving DecidableEq, Repr

/-- A packet: header fields of R295, its payload, and where it is. -/
structure Packet where
  kind : PKind := .message
  net : Bool := false
  det : Bool := false
  dsite : Nat := 0
  dl : Nat := 0
  ssite : Nat := 0
  sl : Nat := 0
  ord : Bool := false
  wpt : Nat := 0
  hops : Nat := 0
  /-- It changed network at its waypoint (R297, R315). -/
  switched : Bool := false
  icyc : Nat := 0
  pkey : BitVec 32 := 0
  seq : BitVec 32 := 0
  svcn : Nat := 0
  dvcn : Nat := 0
  gen : Nat := 0
  dmod : Nat := 0
  smod : Nat := 0
  len : Nat := 0
  xf : Nat := 0
  par : Nat := 0
  mc : Bool := false
  resend : Bool := false
  seed : Word := 0
  sw : Word := 0
  entry : Nat := 0
  payload : List Byte := []
  /-- Request fields: address, bytes, operation and operands, mode. -/
  va : Word := 0
  size : Nat := 0
  opc : Nat := 0
  c : Word := 0
  d : Word := 0
  super : Bool := false
  ans : Ans := .none_
  /-- Reply slot at the requester, and the requester's activation identity. -/
  slot : Nat := 0
  aid : Nat := 0
  actKey : Nat := 0
  /-- Phase: 0 waits for injection, 1 in the network at site `here`, 2 ejected at its destination, 3 waits for a resend,
  4 refused, the RETRY or NACK on its way back. A SENDX is a message with `opc` 1, a collector's message one with
  `opc` 2. -/
  phase : Nat := 0
  here : Nat := 0
  /-- The partition that PEER_MAP names at a peer module (R386). -/
  dpart : Nat := 0
  tries : Nat := 0
  due : Nat := 0
  /-- Its place in the order of injections, and the cores that a multicast has still to reach (R298, R310). -/
  inj : Nat := 0
  dests : List Nat := []
  deriving DecidableEq, Repr

/-- A reply slot (R301): the packet that reserved it, the cycle of its injection, the answer once landed. -/
structure RSlot where
  req : Packet
  at_ : Nat
  ans : Ans
  deriving DecidableEq, Repr

/-- A multicast record (R310): packet template, destinations not yet accepted with their resend cycle, order flag. -/
structure MRec where
  id : Nat
  aid : Nat
  ord : Bool
  left : List Nat
  deriving DecidableEq, Repr

/-- A send port (R311). -/
structure SPort where
  aid : Nat
  dcid : Nat
  n : Nat
  /-- 0 not yet opened, 1 route reserved and waiting, 2 attached, 3 broken. -/
  route : Nat := 0
  words : List Word := []
  credit : Nat := 64
  last : Nat := 0
  closing : Bool := false
  /-- Its stream: the number of the open packet; the links that the route holds (R312); the cycle of the open or of the latest
  injection (R314). -/
  sid : Nat := 0
  links : List Nat := []
  idle : Nat := 0
  deriving DecidableEq, Repr

/-- A receive port N of a core (R311, R312): its activation, the sender it takes, the attached route as sender core and stream, and
the cycle of the latest pop from it. -/
structure RPort where
  aid : Nat
  from_ : Option Nat
  src : Option (Nat × Nat) := none
  buf : List Word := []
  closed : Bool := false
  broken : Bool := false
  last : Nat := 0
  deriving DecidableEq, Repr

/-- A route that waits at the receiving NI (R312): sender core, stream, port. -/
structure Route where
  scid : Nat
  sid : Nat
  n : Nat
  deriving DecidableEq, Repr

/-- A stream word group on its way (R312): sender core, stream, receiver. A closing flit holds the route's links until it arrives. -/
structure Flit where
  scid : Nat
  sid : Nat
  dcid : Nat
  n : Nat
  words : List Word
  close : Bool
  links : List Nat := []
  deriving DecidableEq, Repr

/-- A binding of a stream register to a copy job (R277). -/
structure SBind where
  aid : Nat
  n : Nat
  job : Nat
  next : Nat
  deriving DecidableEq, Repr

/-! ## Queued work -/

/-- A node entry of a core's graph dispatch queue (R328): the ranges that remain, ascending. -/
structure NodeEnt where
  launch : Nat
  node : Nat
  ranges : List (Nat × Nat)
  dom : Nat
  entry : Word
  tcb : Word
  budget : Nat
  slots : Nat
  deriving DecidableEq, Repr

/-- A stolen item on its way to the thief (R55). -/
inductive Loot where
  | record (bytes : List Byte)
  | range (e : NodeEnt) (first count : Nat)
  deriving DecidableEq, Repr

/-- A steal under way (R54, R55): victim asked, reply held once served; the cycle of the attempt; for a victim at another site the
packet's number and the reply slot that it holds (R301). -/
structure Steal where
  victim : Nat
  served : Bool
  loot : Option Loot
  since : Nat := 0
  pkt : Option (Nat × Nat) := none
  deriving DecidableEq, Repr

/-- A monitor (R224): line watched, the suspended activation's slot, fired. -/
structure Monitor where
  line : Nat
  key : Nat
  deriving DecidableEq, Repr

/-- Job states (R236). -/
inductive JobSt where
  | queued | running | complete | faulted
  deriving DecidableEq, Repr

/-- A job sequence (R236): the latest ID and the states of the commands that are kept. -/
structure JobSeq where
  last : Nat := 0
  st : Tab JobSt := []
  deriving DecidableEq, Repr

/-- A committed vector instruction (R487): operands captured at commit. -/
structure VOp where
  i : Instr
  key : Nat
  ctx : Nat
  aid : Nat
  seq : Nat
  pc : Word
  sw : Word
  rshc : BitVec 32
  seed : Word
  b : Nat
  c : Nat
  d : Nat
  m : Nat
  old : Line
  /-- A vector source holds an uncorrectable word (R488). -/
  bad : Bool
  started : Bool
  /-- Elements accessed so far, and the bits loaded by them. -/
  pos : Nat
  got : Nat
  deriving DecidableEq, Repr

/-- A stash line, or the atomic line (R186, R188): state 1 S, 2 E, 3 M; the virtual line address, last use; its 64 bytes, which
alone are the newest data while the line is M; the locations of its words that are uncorrectable (R90). -/
structure SLine where
  st : Nat
  va : Word
  used : Nat
  data : List Byte
  bad : List Nat
  deriving DecidableEq, Repr

/-! ## Tile: semaphores and engines -/

/-- The matrix commands (R239). -/
inductive MxOp where
  | ld | mma | drn | rot (ring : Nat) | zero | gang (size : Nat)
  deriving DecidableEq, Repr

/-- The copy commands (R267). -/
inductive CpOp where
  | cpy | cp2d | gath | scat | cpyx | dtld
  deriving DecidableEq, Repr

/-- Who pushed a command, and what completion does (R87, R108, R234, R272). -/
structure Issuer where
  cid : Nat := 0
  key : Nat := 0
  aid : Nat := 0
  ctx : Nat := 0
  seq : Nat := 0
  job : Nat := 0
  pc : Word := 0
  super : Bool := false
  pk : BitVec 32 := 0
  seed : Word := 0
  sw : Word := 0
  rshc : BitVec 32 := 0
  rm : Nat := 0
  sig : EngSig := ⟨0, 0, 0, 0⟩
  deriving DecidableEq, Repr

/-- A matrix command with its progress: steps granted, segments drained, flags gathered. -/
structure MxCmd where
  op : MxOp
  p : Word := 0
  q : Word := 0
  h : Word := 0
  by_ : Issuer := {}
  started : Bool := false
  pos : Nat := 0
  flags : Nat := 0
  /-- Fault found while steps are still in flight (R263). -/
  dead : Option (Cause × Word) := none
  ready : Nat := 0
  /-- K, NB and class of the command's B tile when an MXMMA starts (R254, R258). -/
  k : Nat := 0
  cls : Nat := 0
  /-- Cancelled by a late fault of its queue: it ends without starting (R248). -/
  cancel : Bool := false
  /-- It had started when it was saved: its semaphore is not waited for again (R264). -/
  begun : Bool := false
  deriving DecidableEq, Repr

/-- A latch (R249): type, K, NB, scaled, elements row-major and scales. -/
structure Latch where
  ty : Nat
  k : Nat
  nb : Nat
  sc : Bool
  elems : List Nat
  scales : List Nat
  deriving DecidableEq, Repr

/-- A native step in flight (R255): command's slot, block row and column, chunk, cycle of effect, A and B data read. -/
structure MxStep where
  slot : Nat
  job : Nat
  row : Nat
  col : Nat
  chunk : Nat
  at_ : Nat
  part : Nat
  acc : List (Nat × BitVec 32)
  flags : Nat
  deriving DecidableEq, Repr

/-- A copy descriptor (R269). -/
structure CpDesc where
  len : Nat := 0
  n1 : Nat := 1
  n2 : Nat := 1
  ss1 : Word := 0
  ss2 : Word := 0
  ds1 : Word := 0
  ds2 : Word := 0
  bar : Word := 0
  scope : Nat := 2
  xf : Nat := 0
  wk : Bool := false
  par : Nat := 0
  went : Nat := 0
  idx : Word := 0
  deriving DecidableEq, Repr

/-- A TLB entry (R180): page or 512 MiB block, and the leaf. -/
structure TlbEnt where
  vpn : Nat
  block : Bool
  leaf : Word
  deriving DecidableEq, Repr

/-- A copy command with its progress (R266, R273, R275). -/
structure CpCmd where
  op : CpOp
  p : Word := 0
  q : Word := 0
  h : Word := 0
  d : CpDesc := {}
  by_ : Issuer := {}
  started : Bool := false
  /-- Destination offset up to which every byte is performed (for DTLD, source bytes read), source offset of records, and
  the offset up to which chunks have been decremented (R272). -/
  off : Nat := 0
  soff : Nat := 0
  dec : Nat := 0
  /-- Index words read, by run (R270). -/
  idxs : Tab Nat := []
  /-- Source bytes that follow those used, read with the aligned 8-byte piece that they share, and destination bytes that wait for the
  rest of their 64-byte piece (R199, R266). -/
  ahead : List Byte := []
  tail : List Byte := []
  /-- Stalled on the page of an address; true for PERM (R273). -/
  stall : Option (Word × Bool) := none
  /-- Pinned pages: home and translation held (R275). -/
  pins : List (Nat × TlbEnt) := []
  /-- CPYX: every pin is held. DTLD: the slot is loaded. -/
  pinned : Bool := false
  flags : Nat := 0
  /-- DTLD: the entries read so far, and the users it waits for (R286): unit, core, job. -/
  entries : List Nat := []
  users : List (Bool × Nat × Nat) := []
  /-- Partition, launch and node of a COPY node (R331). -/
  node : Option (Nat × Nat × Nat) := none
  /-- The first cycle in which it starts or, once started, tries to pin again; the RETRYs its pins have had (R275). -/
  due : Nat := 0
  tries : Nat := 0
  /-- Cancelled by a late fault of its queue: it ends without starting (R274). -/
  cancel : Bool := false
  deriving DecidableEq, Repr

/-! ## The core -/

/-- Special registers of a core (R92, R93). -/
structure Spec where
  /-- `c.cyc` reads `cycV` plus the cycles since `cycT` or, if later, since the site reached READY. -/
  cycV : Word := 0
  cycT : Nat := 0
  inst : Word := 0
  lat : Word := 0
  seed : Word := 0
  pk : BitVec 32 := 0
  hbnd : Word := 0
  budget : BitVec 32 := 4194304#32
  upvec : Word := 0
  trvec : Word := 0
  cpr : Word := 0x7C000#64
  frec : Word := 0
  stash : Word := 0
  mxw : BitVec 4 := 1
  guards : Tab Word := []
  deriving DecidableEq, Repr

/-- The scheduler descriptor's fields (R40), kept here and seen at LM 0x7_F800. -/
structure Desc where
  wsbase : Nat := 0x40000
  wssz : Nat := 11
  wsn : Nat := 32
  /-- Bit k: slot k is held; WSFREE shows the free ones of the WSN slots. -/
  held : BitVec 64 := 0
  lifo : Nat := 0
  fifo : Nat := 0
  n : Nat := 0
  deriving DecidableEq, Repr

/-- Stealing state (R55, R56). -/
structure Thief where
  s : BitVec 32 := 1
  ring : Nat := 0
  tries : Nat := 0
  first : Nat := 0
  wake : Nat := 0
  busy : Option Steal := none
  deriving DecidableEq, Repr

/-- Ports of a core: ring link buffers with the words on their way (R71), streams (R72, R311). -/
structure Ports where
  nbl : List Word := []
  nbr : List Word := []
  flyL : List Word := []
  flyR : List Word := []
  send : List SPort := []
  recv : Tab RPort := []
  routes : List Route := []
  binds : List SBind := []
  deriving DecidableEq, Repr

/-- The core's NI state (R301, R307, R310, R319). -/
structure Ni where
  seq : BitVec 32 := 0
  slots : Tab RSlot := []
  hq : List Packet := []
  held : List Packet := []
  mrecs : List MRec := []
  deriving DecidableEq, Repr

/-- The supervisor queue's control state (R352, R354); the entries stand in LM. -/
structure SupQ where
  next : Nat := 0
  lost : Nat := 0
  /-- Entry that the running trap activation serves. -/
  serving : Option Nat := none
  /-- Workspace slot of the FAULTED activation of each KIND 1 entry. -/
  keys : Tab Nat := []
  stopped : Bool := false
  deriving DecidableEq, Repr

/-- A logical core. -/
structure Core where
  acts : Tab Act := []
  ctxs : Tab Ctx := []
  spec : Spec := {}
  desc : Desc := {}
  serial : BitVec 32 := 0
  thief : Thief := {}
  /-- Cycle of the latest request that the deque has served (R54). -/
  dqAt : Option Nat := none
  gq : List NodeEnt := []
  ni : Ni := {}
  sup : SupQ := {}
  mons : List Monitor := []
  jobMx : JobSeq := {}
  jobCp : JobSeq := {}
  /-- The core's 16 latest copy jobs that have left their queue, by ID (R277). -/
  cpLog : Tab CpCmd := []
  vq : List VOp := []
  vcancel : List Nat := []
  stash : Tab SLine := []
  atom : Tab SLine := []
  icache : Tab (List Byte) := []
  ports : Ports := {}
  /-- Quiesced for a remap (R21, R369). -/
  quiet : Bool := false
  /-- The cycle that no later dispatch may share: that of the last dispatch (R68), or of the last landing of a word at a port, which a
  pop of the same cycle does not see (R73). -/
  last : Option Nat := none
  /-- The context that has dispatched last, from which the rotation goes on (R68). -/
  turn : Nat := 3
  /-- SFLUSH and SINV under way (R458): the activation, the line, and whether the line goes. -/
  flushes : List (Nat × Nat × Bool) := []
  /-- PREF fills that a reservation delays (R457): the line's virtual address, the requester, and its mode. -/
  prefs : List (Nat × Nat × Bool) := []
  /-- Uses of stash lines so far: the order behind least recently used (R184). -/
  uses : Nat := 0
  /-- The free windows (R35): the register banks of each that are in RETAIN; its others are OFF (R84). -/
  idle : List (BitVec 8) := List.replicate 8 0#8
  deriving DecidableEq, Repr

/-- A physical core (R85, R368, R371): bank states as `c.lmst` encodes them, the cycle at which a waking bank is FULL, the
state (1 RETAIN, 2 OFF) that a DROP of a waking bank gives it then (R415), failed banks, the word and count of successive groomer corrections, and PHYS_STATE. -/
structure Phys where
  lm : BitVec 32 := 0
  wake : Tab Nat := []
  after : Tab Nat := []
  failed : BitVec 16 := 0
  corr : Tab Nat := []
  cand : Bool := false
  st : Nat := 0
  pass : Nat := 0
  rcnt : Nat := 0
  t1 : Nat := 0
  deriving DecidableEq, Repr

/-! ## Tiles and groups -/

/-- A tile. -/
structure Tile where
  sems : Tab (BitVec 32) := []
  /-- Semaphores changed in a cycle whose waits are still to be evaluated: the cycle, and the place in the order of R235 of the
  latest operation (the slot of a SEMSET, 8 for SEMS and signals). -/
  semAt : Tab (Nat × Nat) := []
  mxq : Tab (List MxCmd) := []
  mxcancel : List Nat := []
  latch : Tab Latch := []
  staging : Tab Latch := []
  acc : Tab (BitVec 32) := []
  aflags : Tab Nat := []
  /-- Leader and size of the gang of each slot (R251). -/
  gang : Tab (Nat × Nat) := []
  credit : Tab Nat := []
  ptr : Nat := 0
  steps : List MxStep := []
  /-- First cycle in which no step holds the array. -/
  free : Nat := 0
  /-- Uncorrectable words of accumulators and latches, by the keys of R263's reads, and those struck by an error that no read has found. -/
  bad : List Nat := []
  hit : List Nat := []
  /-- The accumulator flags that the MXZEROs of a cycle have cleared: an MXSTAT of that cycle still reads them (R465). -/
  zeroAt : Option (Nat × Tab Nat) := none
  /-- A rotation copy under way: base, size, cycle at which it is done (R250). -/
  rot : List (Nat × Nat × Nat) := []
  skip : Bool := false
  cpq : Tab (List CpCmd) := []
  cpcancel : List Nat := []
  /-- The last of queues 0–7 that the engine has served (R266), and the COPY nodes that wait for room in queue 8 (R331). -/
  cpLast : Nat := 7
  cpWait : List CpCmd := []
  /-- The activations, by core and slot, whose STEP or BRKPT trap has frozen the engines (R361). -/
  stepped : List (Nat × Nat) := []
  frozen : Bool := false
  deriving DecidableEq, Repr

/-- A group's memory (R169, R282, R286): blocks as header and payload, decode tables, generations, expanded buffers; the blocks
with an uncorrectable word, and those struck by an error that no read has found (R90). -/
structure Group where
  blocks : Tab (Nat × List Byte) := []
  tables : Tab (List Nat) := []
  gens : Tab Nat := []
  bufs : List (Nat × List Byte) := []
  bad : List Nat := []
  hit : List Nat := []
  deriving DecidableEq, Repr

/-! ## The site -/

/-- An LPCT entry (R18). -/
structure Lpct where
  ppos : Nat
  v : Bool
  vcn : Nat
  deriving DecidableEq, Repr

/-- A trap record (R317) with the site that reports it. -/
structure TrapRec where
  kind : Nat := 0
  part : Nat := 0
  rsite : Nat := 0
  hsite : Nat := 0
  vpn : Nat := 0
  cores : Nat := 0
  merged : Nat := 0
  fseq : Nat := 0
  fvcn : Nat := 0
  job : Nat := 0
  offs : Nat := 0
  addr : Word := 0
  deriving DecidableEq, Repr

/-- Capacity registers and buffers of an M-stack (R373–R379). -/
structure Mc where
  fact : Nat := 16
  /-- FACT of an owner's write on its way to the stack (R391). -/
  due : Option Nat := none
  /-- Bytes of backing in use by compressed lines. -/
  bytes : Nat := 0
  /-- Reserved areas: base and size. -/
  resv : List (Nat × Nat) := []
  low : Nat := 262144
  high : Nat := 524288
  retries : Nat := 0
  /-- Lines in the spill buffer, oldest first: line number and data. -/
  spill : List (Nat × List Byte) := []
  episode : Bool := false
  /-- The balloon engine has started and not yet reached HIGH (R376). -/
  active : Bool := false
  bsize : Nat := 4
  ben : Bool := false
  baddr : Nat := 0
  bhead : Nat := 0
  btail : Nat := 0
  deriving DecidableEq, Repr

/-- A node's state at a site (R324, R331): the TCB as loaded with its successors, pending count, iterations. -/
structure Node where
  tcb : List Byte := []
  succ : List Nat := []
  pend : Int := 0
  iter : Nat := 0
  desc : List Byte := []
  deriving DecidableEq, Repr

/-- The graph engine and collective unit of a site (R323, R330, R335, R338, R341): the launch's image is loaded; the start
has come; nodes; CNUM applied; kernels admitted and waiting, oldest first; credits not yet sent; the liveness snapshot; END
has been released; the stop event has been applied. -/
structure SiteGraph where
  loaded : Bool := false
  begun : Bool := false
  nodes : Tab Node := []
  applied : Nat := 0
  admitted : List Nat := []
  waiting : List Nat := []
  credits : Tab Nat := []
  live : List Nat := []
  atEnd : Bool := false
  stopped : Bool := false
  deriving DecidableEq, Repr

/-- A retirement under way (R369). -/
structure Retiring where
  l : Nat
  toQ : Option Nat
  deriving DecidableEq, Repr

/-- A combined arrival (R231): the object's location, the summed count, the last cycle of its 8-cycle window, the arrivals
(core, workspace slot), and the result that each receives. -/
structure Combine where
  loc : Nat
  count : Nat
  until_ : Nat
  waiters : List (Nat × Nat)
  res : Option Nat
  deriving DecidableEq, Repr

/-- A site. -/
structure Site where
  state : Nat := 0
  /-- Cycle in which the site reached READY: the origin of `c.cyc` (R92, R93). -/
  ready : Nat := 0
  src : Nat := 0
  fail : Nat := 0
  /-- Directions from which clock is offered: 0 W, 1 S, 2 E, 3 N (R388). -/
  offers : List Nat := []
  part : Option Nat := none
  psi : Nat := 0
  epoch : Nat := 0
  lpct : Tab Lpct := []
  lgen : BitVec 32 := 0
  vacant : List Nat := []
  rbusy : Option Retiring := none
  rres : Nat := 0
  freeze : Bool := false
  psave : Word := 0
  ptroot : Word := 0
  tlb : List TlbEnt := []
  /-- Pages whose invalidation is not complete: page, or all (R182). -/
  tlbi : Option (Option Nat) := none
  pkey : BitVec 32 := 0
  shapes : Tab (Word × Word) := []
  slalom : Tab (BitVec 16) := []
  nst : Tab (BitVec 16) := []
  home : Tab (BitVec 16) := []
  /-- Disabled output links: 4·net + direction (R299). -/
  off : List Nat := []
  mc : Mc := {}
  graph : SiteGraph := {}
  bars : List Nat := []
  comb : List Combine := []
  faultq : List TrapRec := []
  dropped : Nat := 0
  /-- Trap reports that its router has discarded (R316). -/
  trpLost : Nat := 0
  /-- By activation identity, the number of the next `.o` operation that the home performs, while some are unacknowledged (R220). -/
  ord : Tab Nat := []
  /-- Errors corrected and found uncorrectable, for the management plane (R90). -/
  errC : Nat := 0
  errU : Nat := 0
  /-- Partition whose context the shadow store holds (R363). -/
  shadow : Option Nat := none
  /-- Another partition has run here since the swap-out (R289). -/
  dirty : Bool := false
  deriving DecidableEq, Repr

/-! ## Partition, module -/

/-- An event of the completion stream (R330). -/
inductive GEv where
  | done (node : Nat)
  | cond (node : Nat) (taken : Bool)
  | loop (node : Nat) (body : Bool)
  | hostsig (node : Nat)
  | live (vcn : Nat)
  | stop
  deriving DecidableEq, Repr

/-- The graph root's state for the current launch (R323, R330–R334): the packet; verdicts by PSI as status, node and CRC;
partial sums that have arrived; totals; the completion stream from CNUM 1; nodes that the root has still to act on; how it ends, and
the node named; the liveness at its start; its start; the cycle and node of the latest node event in the stream. -/
structure Launch where
  packet : List Byte := []
  verdicts : Tab (Nat × Nat × Nat) := []
  sums : List (Nat × Nat) := []
  totals : Tab Nat := []
  stream : List GEv := []
  todo : List Nat := []
  ended : Bool := false
  status : Nat := 0
  node : Nat := 0
  live : List Nat := []
  started : Bool := false
  last : Nat × Nat := (0, 0)
  deriving DecidableEq, Repr

/-- A page notice (R358): page, cancel, sites still to be reached. -/
structure Notice where
  vpn : Nat
  cancel : Bool
  sites : List Nat
  deriving DecidableEq, Repr

/-- What a swap out saves of a core (R365): its VCN and physical core, its state, the LM bank states, the LM bytes and the
quarantined words by LM offset. -/
structure Saved where
  vcn : Nat
  pid : Nat
  core : Core
  lm : BitVec 32
  bytes : List Host.Cell
  quar : List Nat
  deriving DecidableEq, Repr

/-- What a swap out saves of a tile and a site. -/
structure SavedSite where
  site : Nat
  tiles : Tab Tile
  graph : SiteGraph
  home : Tab (BitVec 16)
  nst : Tab (BitVec 16)
  slalom : Tab (BitVec 16)
  ptroot : Word
  pkey : BitVec 32
  epoch : Nat
  comb : List Combine
  bars : List Nat
  vacant : List Nat
  cores : List Saved
  deriving DecidableEq, Repr

/-- A registered BARW waiter (R228). -/
structure BWait where
  loc : Nat
  cid : Nat
  key : Nat
  deriving DecidableEq, Repr

/-- What a committed write does at its home: bytes stored, an integer RMW of R218 on `size` bytes, or an exact sum in a format
of R461. -/
inductive WOp where
  | store (bytes : List Byte)
  | rmw (opc size : Nat) (c d : Nat)
  | redx (fmt : Nat) (x : Nat)
  deriving DecidableEq, Repr

/-- A committed write that its home has not accepted (R173, R198, R380): its core and activation, the address and mode, the
operation and its location; the cycle from which it is sent again, and the RETRYs it has had (R60); for an `.o` operation its
number, and whether it waits in the reorder buffer of its home (R220); whether a load of its activation has read it (R197, R212). -/
structure LateW where
  cid : Nat
  aid : Nat
  va : Nat
  super : Bool
  loc : Nat
  op : WOp
  due : Nat
  tries : Nat := 0
  num : Option Nat := none
  held : Bool := false
  seen : Bool := false
  deriving DecidableEq, Repr

/-- What a swap out saves: its sites; packets that wait for a resend or behind one; BARW waiters, and those of completed network
barriers; writes that their homes have still to accept. -/
structure Context where
  sites : List SavedSite := []
  pkts : Tab Packet := []
  bwait : List BWait := []
  bdone : List BWait := []
  late : List LateW := []
  deriving DecidableEq, Repr

/-- A partition: its block's registers and root (R15, R23, R321, R356, R358, R363, R383). -/
structure Part where
  sites : List Nat := []
  epoch : Nat := 1
  hqe : Tab Word := []
  hqTail : Nat := 0
  hqHead : Nat := 0
  hqState : Nat := 0
  hqLaunch : Nat := 0
  run : Launch := {}
  swSt : Nat := 0
  swErr : Bool := false
  swT : Nat := 0
  /-- Partition to swap in after the swap out of an exchange (R363). -/
  swOther : Option Nat := none
  saved : Context := {}
  pfsBase : Word := 0x0200000000000000#64
  pfsTgt : Word := 0
  pfsHead : Tab Nat := []
  pfsTail : Tab Nat := []
  fcVpn : Nat := 0
  notices : List Notice := []
  pcie : BitVec 16 := 0
  deriving DecidableEq, Repr

/-- A management controller (R389, R390): firmware running, recovery loader running. -/
structure Mgmt where
  fw : Bool := false
  rec_ : Bool := false
  /-- Retirement candidates and core stops reported. -/
  reports : List Nat := []
  /-- Collectors, with the partition, whose ring write a translation has refused (R357). -/
  ringFaults : List (Nat × Nat) := []
  deriving DecidableEq, Repr

/-- The module. -/
structure Module where
  /-- Cycles since power-on. -/
  time : Nat := 0
  powered : Bool := true
  /-- Cycle in which the first site was MESHED: the origin of the fabric time (R315, R388). -/
  fab : Option Nat := none
  mem : List Host.Cell := []
  /-- Quarantined 32-bit words, by byte location (R90), rising. -/
  quar : List Nat := []
  sites : Tab Site := []
  cores : Tab Core := []
  phys : Tab Phys := []
  tiles : Tab Tile := []
  groups : Tab Group := []
  parts : Tab Part := []
  pkts : Tab Packet := []
  nextPkt : Nat := 0
  /-- Packets injected so far. -/
  nextInj : Nat := 0
  flits : List Flit := []
  /-- Stream credits on their way back: sender core, stream, words (R312). -/
  credits : List (Nat × Nat × Nat) := []
  bwait : List BWait := []
  /-- Waiters of completed network barriers that the completion multicast has still to reach (R231). -/
  bdone : List BWait := []
  /-- Records held by the nine collectors, with the reporting site (R316). -/
  coll : Tab (List (Nat × TrapRec)) := []
  /-- Committed writes that their homes have not accepted yet: resent until accepted (R380). -/
  late : List LateW := []
  /-- Recalls that a home defers for an LDRS (R223): the line, the core that holds it, and whether for a write. -/
  recalls : List (Nat × Nat × Bool) := []
  /-- Words struck by an error that no read has found yet (R90): the location, and whether it is uncorrectable. -/
  upsets : List (Nat × Bool) := []
  /-- Outgoing packets at Tamvex ports. -/
  outbox : List (Nat × Packet) := []
  tvx : Tab (BitVec 32) := []
  peers : Tab (BitVec 32) := []
  /-- Host ports: 0 untrained, 1 CXL 3.2, 2 PCIe only (R384). -/
  pcie : Tab Nat := []
  /-- MSI-X vectors raised: port and vector, newest first. -/
  msi : List (Nat × Nat) := []
  tokcnt : Word := 0
  /-- Fuses: the hash of the owner's key, once installed (R391); the hash of Fenham's key and the rollback counter (R390). -/
  ownerHash : Option (BitVec 256) := none
  fenhamHash : BitVec 256 := 0
  rollback : Nat := 0
  badTokens : Nat := 0
  modnum : BitVec 16 := 0
  mgmt : Tab Mgmt := []
  clamp : Bool := false
  deriving DecidableEq, Repr

/-! ## The machine -/

/-- An open group (R77–R80): the module at the commit point; the unconsumed entries of the two queues, each with the number
of its instruction in the group; the instructions dispatched since the commit point; one more than the number of the
latest write (R77, R430), or 0; and the PC of a BRK whose BRKPT waits for the group's commit. -/
structure Group0 where
  base : Module
  ld : List (Nat × Word)
  sd : List (Nat × Word)
  n : Nat
  wrote : Nat
  brk : Option Word
  deriving DecidableEq, Repr

/-- A word that an error strikes (R90, R263): of LM or DRAM by location, of a register of an activation (k for gk, 32 + k for vk),
of a block of group memory, of the latch of a slot by 32-bit word of its image, or of an accumulator. -/
inductive Struck where
  | word (loc : Nat)
  | reg (cid key k : Nat)
  | block (gid b : Nat)
  | latch (tile slot word : Nat)
  | acc (tile i : Nat)
  deriving DecidableEq, Repr

/-- What moves next: an event of the machine, the next instruction of a context, cycles that pass, an error of a coded word,
single-bit or uncorrectable (R90), the failure of the LM bank that a creation is writing (R515), a store of the host to its own memory
(R385), or the installation of the owner's key by its hash (R391). -/
inductive Move where
  | event (i : Instr)
  | run (cid ctx : Nat)
  | elapse (n : Nat)
  | upset (at_ : Struck) (hard : Bool)
  | bankFails (cid slot bank : Nat)
  | hostStore (pa : Nat) (bytes : List Byte)
  | ownerKey (hash : BitVec 256)
  deriving DecidableEq, Repr

/-- The state of the machine. `cid` and `ctx` name the focused context, whose instruction `exec` performs. `agenda` is
the order in which agents move; the three are the model's own. -/
structure State where
  m : Module
  cid : Nat
  ctx : Nat
  open_ : Option Group0
  agenda : List Move
  deriving DecidableEq, Repr

/-- The module right after reset: powered, every site DARK, nothing listed.
DESIGN CHOICE (log 7); DEDUCED (log 9); DESIGN CHOICE (log 10). -/
def State.reset : State :=
  { m := {}, cid := 0, ctx := 0, open_ := none, agenda := [] }

end Sys2Proof.Machine
end

