-- ==== Sys2Proof/Machine/Place.lean ====
section
/-!
DEFINITION. Where things are: the tables of the state by name, sites, logical and physical cores (R8–R18), partitions,
VCNs and handles (R15–R26), windows (R27) and home maps (R172).
-/
namespace Sys2Proof.Machine

/-- The code of a cause (R344). -/
def Cause.code : Cause → Nat
  | .illop => 0x01 | .badline => 0x02 | .badtgt => 0x03 | .badopnd => 0x04 | .priv => 0x05 | .deadreg => 0x06
  | .deadbank => 0x07 | .misalign => 0x08 | .guard => 0x09 | .page => 0x0A | .perm => 0x0B | .badhandle => 0x0C
  | .pkey => 0x0D | .uncorr => 0x0E | .budget => 0x0F | .hblock => 0x10 | .miglive => 0x11 | .stepped => 0x12
  | .brkpt => 0x13 | .late => 0x14 | .staletbl => 0x15 | .span => 0x16 | .barbusy => 0x17 | .oospace => 0x18
  | .streambrk => 0x19 | .noroute => 0x1A

/-! ## Tables by name -/

def Module.core (m : Module) (cid : Nat) : Core := Tab.get {} m.cores cid
def Module.setCore (m : Module) (cid : Nat) (c : Core) : Module := { m with cores := Tab.put m.cores cid c }
def Module.onCore (m : Module) (cid : Nat) (f : Core → Core) : Module := m.setCore cid (f (m.core cid))
def Module.site (m : Module) (s : Nat) : Site := Tab.get {} m.sites s
def Module.setSite (m : Module) (s : Nat) (x : Site) : Module := { m with sites := Tab.put m.sites s x }
def Module.onSite (m : Module) (s : Nat) (f : Site → Site) : Module := m.setSite s (f (m.site s))
def Module.tile (m : Module) (t : Nat) : Tile := Tab.get {} m.tiles t
def Module.setTile (m : Module) (t : Nat) (x : Tile) : Module := { m with tiles := Tab.put m.tiles t x }
def Module.onTile (m : Module) (t : Nat) (f : Tile → Tile) : Module := m.setTile t (f (m.tile t))
def Module.group (m : Module) (g : Nat) : Group := Tab.get {} m.groups g
def Module.setGroup (m : Module) (g : Nat) (x : Group) : Module := { m with groups := Tab.put m.groups g x }
def Module.onGroup (m : Module) (g : Nat) (f : Group → Group) : Module := m.setGroup g (f (m.group g))
def Module.part (m : Module) (p : Nat) : Part := Tab.get {} m.parts p
def Module.setPart (m : Module) (p : Nat) (x : Part) : Module := { m with parts := Tab.put m.parts p x }
def Module.onPart (m : Module) (p : Nat) (f : Part → Part) : Module := m.setPart p (f (m.part p))
def Module.phy (m : Module) (p : Nat) : Phys := Tab.get {} m.phys p
def Module.setPhy (m : Module) (p : Nat) (x : Phys) : Module := { m with phys := Tab.put m.phys p x }
def Module.onPhy (m : Module) (p : Nat) (f : Phys → Phys) : Module := m.setPhy p (f (m.phy p))

def Core.ctx (c : Core) (k : Nat) : Ctx := Tab.get {} c.ctxs k
def Core.setCtx (c : Core) (k : Nat) (x : Ctx) : Core := { c with ctxs := Tab.put c.ctxs k x }
def Core.onCtx (c : Core) (k : Nat) (f : Ctx → Ctx) : Core := c.setCtx k (f (c.ctx k))
def Core.act (c : Core) (key : Nat) : Act := Tab.get {} c.acts key
def Core.setAct (c : Core) (key : Nat) (a : Act) : Core := { c with acts := Tab.put c.acts key a }
def Core.onAct (c : Core) (key : Nat) (f : Act → Act) : Core := c.setAct key (f (c.act key))
def Core.delAct (c : Core) (key : Nat) : Core := { c with acts := Tab.del c.acts key }
def Module.act (m : Module) (cid key : Nat) : Act := (m.core cid).act key
def Module.onAct (m : Module) (cid key : Nat) (f : Act → Act) : Module := m.onCore cid (·.onAct key f)

/-- Reply slots that committed writes hold until their homes accept them: one for each line of each activation, since a further write to
the line is not yet sent (R198, R301). -/
def Module.lateSlots (m : Module) (cid : Nat) : Nat :=
  ((m.late.filter (·.cid == cid)).map fun w => (w.aid, w.loc / 64)).eraseDups.length
/-- The lowest free one of a core's 64 reply slots (R301). -/
def Module.freeReply (m : Module) (cid : Nat) : Option Nat :=
  let l := (m.core cid).ni.slots
  if 64 ≤ l.length + m.lateSlots cid then none else (upFrom 0 64).find? fun k => (Tab.find l k).isNone

/-! ## Geometry (R8–R12, R17) -/

def siteOf (cid : Nat) : Nat := cid / 128
def logOf (cid : Nat) : Nat := cid % 128
/-- Tile number 16·site + 4·group + tile of a core. -/
def tileOf (cid : Nat) : Nat := cid / 8
def slotOf (cid : Nat) : Nat := cid % 8
def groupOf (cid : Nat) : Nat := cid / 32
def siteX (s : Nat) : Nat := s % 18
def siteY (s : Nat) : Nat := s / 18

/-- LPCT entry L of a site; at reset PPOS = L mod 8 and V = 0 (R18). -/
def Module.lpct (m : Module) (s l : Nat) : Lpct := Tab.get ⟨l % 8, false, 0⟩ (m.site s).lpct l
/-- Physical core of tile t of a site at position q (R11): 144·site + 36·group + 9·tile + q. -/
def physAt (s l q : Nat) : Nat := 144 * s + 36 * (l / 32) + 9 * (l / 8 % 4) + q
/-- The physical core bound to a logical core. -/
def Module.pid (m : Module) (cid : Nat) : Nat := physAt (siteOf cid) (logOf cid) (m.lpct (siteOf cid) (logOf cid)).ppos

/-- Right and left ring neighbours (R12). -/
def rightOf (cid : Nat) : Nat := cid / 8 * 8 + (cid % 8 + 1) % 8
def leftOf (cid : Nat) : Nat := cid / 8 * 8 + (cid % 8 + 7) % 8

/-- A site is live when READY (R13). -/
def Module.live (m : Module) (s : Nat) : Bool := decide (s < 324) && (m.site s).state == 6

/-- The partition of a core's site, its number of sites n, and VCN 128·PSI + L (R16, R17). -/
def Module.partOf (m : Module) (s : Nat) : Part :=
  match (m.site s).part with
  | some p => m.part p
  | none => {}
def Module.nOf (m : Module) (s : Nat) : Nat := (m.partOf s).sites.length
def Module.vcn (m : Module) (cid : Nat) : Nat := 128 * (m.site (siteOf cid)).psi + logOf cid
/-- A logical core with no valid binding, or vacant until a reshape (R17). -/
def Module.vacant (m : Module) (cid : Nat) : Bool :=
  !(m.lpct (siteOf cid) (logOf cid)).v || (m.site (siteOf cid)).vacant.contains (logOf cid)
/-- The site of a PSI in the partition of site s. -/
def Module.siteOfPsi (m : Module) (s psi : Nat) : Option Nat := (m.partOf s).sites[psi]?
/-- The core of a VCN in the partition of site s; none at or above 128·n, and none where vacant (R17, R29). -/
def Module.coreOfVcn (m : Module) (s vcn : Nat) : Option Nat :=
  match m.siteOfPsi s (vcn / 128) with
  | some t => if m.vacant (128 * t + vcn % 128) then none else some (128 * t + vcn % 128)
  | none => none

/-- Traffic for a core is held while its binding changes (R21, R369). -/
def Module.coreHeld (m : Module) (cid : Nat) : Bool :=
  (m.core cid).quiet || (m.site (siteOf cid)).rbusy.any fun r => r.l == logOf cid

/-- A core that dispatches: its site is live, its binding valid and its VCN not vacant, and no remap or swap holds it (R13, R17,
R21, R364). DEDUCED (log 27). -/
def Module.mayIssue (m : Module) (cid : Nat) : Bool :=
  m.powered && m.live (siteOf cid) && !m.vacant cid && !(m.core cid).quiet

/-- A core that starts work: its partition is resident, and no pre-emption or retirement holds the core (R364, R369).
DEDUCED (log 27). -/
def Module.mayStart (m : Module) (cid : Nat) : Bool :=
  m.mayIssue cid && (m.partOf (siteOf cid)).swSt == 0 && !m.coreHeld cid

/-! ## Handles (R22–R26) -/

/-- HandleCheck (R22). -/
def handleCheck (h : Word) : Nat :=
  let t := (bits h 15 0 * 0x2D4B + bits h 31 16 * 0x6A5F + bits h 47 32 * 0x1F3B + 0xA5C3) % 65536
  t ^^^ (t >>> 7)

/-- The handle of a VCN, module and epoch. -/
def mkHandle (vcn mod gen : Nat) : Word :=
  let h := BitVec.ofNat 64 (vcn % 65536 + (mod % 65536) * 2 ^ 16 + (gen % 65536) * 2 ^ 32)
  BitVec.ofNat 64 (h.toNat + handleCheck h * 2 ^ 48)

/-- A core's own handle (R26). -/
def Module.selfHandle (m : Module) (cid : Nat) : Word :=
  mkHandle (m.vcn cid) m.modnum.toNat (m.site (siteOf cid)).epoch

/-- TVX_CTL fields (R387). -/
def tvxEn (w : BitVec 32) : Bool := bit w 0
def tvxPart (w : BitVec 32) : Nat := bits w 6 1
def tvxMod (w : BitVec 32) : Nat := bits w 22 7
/-- A configured peer: some enabled port's TVX_CTL or some valid PEER_MAP entry names it. R24 does not say what makes a module one.
DESIGN CHOICE (log 149). -/
def Module.isPeer (m : Module) (mod : Nat) : Bool :=
  m.peers.any (fun e => bit e.2 31 && bits e.2 15 0 == mod) || m.tvx.any (fun e => tvxEn e.2 && tvxMod e.2 == mod)

/-- The checks of R24, for a handle consumed by a core of site s. -/
def Module.handleOk (m : Module) (s : Nat) (h : Word) : Bool :=
  let vcn := bits h 15 0; let mod := bits h 31 16; let gen := bits h 47 32
  bits h 63 48 == handleCheck h && gen ≠ 0 && mod ≠ 0xFFFF &&
    (if mod == m.modnum.toNat then gen == (m.site s).epoch && (m.coreOfVcn s vcn).isSome else m.isPeer mod)

/-! ## Windows (R27) -/

/-- The windows. -/
inductive Window where
  | local_ | near | group | cfg | lmseg | ilv | seg | sys
  deriving DecidableEq, Repr

/-- The window of an address and the offset in it; none outside every extent (R27). -/
def windowOf (a : Nat) : Option (Window × Nat) :=
  if a < 2 ^ 19 then some (.local_, a)
  else if 2 ^ 32 ≤ a ∧ a < 2 ^ 32 + 2 ^ 26 then some (.near, a - 2 ^ 32)
  else if 2 ^ 33 ≤ a ∧ a < 2 ^ 33 + 2 ^ 23 then some (.group, a - 2 ^ 33)
  else if 2 ^ 35 ≤ a ∧ a < 2 ^ 35 + 2 ^ 33 then some (.cfg, a - 2 ^ 35)
  else if 2 ^ 48 ≤ a ∧ a < 2 ^ 48 + 2 ^ 35 then some (.lmseg, a - 2 ^ 48)
  else if 2 ^ 53 ≤ a ∧ a < 2 ^ 54 then some (.ilv, a - 2 ^ 53)
  else if 2 ^ 54 ≤ a ∧ a < 2 ^ 54 + 2 ^ 49 then some (.seg, a - 2 ^ 54)
  else if 3 * 2 ^ 53 ≤ a ∧ a < 4 * 2 ^ 53 then some (.sys, a - 3 * 2 ^ 53)
  else none

/-- The index of the home map (R172). -/
def homeIndex (g : Nat) : Nat :=
  (g % 4096) ^^^ (g / 4096 % 4096) ^^^ (g / 2 ^ 24 % 4096) ^^^ (g / 2 ^ 36 % 2)

/-- IlvHome (R172), by the map of site s. -/
def Module.ilvHome (m : Module) (s : Nat) (off : Nat) : Option Nat :=
  let e := Tab.get 0 (m.site s).home (homeIndex (off / 65536 % 2 ^ 37))
  if bit e 15 then m.siteOfPsi s (bits e 8 0) else none

/-- What an address names for a core, before translation. -/
inductive Target where
  /-- LM of a core; the own core is LOCAL whatever the window (R28, R165). -/
  | lm (cid off : Nat)
  | group (off : Nat)
  | cfg (tgt off : Nat)
  /-- DRAM-backed: home site (R172). -/
  | dram (home : Nat)
  | sys
  /-- Outside every window: PAGE (R27). -/
  | nowhere
  /-- NOROUTE (R28, R29, R172). -/
  | noRoute
  deriving DecidableEq, Repr

/-- R27–R29, R31, R165, R172. -/
def Module.target (m : Module) (cid : Nat) (a : Nat) : Target :=
  match windowOf a with
  | none => .nowhere
  | some (.local_, o) => .lm cid o
  | some (.near, o) =>
    let c := siteOf cid * 128 + o / 2 ^ 19 % 128
    if m.vacant c then .noRoute else .lm c (o % 2 ^ 19)
  | some (.group, o) => .group o
  | some (.cfg, o) => .cfg (o / 2 ^ 24) (o % 2 ^ 24)
  | some (.lmseg, o) =>
    match m.coreOfVcn (siteOf cid) (o / 2 ^ 19) with
    | some c => .lm c (o % 2 ^ 19)
    | none => .noRoute
  | some (.ilv, o) =>
    match m.ilvHome (siteOf cid) o with
    | some h => .dram h
    | none => .noRoute
  | some (.seg, o) =>
    match m.siteOfPsi (siteOf cid) (o / 2 ^ 40) with
    | some h => .dram h
    | none => .noRoute
  | some (.sys, _) => .sys

/-! ## Routes (R292, R296, R297, R299) -/

def Module.nstOf (m : Module) (s d : Nat) : BitVec 16 := Tab.get 0 (m.site s).nst d
def Module.slalomOf (m : Module) (s k : Nat) : BitVec 16 := Tab.get 0 (m.site s).slalom k

/-- Direction (0 W, 1 S, 2 E, 3 N) and site of the next hop from `here` toward `to_`; none at the target. -/
def nextHop (net : Bool) (here to_ : Nat) : Option (Nat × Nat) :=
  let hx : Option (Nat × Nat) :=
    if siteX to_ < siteX here then some (0, here - 1) else if siteX here < siteX to_ then some (2, here + 1) else none
  let hy : Option (Nat × Nat) :=
    if siteY to_ < siteY here then some (1, here - 18) else if siteY here < siteY to_ then some (3, here + 18) else none
  if net then hy.orElse fun _ => hx else hx.orElse fun _ => hy

/-- A link that carries nothing: disabled (R299), or toward a site that is not live. DEDUCED (log 90). -/
def Module.linkOff (m : Module) (net : Bool) (here dir next : Nat) : Bool :=
  (m.site here).off.contains (4 * net.toNat + dir) || !m.live next

/-- Bytes of a packet on a link: header and payload. -/
def Packet.load (p : Packet) : Nat := 64 + p.len
/-- REQ-class buffer of the first output link that is taken, on one network: what stands at the site for that link. The model gives both
networks the same buffers, filled by the packets that are still at the site. DESIGN CHOICE (log 83). -/
def Module.linkUse (m : Module) (net : Bool) (s d : Nat) : Nat :=
  let dir (to_ : Nat) : Option Nat := (nextHop net s to_).map (·.1)
  ((m.pkts.filter fun e => e.2.phase == 1 && e.2.here == s && e.2.net == net
      && dir (if e.2.det then e.2.wpt else e.2.dsite) == dir d).map fun e => e.2.load).foldl (· + ·) 0

/-- The way a packet takes by the table of the site that injects it: its network, and the waypoint of a detour (R297). The entry for the
site itself is unused (R296). ADAPT takes the network whose first link has more room, and A on a tie. -/
def Module.wayOf (m : Module) (s d : Nat) : Bool × Option Nat :=
  let e := m.nstOf s d
  if s = d then (false, none)
  else
    match bits e 1 0 with
    | 1 => (true, none)
    | 2 => (decide (m.linkUse true s d < m.linkUse false s d), none)
    | 3 =>
      let x := m.slalomOf s (bits e 13 8)
      if !bit x 15 then (false, none)
      else
        let w := bits x 8 0
        if w = s then (false, none) else if w = d then (true, none) else (true, some w)
    | _ => (false, none)

/-- Every link from one site to another on one network carries packets; a route has at most 34 hops. -/
def Module.linksOk (m : Module) (net : Bool) (to_ : Nat) : Nat → Nat → Bool
  | 0, here => here = to_
  | f + 1, here =>
    match nextHop net here to_ with
    | none => true
    | some (dir, next) => !m.linkOff net here dir next && m.linksOk net to_ f next

/-- A packet from site s reaches site d. DEDUCED (log 88). -/
def Module.pathOk (m : Module) (s d : Nat) : Bool :=
  s = d ||
    match m.wayOf s d with
    | (net, none) => m.linksOk net d 36 s
    | (net, some w) => m.linksOk net w 36 s && m.linksOk false d 36 w

/-- A request from site s to site d and its reply both arrive; a reply that is lost ends as NOROUTE as well (R299).
DEDUCED (log 88). -/
def Module.reach (m : Module) (s d : Nat) : Bool := m.pathOk s d && m.pathOk d s

/-- The two edge sites that E-chiplet e faces, for e = 9·side + k (R9, R382). -/
def edgeSites (e : Nat) : List Nat :=
  let k := e % 9
  match e / 9 with
  | 0 => [18 * (2 * k), 18 * (2 * k + 1)]
  | 1 => [2 * k, 2 * k + 1]
  | 2 => [18 * (2 * k) + 17, 18 * (2 * k + 1) + 17]
  | _ => [306 + 2 * k, 306 + 2 * k + 1]

/-- The edge site through which the partition block of the partition with graph root r is reached (R516): that of the root's row, else
the other one that its E-chiplet faces, else one of the nearest west E-chiplet that faces a live site, the southern on a tie. -/
def Module.entrySite (m : Module) (r : Nat) : Option Nat :=
  let k := siteY r / 2
  let near := (upFrom 1 8).flatMap fun d => (if d ≤ k then edgeSites (k - d) else []) ++ if k + d < 9 then edgeSites (k + d) else []
  ((18 * siteY r) :: edgeSites k ++ near).find? m.live
/-- What the block chiplet of a partition injects reaches a site over net A from the entry point (R516). -/
def Module.blockReaches (m : Module) (part site : Nat) : Bool :=
  ((m.part part).sites.head?.bind m.entrySite).any (m.linksOk false site 36)

/-! ## Byte locations (R195) -/

def lmLoc (pid off : Nat) : Nat := pid * 2 ^ 19 + off
def dramLoc (site pa : Nat) : Nat := 2 ^ 64 + site * 2 ^ 53 + pa
/-- DESIGN CHOICE (log 12). -/
def hostLoc (pa : Nat) : Nat := 2 * 2 ^ 64 + pa
def Module.lmAt (m : Module) (cid off : Nat) : Nat := lmLoc (m.pid cid) off
/-- First byte location of the 64-byte line that holds a location. -/
def lineOf (loc : Nat) : Nat := loc / 64 * 64

end Sys2Proof.Machine
end

