-- ==== Sys2Proof/Machine/Mem.lean ====
section
/-!
DEFINITION. Memory as cells in canonical form, the LM of a core with the structures the device keeps in it (R35–R41, R85,
R87, R346, R352), writes and what they wake (R222, R224, R228), compressed DRAM (R373–R378) and stash lines (R184–R188).
-/
namespace Sys2Proof.Machine

/-! ## Cells -/

/-- The byte at a location; an unlisted byte reads 0. DESIGN CHOICE (log 11). -/
def Mem.get : List Host.Cell → Nat → Byte
  | [], _ => 0#8
  | (k, b) :: t, a => if k = a then b else Mem.get t a

/-- The cells with byte b at location a; a zero byte is not listed. -/
def Mem.put : List Host.Cell → Nat → Byte → List Host.Cell
  | [], a, b => if b = 0#8 then [] else [(a, b)]
  | (k, v) :: t, a, b =>
    if a < k then (if b = 0#8 then (k, v) :: t else (a, b) :: (k, v) :: t)
    else if a = k then (if b = 0#8 then t else (a, b) :: t)
    else (k, v) :: Mem.put t a b

/-- The canonical form: addresses strictly rising, no zero byte listed. -/
def Mem.wf : List Host.Cell → Bool
  | [] => true
  | [(_, b)] => b ≠ 0#8
  | (k, b) :: (k', b') :: t => b ≠ 0#8 && decide (k < k') && Mem.wf ((k', b') :: t)

/-- n bytes from a location. -/
def Mem.read (mem : List Host.Cell) (a : Nat) : Nat → List Byte
  | 0 => []
  | n + 1 => Mem.get mem a :: Mem.read mem (a + 1) n

/-- Bytes written from a location up. -/
def Mem.write (mem : List Host.Cell) (a : Nat) : List Byte → List Host.Cell
  | [] => mem
  | b :: bs => Mem.write (Mem.put mem a b) (a + 1) bs

/-- Zeroes n bytes: the cells of the range are dropped. -/
def Mem.zero (mem : List Host.Cell) (a n : Nat) : List Host.Cell := mem.filter fun c => c.1 < a || a + n ≤ c.1

/-- n bytes from location a replaced by f. -/
def Mem.fill (mem : List Host.Cell) (a n : Nat) (f : Nat → Byte) : List Host.Cell :=
  (mem.filter fun c => c.1 < a) ++ ((upFrom 0 n).filterMap fun i => if f i = 0#8 then none else some (a + i, f i))
    ++ mem.filter fun c => a + n ≤ c.1

def Module.rd (m : Module) (loc n : Nat) : List Byte := Mem.read m.mem loc n
def Module.rdNat (m : Module) (loc n : Nat) : Nat := leNat (m.rd loc n)

/-! ## Packed structures -/

/-- Bits [hi:lo] of a structure read as one number. -/
def fieldOf (x hi lo : Nat) : Nat := x / 2 ^ lo % 2 ^ (hi + 1 - lo)

/-- The 64 bytes of the control words (R36). -/
def Ctl.encode (c : Ctl) : List Byte :=
  leBytes 64 (c.pc.toNat + c.sw.toNat * 2 ^ 64 + c.liveg.toNat * 2 ^ 128 + c.livev.toNat * 2 ^ 160 + c.path.toNat * 2 ^ 176
    + c.cls.toNat * 2 ^ 179 + c.dom.toNat * 2 ^ 182 + c.hnd.toNat * 2 ^ 185 + c.joina.toNat * 2 ^ 192
    + c.budget.toNat * 2 ^ 256 + c.waitk.toNat * 2 ^ 288 + c.waita.toNat * 2 ^ 320 + c.waitv.toNat * 2 ^ 384
    + c.aidv.toNat * 2 ^ 448 + c.aids.toNat * 2 ^ 464)

/-- The bits of the status word that are not reserved (R94). -/
def swMask : Word := 0x0000FFFFFFFF1F7F#64

/-- The control words that 64 bytes hold (R36); reserved bits read as zero (R4). -/
def Ctl.decode (b : List Byte) : Ctl :=
  let x := leNat b
  { pc := BitVec.ofNat 64 (fieldOf x 63 0), sw := BitVec.ofNat 64 (fieldOf x 127 64) &&& swMask
    liveg := BitVec.ofNat 32 (fieldOf x 159 128), livev := BitVec.ofNat 16 (fieldOf x 175 160)
    path := BitVec.ofNat 3 (fieldOf x 178 176), cls := BitVec.ofNat 3 (fieldOf x 181 179)
    dom := BitVec.ofNat 3 (fieldOf x 184 182), hnd := fieldOf x 185 185 == 1
    joina := BitVec.ofNat 64 (fieldOf x 255 192), budget := BitVec.ofNat 32 (fieldOf x 287 256)
    waitk := BitVec.ofNat 4 (fieldOf x 291 288), waita := BitVec.ofNat 64 (fieldOf x 383 320)
    waitv := BitVec.ofNat 64 (fieldOf x 447 384), aidv := BitVec.ofNat 16 (fieldOf x 463 448)
    aids := BitVec.ofNat 32 (fieldOf x 495 464) }

/-- The identity of an activation as one number (R36). -/
def Ctl.aid (c : Ctl) : Nat := c.aidv.toNat * 2 ^ 32 + c.aids.toNat

/-- The 64 bytes of a fault record (R347). -/
def FaultRec.encode (r : FaultRec) : List Byte :=
  leBytes 64 (r.cause % 256 + r.sub % 256 * 2 ^ 8 + r.kind % 4 * 2 ^ 16 + r.v.toNat * 2 ^ 18 + r.pw.toNat * 2 ^ 19
    + r.l8.toNat * 2 ^ 20 + r.l9.toNat * 2 ^ 21 + r.disp % 4 * 2 ^ 22 + min r.lost 255 * 2 ^ 24 + r.seq % 65536 * 2 ^ 32
    + r.job % 65536 * 2 ^ 48 + r.pc.toNat * 2 ^ 64 + r.addr.toNat * 2 ^ 128 + r.vcn % 65536 * 2 ^ 192
    + r.psite % 512 * 2 ^ 208 + r.pcore % 256 * 2 ^ 217 + r.lgen % 2 ^ 32 * 2 ^ 256 + r.sseq % 2 ^ 32 * 2 ^ 288
    + r.svcn % 65536 * 2 ^ 320 + r.aidv % 65536 * 2 ^ 336 + r.aids % 2 ^ 32 * 2 ^ 352 + r.save8.toNat * 2 ^ 384
    + r.save9.toNat * 2 ^ 448)

/-- The fault record that 64 bytes hold (R347). -/
def FaultRec.decode (b : List Byte) : FaultRec :=
  let x := leNat b
  { cause := fieldOf x 7 0, sub := fieldOf x 15 8, kind := fieldOf x 17 16, v := fieldOf x 18 18 == 1
    pw := fieldOf x 19 19 == 1, l8 := fieldOf x 20 20 == 1, l9 := fieldOf x 21 21 == 1, disp := fieldOf x 23 22
    lost := fieldOf x 31 24, seq := fieldOf x 47 32, job := fieldOf x 63 48
    pc := BitVec.ofNat 64 (fieldOf x 127 64), addr := BitVec.ofNat 64 (fieldOf x 191 128), vcn := fieldOf x 207 192
    psite := fieldOf x 216 208, pcore := fieldOf x 224 217, lgen := fieldOf x 287 256, sseq := fieldOf x 319 288
    svcn := fieldOf x 335 320, aidv := fieldOf x 351 336, aids := fieldOf x 383 352
    save8 := BitVec.ofNat 64 (fieldOf x 447 384), save9 := BitVec.ofNat 64 (fieldOf x 511 448) }

/-! ## The LM areas of a core -/

/-- Workspace pointer of pool slot k (R41). -/
def Desc.wp (d : Desc) (k : Nat) : Nat := d.wsbase + k * 2 ^ d.wssz
def Core.cprBase (c : Core) : Nat := bits c.spec.cpr 18 13 * 0x2000
def Core.stashNb (c : Core) : Nat := bits c.spec.stash 3 0
def Core.stashFirst (c : Core) : Nat := bits c.spec.stash 7 4
def Core.frecBase (c : Core) : Nat := bits c.spec.frec 18 12 * 4096
def Core.frecEn (c : Core) : Bool := bit c.spec.frec 63
/-- Two byte ranges meet. -/
def meet (a n b k : Nat) : Bool := decide (a < b + k) && decide (b < a + n)

/-- The pool is enabled (R41, R89, R183, R346). -/
def Core.poolOk (c : Core) : Bool :=
  let d := c.desc
  let n := d.wsn * 2 ^ d.wssz
  11 ≤ d.wssz && d.wssz ≤ 14 && 3 ≤ d.wsn && d.wsn ≤ 64 && d.wsbase % 64 == 0 && d.wsbase + n ≤ 0x7E000
    && !meet d.wsbase n c.cprBase 0x2000
    && !(c.stashNb ≠ 0 && meet d.wsbase n (c.stashFirst * 0x8000) (c.stashNb * 0x8000))
    && !(c.frecEn && meet d.wsbase n c.frecBase 4096)

/-- WSFREE (R40). -/
def Desc.free (d : Desc) : Nat := (2 ^ min d.wsn 64 - 1) - (d.held.toNat % 2 ^ min d.wsn 64)

/-- The scheduler descriptor as one number (R40). -/
def Desc.word (d : Desc) : Nat :=
  d.wsbase % 2 ^ 19 + d.wssz % 16 * 2 ^ 32 + d.wsn % 128 * 2 ^ 40 + d.free * 2 ^ 64 + d.lifo % 64 * 2 ^ 128
    + d.fifo % 64 * 2 ^ 134 + d.n % 128 * 2 ^ 140

/-- A write to the descriptor's first dword; it is ignored as a whole while a slot is held (R41). -/
def Desc.store (d : Desc) (x : Nat) : Desc :=
  if d.held ≠ 0#64 then d else { d with wsbase := fieldOf x 18 0, wssz := fieldOf x 35 32, wsn := fieldOf x 46 40 }

/-- One LM byte as an agent reads it: the scheduler descriptor shows at 0x7_F800 (R40). -/
def Module.lmByte (m : Module) (cid off : Nat) : Byte :=
  if 0x7F800 ≤ off ∧ off < 0x7F840 then BitVec.ofNat 8 ((m.core cid).desc.word / 2 ^ (8 * (off - 0x7F800)))
  else Mem.get m.mem (m.lmAt cid off)

/-- n LM bytes from an offset. -/
def Module.lmRead (m : Module) (cid off n : Nat) : List Byte := (upFrom off n).map (m.lmByte cid)
def Module.lmNat (m : Module) (cid off n : Nat) : Nat := leNat (m.lmRead cid off n)

/-- The bits of byte k of the control words that a store may change (R36, R94). -/
def ctlMask (k : Nat) : Nat :=
  match k with
  | 8 => 0x7F
  | 9 => 0x1F
  | 14 | 15 | 37 | 38 | 39 | 62 | 63 => 0
  | 23 => 0x03
  | 36 => 0x0F
  | _ => 0xFF

/-- The workspaces of the supervisor activations of a core (R41): the trap activation and what is left of one. -/
def Core.supWorkspaces (c : Core) : List Nat := (c.acts.filter fun e => 64 ≤ e.1).map (·.2.wp)

/-- Which bits of an LM byte an agent's store may change: read-only fields and reserved bits of the structures the
device keeps in LM keep their value (R4, R36, R50, R87, R347). -/
def Core.writable (c : Core) (off : Nat) : Nat :=
  if 0x7F808 ≤ off ∧ off < 0x7F840 then 0
  else if 0x7FC40 ≤ off ∧ off < 0x80000 then (if (off - 0x7FC40) % 64 = 2 then 0xC0 else 0)
  else if 0x7E000 ≤ off ∧ off < 0x7F800 then
    match (off - 0x7E000) % 96 with
    | 20 => 0x3F
    | 21 | 22 | 23 => 0
    | _ => 0xFF
  else if c.cprBase ≤ off ∧ off < c.cprBase + 0x2000 then 0
  else if c.frecEn ∧ c.frecBase ≤ off ∧ off < c.frecBase + 4096 then (if off % 64 = 2 then 0xC0 else 0)
  else
    let d := c.desc
    if d.wsbase ≤ off ∧ off < d.wsbase + d.wsn * 2 ^ d.wssz then
      let k := (off - d.wsbase) % 2 ^ d.wssz
      if 1280 ≤ k ∧ k < 1344 then ctlMask (k - 1280) else 0xFF
    else
      match c.supWorkspaces.find? fun wp => wp + 1280 ≤ off && off < wp + 1344 with
      | some wp => ctlMask (off - wp - 1280)
      | none => 0xFF

/-- Two bytes merged under a mask. -/
def mergeByte (old new : Byte) (mask : Nat) : Byte :=
  (new &&& BitVec.ofNat 8 mask) ||| (old &&& ~~~ (BitVec.ofNat 8 mask))

/-! ## Banks (R84, R85, R90, R368) -/

/-- State of LM bank b as `c.lmst` shows it: 0 FULL, 1 RETAIN, 2 OFF, 3 waking. -/
def Phys.bank (p : Phys) (b : Nat) : Nat := bits p.lm (2 * b + 1) (2 * b)
def Phys.setBank (p : Phys) (b st : Nat) : Phys := { p with lm := setBits p.lm (2 * b + 1) (2 * b) st }

/-- The banks that a range of LM offsets touches. -/
def banksOf (off n : Nat) : List Nat := upFrom (off / 0x8000) ((off + n - 1) / 0x8000 + 1 - off / 0x8000)

/-- What an access meets at the banks of a range. -/
inductive BankRes where
  | ok (p : Phys)
  | off
  | failed
  | waking
  deriving DecidableEq, Repr

/-- One access to one bank: a RETAIN bank becomes FULL, and the access waits while the bank is waking (R86, R417).
DEDUCED (log 132). -/
def Phys.touch (p : Phys) (b : Nat) : BankRes :=
  if bit p.failed b then .failed
  else
    match p.bank b with
    | 0 => .ok p
    | 1 => .ok (p.setBank b 0)
    | 2 => .off
    | _ => .waking

def Phys.touchAll (p : Phys) : List Nat → BankRes
  | [] => .ok p
  | b :: bs =>
    match p.touch b with
    | .ok p' => p'.touchAll bs
    | r => r

/-- DEDUCED (log 132). -/
def Module.touchLm (m : Module) (cid off n : Nat) : BankRes := (m.phy (m.pid cid)).touchAll (banksOf off n)
/-- Every bank of a range holds its contents and no bank has failed. -/
def Module.lmUsable (m : Module) (cid off n : Nat) : Bool :=
  (banksOf off n).all fun b =>
    match (m.phy (m.pid cid)).touch b with
    | .ok _ => true
    | .waking => true
    | _ => false
/-- An access of the device itself brings the RETAIN banks of a range to FULL (R85, R86). -/
def Module.touched (m : Module) (cid off n : Nat) : Module :=
  match m.touchLm cid off n with
  | .ok p => if p = m.phy (m.pid cid) then m else m.setPhy (m.pid cid) p
  | _ => m
/-! ## What a write wakes -/

/-- The control words of an activation: in its window, or in its workspace (R38). -/
def Module.ctlOf (m : Module) (cid key : Nat) : Ctl :=
  let a := m.act cid key
  match a.win with
  | some w => w.ctl
  | none => Ctl.decode (m.rd (m.lmAt cid (a.wp + 1280)) 64)

/-- The device's own write of the control words, which brings their bank to FULL (R85); into a bank that holds nothing it writes
nothing. -/
def Module.setCtl (m : Module) (cid key : Nat) (c : Ctl) : Module :=
  let a := m.act cid key
  match a.win with
  | some w => m.onAct cid key fun a => { a with win := some { w with ctl := c } }
  | none =>
    if m.lmUsable cid (a.wp + 1280) 64 then
      { m.touched cid (a.wp + 1280) 64 with mem := Mem.write m.mem (m.lmAt cid (a.wp + 1280)) c.encode }
    else m

/-- SUSPENDED to READY (R44): class 4 (a supervisor activation keeps class 1), WAITK 0, the budget reloaded (R64); the
completed instruction's result waits for the next binding. While UPC = 1, WAITA and WAITV stay (R349). -/
def Module.wake (m : Module) (cid key : Nat) (r : Option Word) : Module :=
  let c := m.ctlOf cid key
  let c' := { c with cls := if c.cls = 1#3 ∧ c.path = 5#3 then 1#3 else 4#3, waitk := 0#4, budget := (m.core cid).spec.budget }
  let m := m.setCtl cid key c'
  m.onAct cid key fun a =>
    { a with st := .ready, since := m.time, aged := m.time, wait := .nothing,
             wb := match r with | some v => some (a.dst, v) | none => a.wb }

/-- The monitors of a waiting activation are free again. -/
def Core.dropMon (c : Core) (key : Nat) : Core := { c with mons := c.mons.filter (·.key ≠ key) }

/-- What firing one monitor does (R224): WAITRS ends with 0; the re-read of a JOIN is due. DESIGN CHOICE (log 31). -/
def Module.fire (m : Module) (cid key : Nat) : Module :=
  match (m.act cid key).wait with
  | .resv _ => (m.onCore cid (·.dropMon key)).wake cid key (some 0)
  | .join va pc mon _ => m.onAct cid key fun a => { a with wait := .join va pc mon (some m.time) }
  | _ => m

/-- A context without a reservation on a line that a written range meets. -/
def Ctx.dropResv (x : Ctx) (loc n : Nat) : Ctx :=
  match x.resv with
  | some r => if meet r.line 64 loc n then { x with resv := none } else x
  | none => x

/-- A core without reservations on the lines of a written range. -/
def Core.dropResv (c : Core) (loc n : Nat) : Core := { c with ctxs := c.ctxs.map fun e => (e.1, e.2.dropResv loc n) }

/-- The monitors that a written range fires: core and slot. -/
def Module.watched (m : Module) (loc n : Nat) : List (Nat × Nat) :=
  m.cores.flatMap fun e => (e.2.mons.filter fun o => meet o.line 64 loc n).map fun o => (e.1, o.key)

/-- Every reservation and monitor on the lines of a written range (R222, R224). DEDUCED (log 59). -/
def Module.noteLines (m : Module) (loc n : Nat) : Module :=
  let m' := { m with cores := m.cores.map fun e => (e.1, e.2.dropResv loc n) }
  (m.watched loc n).foldl (fun m p => m.fire p.1 p.2) m'

/-- The core and the offset that an LM location has, by the LPCT. -/
def Module.lmOwner (m : Module) (loc : Nat) : Option (Nat × Nat) :=
  let pid := loc / 2 ^ 19
  let first := pid / 144 * 128 + pid % 144 / 9 * 8
  ((upFrom first 8).find? fun c => (m.lpct (siteOf c) (logOf c)).v && m.pid c == pid).map fun c => (c, loc % 2 ^ 19)

/-- Waiters registered on barrier objects whose bytes a write touches: each becomes READY with 1 (R228). DEDUCED (log 59). -/
def Module.noteBars (m : Module) (loc n : Nat) : Module :=
  let (out, keep) := m.bwait.partition fun w => meet w.loc 32 loc n
  out.foldl (fun m w => m.wake w.cid w.key (some 1)) { m with bwait := keep }

/-- Writes of whole 32-bit words clear their quarantine (R90). -/
def clearQuar (q : List Nat) (loc n : Nat) : List Nat := q.filter fun w => !(loc ≤ w && w + 4 ≤ loc + n)

/-- Writes of whole words leave no error in them. -/
def clearUpset (l : List (Nat × Bool)) (loc n : Nat) : List (Nat × Bool) := l.filter fun u => !(loc ≤ u.1 && u.1 + 4 ≤ loc + n)

/-- A write event on bytes of storage, with what it wakes. `bar` marks barrier operations and pending-byte decrements. -/
def Module.putBytes (m : Module) (loc : Nat) (bs : List Byte) (bar : Bool := false) : Module :=
  let n := bs.length
  let m := { m with mem := Mem.write m.mem loc bs, quar := clearQuar m.quar loc n, upsets := clearUpset m.upsets loc n }
  let m := m.noteLines loc n
  if bar then m else m.noteBars loc n

/-- An agent's store to LM: masked by read-only fields, the descriptor's first dword through its own rule. -/
def Module.lmStore (m : Module) (cid off : Nat) (bs : List Byte) (bar : Bool := false) : Module :=
  let c := m.core cid
  let n := bs.length
  let old := m.lmRead cid off n
  let bs' := ((upFrom off n).zip (old.zip bs)).map fun (o, ob, nb) => mergeByte ob nb (c.writable o)
  if meet off n 0x7F800 8 then
    let cur := m.lmRead cid 0x7F800 8
    let new := (upFrom 0x7F800 8).map fun o =>
      if off ≤ o ∧ o < off + n then bs'.getD (o - off) 0#8 else cur.getD (o - 0x7F800) 0#8
    ((m.onCore cid fun c => { c with desc := c.desc.store (leNat new) }).noteLines (m.lmAt cid off) n).noteBars (m.lmAt cid off) n
  else m.putBytes (m.lmAt cid off) bs' bar

/-! ## The device and LM -/

/-- The device's own write to LM: whole, unmasked. -/
def Module.lmPut (m : Module) (cid off : Nat) (bs : List Byte) : Module :=
  (m.touched cid off bs.length).putBytes (m.lmAt cid off) bs
/-- A quarantined word in a range of locations (R90). DEDUCED (log 58). -/
def Module.bad (m : Module) (loc n : Nat) : Bool :=
  m.quar.any (fun w => meet w 4 loc n) || m.upsets.any fun u => u.2 && meet u.1 4 loc n

/-! ## Compressed DRAM (R373–R379) -/

/-- Backing bytes of a 64-byte line: none for a line of zeros (R373). DESIGN CHOICE (log 14). -/
def lineNeed (b : List Byte) : Nat :=
  if b.all (· == 0#8) then 0 else min 64 (max 1 (Config.lineBacking b))

/-- Units of 4 KiB. -/
def unitsOf (n : Nat) : Nat := (n + 4095) / 4096
def Mc.resvUnits (c : Mc) : Nat := (c.resv.map fun r => unitsOf r.2).foldl (· + ·) 0
/-- FREE (R373). -/
def Mc.free (c : Mc) : Nat := 6291456 - c.resvUnits - unitsOf c.bytes
/-- The exposed range in bytes (R373). -/
def Mc.range (c : Mc) : Nat := 3 * 2 ^ 30 * c.fact
def Mc.reserved (c : Mc) (pa : Nat) : Bool := c.resv.any fun r => r.1 ≤ pa && pa < r.1 + r.2
def Mc.spilled (c : Mc) (line : Nat) : Bool := c.spill.any (·.1 == line)
/-- The spill buffer with other lines; below 1,024 the OOSPACE episode is over (R379). -/
def Mc.withSpill (c : Mc) (l : List (Nat × List Byte)) : Mc := { c with spill := l, episode := c.episode && 1024 ≤ l.length }
/-- FREE at HIGH or above ends the balloon engine's work (R376). -/
def Mc.settle (c : Mc) : Mc := { c with active := c.active && c.free < c.high }

/-- Placing a write that makes a line's need go from `old` to `new` (R378): into backing, else into the spill buffer,
else refused. A line that moves out of the buffer takes backing for all of it; one that shrinks never waits. -/
def Mc.place (c : Mc) (line old new : Nat) (data : List Byte) : Option Mc :=
  if c.reserved (line * 64) then some c
  else
    let rest := c.spill.filter (·.1 ≠ line)
    let old := if c.spilled line then 0 else old
    let c' := { c with bytes := c.bytes - old + new }
    if new ≤ old || decide (c.resvUnits + unitsOf c'.bytes ≤ 6291456) then some (c'.withSpill rest).settle
    else if c.spilled line then some { c with spill := c.spill.map fun e => if e.1 = line then (line, data) else e }
    else if c.spill.length < 1024 then some { c with bytes := c.bytes - old, spill := c.spill ++ [(line, data)] }
    else none

/-! ## Errors of single words (R90, R368) -/

/-- A quarantined word, in rising order. DEDUCED (log 44). -/
def quarAdd (l : List Nat) (a : Nat) : List Nat :=
  match l with
  | [] => [a]
  | x :: t => if a < x then a :: x :: t else if a = x then x :: t else x :: quarAdd t a

/-- The site that a location's word belongs to. -/
def siteOfLoc (loc : Nat) : Nat := (loc - 2 ^ 64) / 2 ^ 53
def paOfLoc (loc : Nat) : Nat := (loc - 2 ^ 64) % 2 ^ 53
/-- The word stands in the LM of a physical core. -/
def isLm (loc : Nat) : Bool := decide (loc < 46656 * 2 ^ 19)
def siteOfWord (loc : Nat) : Nat := if isLm loc then loc / 2 ^ 19 / 144 else siteOfLoc loc

/-- A word is found uncorrectable: quarantined and counted, and a bank of LM with a 17th such word fails (R90, R368). -/
def Module.wordLost (m : Module) (loc : Nat) : Module :=
  let m := { m with quar := quarAdd m.quar loc }
  let m := m.onSite (siteOfWord loc) fun x => { x with errU := x.errU + 1 }
  if isLm loc then
    let a := loc / 0x8000 * 0x8000
    let n := (m.quar.filter fun q => a ≤ q && q < a + 0x8000).length
    if 16 < n then
      m.onPhy (loc / 2 ^ 19) fun p => { p with failed := setBits p.failed (a % 2 ^ 19 / 0x8000) (a % 2 ^ 19 / 0x8000) 1, cand := true }
    else m
  else m

/-- A read of n bytes finds the errors that have struck its words (R90): a single-bit error is corrected and counted, an
uncorrectable one quarantines its word. -/
def Module.inspect (m : Module) (loc n : Nat) : Module :=
  let (found, rest) := m.upsets.partition fun u => meet u.1 4 loc n
  found.foldl
    (fun m u => if u.2 then m.wordLost u.1 else m.onSite (siteOfWord u.1) fun x => { x with errC := x.errC + 1 })
    { m with upsets := rest }

/-! ## The supervisor queue (R352, R514) -/

def supOff (i : Nat) : Nat := 0x7FC40 + 64 * i
/-- Entry i of a core's supervisor queue. -/
def Module.supEntry (m : Module) (cid i : Nat) : FaultRec := FaultRec.decode (m.lmRead cid (supOff i) 64)

/-- Writes a record into the entry after the last one written; none while that entry is unconsumed. -/
def Module.pushSup (m : Module) (cid : Nat) (r : FaultRec) : Option Module :=
  let q := (m.core cid).sup
  if (m.supEntry cid q.next).v then none
  else
    let m := m.lmPut cid (supOff q.next) ({ r with v := true, lost := q.lost }).encode
    some (m.onCore cid fun c => { c with sup := { q with next := (q.next + 1) % 15, lost := 0 } })

/-- Who and where, for a record about core `cid`. -/
def Module.stamp (m : Module) (cid : Nat) (r : FaultRec) : FaultRec :=
  { r with vcn := m.vcn cid, psite := siteOf cid, pcore := m.pid cid % 144, lgen := (m.site (siteOf cid)).lgen.toNat }

/-- A containment record (KIND 2), dropped and counted when there is no room. DEDUCED (log 24); DEDUCED (log 93). -/
def Module.contain (m : Module) (cid : Nat) (r : FaultRec) : Module :=
  match m.pushSup cid (m.stamp cid { r with kind := 2 }) with
  | some m' => m'
  | none => m.onCore cid fun c => { c with sup := { c.sup with lost := c.sup.lost + 1 } }

/-- The core whose supervisor queue is a site's queue (R514). -/
def Module.siteCore (m : Module) (s : Nat) : Option Nat :=
  ((upFrom 0 128).find? fun l => !m.vacant (128 * s + l)).map (128 * s + ·)

/-- A containment record of a site as a whole (R514). -/
def Module.siteContain (m : Module) (s : Nat) (r : FaultRec) : Module :=
  match m.siteCore s with
  | some c => m.contain c r
  | none => m.onSite s fun x => { x with dropped := x.dropped + 1 }

/-- The next SEQ of a core's packets and records (R319). DEDUCED (log 92). -/
def Module.takeSeq (m : Module) (cid : Nat) : BitVec 32 × Module :=
  let q := (m.core cid).ni.seq
  (q, m.onCore cid fun c => { c with ni := { c.ni with seq := q + 1#32 } })

/-- One more RETRY is counted (R373). -/
def Mc.retry (c : Mc) : Mc := { c with retries := min (c.retries + 1) (2 ^ 32 - 1) }

/-- A write refused for want of room: a RETRY is counted and, once per episode with the balloon pool idle, an OOSPACE record names its
line (R373, R379). -/
def Module.noRoom (m : Module) (loc : Nat) : Module :=
  let s := siteOfLoc loc
  let c := (m.site s).mc
  let m := m.onSite s fun x => { x with mc := c.retry }
  if !c.episode && (!c.ben || c.bhead == c.btail) then
    (m.siteContain s { cause := Cause.oospace.code, addr := BitVec.ofNat 64 (paOfLoc (lineOf loc)) }).onSite s
      fun x => { x with mc := { x.mc with episode := true } }
  else m

/-! ## Stash lines (R184–R188) -/

/-- The line of core `cid` at a line location, in its stash or its atomic line. -/
def Core.held (c : Core) (line : Nat) : Option SLine :=
  match Tab.find c.stash line with
  | some x => some x
  | none => Tab.find c.atom line

/-- A core's line changed where it holds it. -/
def Core.onLine (c : Core) (line : Nat) (f : SLine → SLine) : Core :=
  let upd (t : Tab SLine) : Tab SLine :=
    match Tab.find t line with
    | some x => Tab.put t line (f x)
    | none => t
  { c with stash := upd c.stash, atom := upd c.atom }

/-- The reservations and monitors of one core on a line that leaves it (R222, R224). -/
def Module.loseLine (m : Module) (cid line : Nat) : Module :=
  let c := m.core cid
  let hit := c.mons.filter fun o => meet o.line 64 line 1
  let m := m.onCore cid fun c => { c.dropResv line 1 with stash := Tab.del c.stash line, atom := Tab.del c.atom line }
  hit.foldl (fun m o => m.fire cid o.key) m

/-- A core's line in a new state; in state 0 it is gone. -/
def Module.setLine (m : Module) (cid line st : Nat) : Module :=
  if st = 0 then m.loseLine cid line else m.onCore cid fun c => c.onLine line fun x => { x with st := st }

/-- How a home answers an access to a line: performed; no room (R378); or not before a core has given the line up (R223). -/
inductive HomeRes (α : Type) where
  | ok (a : α) (m : Module)
  | full (line : Nat)
  | defer (line cid : Nat) (write : Bool)

/-- The answer followed by a further operation. -/
def HomeRes.bind {α β : Type} (x : HomeRes α) (f : α → Module → HomeRes β) : HomeRes β :=
  match x with
  | .ok a m => f a m
  | .full l => .full l
  | .defer l c w => .defer l c w
/-- The operation for every element of a list. -/
def HomeRes.each {β : Type} (f : β → Module → HomeRes Unit) : List β → Module → HomeRes Unit
  | [], m => .ok () m
  | b :: bs, m => (f b m).bind fun _ m => HomeRes.each f bs m

/-- Backing of a home's line as accounted: none for a spilled line (R378). -/
def Module.lineBacked (m : Module) (line : Nat) : Nat :=
  if (m.site (siteOfLoc line)).mc.spilled (paOfLoc line / 64) then 0 else lineNeed (m.rd line 64)

/-- A line's 64 bytes, with the words among them that are uncorrectable, placed at its home (R378). None while it has no room.
A modified copy replaces the whole line, and with it the errors that had struck the home's. -/
def Module.placeLine (m : Module) (line : Nat) (data : List Byte) (bad : List Nat) (whole : Bool := true) : Option Module :=
  let s := siteOfLoc line
  ((m.site s).mc.place (paOfLoc line / 64) (m.lineBacked line) (lineNeed data) data).map fun mc =>
    { (m.onSite s fun y => { y with mc := mc }) with
      mem := Mem.write m.mem line data, quar := bad.foldl quarAdd (clearQuar m.quar line 64)
      upsets := if whole then clearUpset m.upsets line 64 else m.upsets }

/-- A dirty line's write-back reaches its home, and the line's state there changes (R186). `full` while the home has no room: the
line then stays held (R380). DEDUCED (log 57). -/
def Module.writeBack (m : Module) (cid line : Nat) (st : Nat) : HomeRes Unit :=
  match (m.core cid).held line with
  | none => .ok () m
  | some x =>
    if x.st = 3 then
      match m.placeLine line x.data x.bad with
      | some m => .ok () (m.setLine cid line st)
      | none => .full line
    else .ok () (m.setLine cid line st)

/-- The cores that hold a line. -/
def Module.holders (m : Module) (line : Nat) : List Nat :=
  (m.cores.filter fun e => (e.2.held line).isSome).map (·.1)
/-- The core that holds a line modified, and the line. -/
def Module.dirtyAt (m : Module) (line : Nat) : Option (Nat × SLine) :=
  m.cores.findSome? fun e => ((e.2.held line).filter (·.st == 3)).map fun x => (e.1, x)

/-- The home defers the recall of a line that a context of the core, other than `who`, holds reserved (R223).
DESIGN CHOICE (log 71). -/
def Core.defers (c : Core) (time line : Nat) (who : Option Nat) : Bool :=
  c.ctxs.any fun e =>
    some e.1 ≠ who && match e.2.resv with
      | some r => r.line == line && r.dram && decide (time < r.until_)
      | none => false

/-- The first core, beside `keep`, whose recall of a line is deferred. -/
def Module.deferrer (m : Module) (line : Nat) (keep : Option Nat) : Option Nat :=
  (m.holders line).find? fun c => some c ≠ keep && (m.core c).defers m.time line none

/-- The newest data of a line, and its uncorrectable words: those of a modified copy, or the home's. -/
def Module.lineNow (m : Module) (line : Nat) : List Byte × List Nat :=
  match m.dirtyAt line with
  | some (_, x) => (x.data, x.bad)
  | none => (m.rd line 64, m.quar.filter fun q => line ≤ q && q < line + 64)

/-- Every copy of a line but one core's is shared (R186): a modified one returns its data, and stays held while the home has no
room for them (R380). -/
def Module.share (m : Module) (line : Nat) (keep : Option Nat) : Module :=
  ((m.holders line).filter fun c => some c ≠ keep).foldl
    (fun m c =>
      match m.writeBack c line 1 with
      | .ok _ m => m
      | _ => m.noRoom line) m

/-- The lines (by location) of a DRAM range, and the pieces of bytes that lie in each. -/
def linesOf (loc n : Nat) : List Nat := (upFrom (loc / 64) ((loc + n - 1) / 64 + 1 - loc / 64)).map (· * 64)
/-- Bytes l of a line's image, from location a on, with those from location b on in their place. -/
def overlay (a : Nat) (l : List Byte) (b : Nat) (bs : List Byte) : List Byte :=
  (upFrom a l.length).zip l |>.map fun (k, x) => if b ≤ k ∧ k < b + bs.length then bs.getD (k - b) 0#8 else x

/-- A read at the home (R186): every modified copy is recalled first. It never waits for space (R378). -/
def Module.dramRead (m : Module) (loc n : Nat) : HomeRes (List Byte) :=
  let ls := linesOf loc n
  match ls.findSome? fun l => (m.deferrer l none).map fun c => (l, c) with
  | some (l, c) => .defer l c false
  | none =>
    let bs := ls.flatMap fun l => (m.lineNow l).1
    .ok ((bs.drop (loc % 64)).take n) (ls.foldl (fun m l => (m.share l none).inspect loc n) m)

/-- One line's part of a write at the home. -/
def Module.lineWrite (loc : Nat) (bs : List Byte) (l : Nat) (m : Module) : HomeRes Unit :=
  match m.deferrer l none with
  | some c => .defer l c true
  | none =>
    let (old, bad) := m.lineNow l
    match m.placeLine l (overlay l old loc bs) (clearQuar bad loc bs.length) (m.dirtyAt l).isSome with
    | some m => .ok () ((m.holders l).foldl (fun m c => m.loseLine c l) m)
    | none => .full l

/-- A write at the home (R186, R378): every copy is recalled and invalidated, the line is placed, the bytes land on the recalled
data. -/
def Module.dramWrite (m : Module) (loc : Nat) (bs : List Byte) (bar : Bool := false) : HomeRes Unit :=
  (HomeRes.each (Module.lineWrite loc bs) (linesOf loc bs.length) m).bind fun _ m => .ok () (m.putBytes loc bs bar)

/-- The bytes at a location in the newest copy of its lines. -/
def Module.now (m : Module) (loc n : Nat) : List Byte :=
  (((linesOf loc n).flatMap fun l => (m.lineNow l).1).drop (loc % 64)).take n
/-- A word of a range is uncorrectable in the newest copy (R90). -/
def Module.badNow (m : Module) (loc n : Nat) : Bool :=
  (linesOf loc n).any fun l =>
    (m.lineNow l).2.any (fun w => meet w 4 loc n) || ((m.dirtyAt l).isNone && m.upsets.any fun u => u.2 && meet u.1 4 loc n)

end Sys2Proof.Machine
end

