-- ==== Sys2Proof/Machine/Access.lean ====
section
/-!
DEFINITION. How an access ends, the supervisor queue (R352, R514), trap reports (R316–R318, R355), translation at the home
(R172–R182), LM checks (R28, R37, R39, R87, R166–R168, R184, R346), and the accesses of cores, engines and agents to LM and
DRAM-backed memory (R163–R188).
-/
namespace Sys2Proof.Machine

/-- What a fault leaves behind outside the faulting activation. -/
inductive Side where
  /-- The home's trap report for a PAGE (false) or PERM (true) of core `cid` on page `vpn` (R355). -/
  | trap (home : Nat) (perm : Bool) (va cid : Nat)
  /-- The same for a unit of a site that no core waits for (R323). -/
  | siteTrap (home : Nat) (perm : Bool) (va site : Nat)
  /-- The report of a copy command's stall (R273): KIND 2 or 3. -/
  | copyTrap (home : Nat) (perm : Bool) (cid job off : Nat) (addr : Word)
  /-- A malformed page-table entry met at this physical address (R177). -/
  | malformed (home pa : Nat)
  /-- The reply slot whose answer has been consumed (R301). -/
  | slot (cid k : Nat)
  /-- A broken send port, closed by the STREAMBRK of its writer (R314). -/
  | sport (cid aid : Nat)
  /-- A reservation that a faulting STC ends (R441). -/
  | resv (cid ctx : Nat)
  /-- Uncorrectable registers of an activation that a read has found (R90). -/
  | reg (cid key : Nat) (ks : List Nat)
  /-- Words of a tile's matrix unit that a read has found uncorrectable (R263). -/
  | marks (tile : Nat) (ks : List Nat)
  /-- The uncorrectable block of group memory that a read has found (R90). -/
  | block (gid b : Nat)
  /-- The errors that a read of n bytes has found (R90). -/
  | found (loc n : Nat)
  /-- The TLB entry that has denied an access (R181). -/
  | deny (home va : Nat)
  /-- A write performed at its place whose reply no route carries (R299). -/
  | wrote (loc : Nat) (bs : List Byte)
  /-- The n lines from `line` on that a faulting SMAP has filled (R457). -/
  | smap (cid who line n : Nat) (super : Bool)
  deriving DecidableEq, Repr

/-- A fault of an access or instruction. `pcAt` names another PC for the record where R104–R106 give one. -/
structure FInfo where
  cause : Cause
  sub : Nat := 0
  addr : Word := 0
  seq : Nat := 0
  job : Nat := 0
  /-- The page of the page wait it arms (R355). -/
  pw : Option Nat := none
  side : List Side := []
  pcAt : Option Word := none
  /-- The requested record of TRAP and SVC, with CAUSE 0 (R482). -/
  req : Bool := false
  deriving DecidableEq, Repr

/-- What an operation that waits leaves behind: a request to a peer module (R301, R386), an arrival at a network barrier
in its site's collective unit (R231), the record of a write refused for want of room (R379), or the recall that a home
defers (R223). -/
inductive Ask where
  | peer (p : Packet)
  | noRoom (loc : Nat)
  | recall (line cid : Nat) (write : Bool)
  | arrive (site loc count cid key : Nat)
  deriving DecidableEq, Repr

/-- CAUSE of a fault record (R344, R482). -/
def FInfo.code (f : FInfo) : Nat := if f.req then 0 else f.cause.code

/-- Why an operation does not complete now. -/
inductive Stop where
  | fault (f : FInfo)
  | stall
  | ask (cid : Nat) (a : Ask)
  deriving DecidableEq, Repr

/-- An operation on the module that may fault or wait. -/
abbrev MM := StateT Module (Except Stop)

def MM.fault {α : Type} (f : FInfo) : MM α := fun _ => .error (.fault f)
def MM.raise {α : Type} (c : Cause) (addr : Nat := 0) : MM α := MM.fault { cause := c, addr := BitVec.ofNat 64 addr }
def MM.stall {α : Type} : MM α := fun _ => .error .stall
/-- Stops with a cause when a condition holds. -/
def MM.stopIf (b : Bool) (c : Cause) (addr : Nat := 0) : MM Unit := if b then MM.raise c addr else pure ()
def MM.ofOption {α : Type} : Option α → MM α
  | some a => pure a
  | none => MM.stall
def MM.upd (f : Module → Module) : MM Unit := modify f
/-- An access at a home: refused for want of room, or deferred, it leaves its mark there. -/
def MM.home {α : Type} (f : Module → HomeRes α) : MM α := fun m =>
  match f m with
  | .ok a m' => .ok (a, m')
  | .full l => .error (.ask 0 (.noRoom l))
  | .defer l c w => .error (.ask 0 (.recall l c w))
/-- Replaces the module, waiting where there is none. -/
def MM.setOpt (f : Module → Option Module) : MM Unit := fun m =>
  match f m with
  | some m' => .ok ((), m')
  | none => .error .stall

/-! ## Records of homes (R173, R319, R514) -/

/-- A containment record that a home reports to a core of another site (R173, R319): the home's NI numbers it in the sequence of its
site-queue core. -/
def Module.homeContain (m : Module) (home cid : Nat) (r : FaultRec) : Module :=
  match m.siteCore home with
  | some c =>
    if home = siteOf cid then m.contain cid r
    else
      let (q, n) := m.takeSeq c
      n.contain cid { r with sseq := q.toNat, svcn := m.vcn c }
  | none => m.contain cid r

/-- The site at which an address is served, for such a report; the own site where it names none. -/
def Module.servedAt (m : Module) (cid va : Nat) : Nat :=
  match m.target cid va with
  | .lm t _ => siteOf t
  | .dram h => h
  | _ => siteOf cid

/-! ## Trap reports (R316–R318, R355) -/

/-- Two reports of KIND 0 or 1 with one key (R318). -/
def TrapRec.same (a b : TrapRec) : Bool :=
  a.kind ≤ 1 && a.kind == b.kind && a.part == b.part && a.rsite == b.rsite && a.hsite == b.hsite && a.vpn == b.vpn

/-- The merge of R318. DEDUCED (log 97). -/
def TrapRec.merge (a b : TrapRec) : TrapRec :=
  let low := if b.fvcn < a.fvcn || (b.fvcn == a.fvcn && b.fseq < a.fseq) then b else a
  { a with cores := a.cores ||| b.cores, merged := min (a.merged + b.merged) 65535, fseq := low.fseq, fvcn := low.fvcn }

/-- A list of reports with one more, merged with one of its key. DEDUCED (log 97). -/
def addRec : List TrapRec → TrapRec → List TrapRec
  | [], r => [r]
  | a :: t, r => if a.same r then a.merge r :: t else a :: addRec t r

/-- The home queues a fault notice (R316); false when its 256-entry queue is full. -/
def Module.reportFull (m : Module) (home : Nat) : Bool := 256 ≤ (m.site home).faultq.length

/-- A trap report of KIND 0 or 1 for a core's page fault, into the home's fault queue. -/
def Module.report (m : Module) (home : Nat) (r : TrapRec) : Module :=
  match m.siteCore home with
  | some c =>
    let (q, m) := m.takeSeq c
    m.onSite home fun s => { s with faultq := addRec s.faultq { r with fseq := q.toNat, fvcn := m.vcn c } }
  | none => m.onSite home fun s => { s with faultq := addRec s.faultq r }

/-- The uncorrectable registers of a window that a read has found are counted, once each (R90). -/
def Module.regLost (m : Module) (cid key : Nat) (ks : List Nat) : Module :=
  match (m.act cid key).win with
  | some w =>
    let found (k : Nat) : Bool := ks.contains k && w.bad.contains k
    let n := (w.hit.filter found).length
    if n = 0 then m
    else
      (m.onAct cid key fun a => { a with win := some { w with hit := w.hit.filter fun k => !found k } }).onSite (siteOf cid)
        fun x => { x with errU := x.errU + n }
  | none => m
/-- A read of a block of group memory finds what has struck it (R90). -/
def Module.blockRead (m : Module) (gid b : Nat) : Module :=
  let g := m.group gid
  if g.hit.contains b then
    let hard := g.bad.contains b
    (m.onGroup gid fun g => { g with hit := g.hit.filter (· ≠ b) }).onSite (gid / 4)
      fun x => if hard then { x with errU := x.errU + 1 } else { x with errC := x.errC + 1 }
  else m

/-- The key of word i of the latch of a slot, behind those of the accumulator words (R263). -/
def latchKey (slot word : Nat) : Nat := 73792 + 6144 * slot + word
/-- A read of words of a matrix unit finds what has struck them (R90, R263). -/
def Module.marksRead (m : Module) (tile : Nat) (ks : List Nat) : Module :=
  let t := m.tile tile
  let found := t.hit.filter ks.contains
  if found.isEmpty then m
  else
    let hard := (found.filter t.bad.contains).length
    (m.onTile tile fun t => { t with hit := t.hit.filter fun k => !ks.contains k }).onSite (tile / 16)
      fun x => { x with errU := x.errU + hard, errC := x.errC + (found.length - hard) }

/-- The TLB entry that covers an address (R180). -/
def tlbFind (t : List TlbEnt) (va : Nat) : Option TlbEnt :=
  t.find? fun x => if x.block then x.vpn / 2 ^ 13 == va / 2 ^ 29 else x.vpn == va / 2 ^ 16
def tlbDrop (t : List TlbEnt) (va : Nat) : List TlbEnt :=
  t.filter fun x => !(if x.block then x.vpn / 2 ^ 13 == va / 2 ^ 29 else x.vpn == va / 2 ^ 16)
/-! ## Translation (R175–R182) -/

/-- What an access needs (R178). -/
inductive Acc where
  | load | store | atomic | redx | xread | fetch | ldrs
  deriving DecidableEq, Repr

def leafR (e : Word) : Bool := bit e 2
def leafW (e : Word) : Bool := bit e 3
def leafX (e : Word) : Bool := bit e 4
def leafU (e : Word) : Bool := bit e 5
/-- XS, and ST, which XS = 1 turns to 0 (R176). -/
def leafXS (e : Word) : Bool := bit e 7
def leafST (e : Word) : Bool := bit e 6 && !bit e 7
def pteType (e : Word) : Nat := bits e 1 0
/-- ADDR as a byte address. -/
def pteAddr (e : Word) : Nat := bits e 52 16 * 65536

/-- Malformed entries (R176). -/
def pteBad (range : Nat) (lvl : Nat) (va : Nat) (e : Word) : Bool :=
  let inSys := decide (3 * 2 ^ 53 ≤ va)
  let inSeg := decide (2 ^ 54 ≤ va) && decide (va < 2 ^ 54 + 2 ^ 49)
  pteType e == 3 || (pteType e ≠ 0 && (bits e 15 8 ≠ 0 || bits e 63 53 ≠ 0)) || (pteType e == 2 && lvl == 1)
    || (pteType e == 1 && lvl == 3) || (pteType e == 2 && lvl == 2 && (bits e 28 16 ≠ 0 || !inSeg))
    || (pteType e == 1 && range ≤ pteAddr e) || (pteType e == 2 && !inSys && range ≤ pteAddr e)
    || (pteType e == 0 && (bits e 15 8 ≠ 0 || bits e 63 53 ≠ 0))

/-- How a walk ends. -/
inductive WalkRes where
  | leaf (e : Word) (block : Bool)
  | invalid
  | malformed (pa : Nat)
  /-- An entry in an uncorrectable word (R90), by location. -/
  | uncorr (loc : Nat)
  deriving DecidableEq, Repr

/-- Walk (R177): the levels still to be read, from table t. No translation is taken from an uncorrectable word (R90).
DEDUCED (log 153). -/
def Module.walkFrom (m : Module) (home va : Nat) (t : Nat) : List Nat → WalkRes
  | [] => .invalid
  | lvl :: rest =>
    let pa := t + 8 * (va / 2 ^ (55 - 13 * lvl) % 8192)
    let e := BitVec.ofNat 64 (m.rdNat (dramLoc home pa) 8)
    if m.bad (dramLoc home pa) 8 then .uncorr (dramLoc home pa)
    else if pteBad (m.site home).mc.range lvl va e then .malformed pa
    else if pteType e = 0 then .invalid
    else if pteType e = 2 then .leaf e (lvl == 2)
    else m.walkFrom home va (pteAddr e) rest

/-- The walk of a home's tree; NI_PTROOT.EN = 0 maps nothing (R179). DEDUCED (log 52). -/
def Module.walk (m : Module) (home va : Nat) : WalkRes :=
  let r := (m.site home).ptroot
  if bit r 0 then m.walkFrom home va (pteAddr r) [1, 2, 3] else .invalid

/-- The locations of the entries that a walk reads: the reads find what has struck them (R90). -/
def Module.walkReads (m : Module) (home va : Nat) (t : Nat) : List Nat → List Nat
  | [] => []
  | lvl :: rest =>
    let loc := dramLoc home (t + 8 * (va / 2 ^ (55 - 13 * lvl) % 8192))
    let e := BitVec.ofNat 64 (m.rdNat loc 8)
    if m.bad loc 8 || pteBad (m.site home).mc.range lvl va e || pteType e ≠ 1 then [loc]
    else loc :: m.walkReads home va (pteAddr e) rest
def Module.walked (m : Module) (home va : Nat) : List Nat :=
  let r := (m.site home).ptroot
  if bit r 0 then m.walkReads home va (pteAddr r) [1, 2, 3] else []

/-- R178, for user mode (U) or supervisor mode. -/
def leafAllows (e : Word) (a : Acc) (super : Bool) : Bool :=
  (super || leafU e) &&
    match a with
    | .load => leafR e
    | .store => leafW e
    | .atomic => leafR e && leafW e && !leafXS e
    | .redx => leafW e && leafXS e
    | .xread => leafR e && leafXS e
    | .fetch => leafX e
    | .ldrs => leafR e && !leafXS e

/-- A leaf is kept, the oldest of 8,192 entries giving way. -/
def tlbAdd (t : List TlbEnt) (x : TlbEnt) : List TlbEnt := if 8192 ≤ t.length then t.drop 1 ++ [x] else t ++ [x]

/-- The physical address under a leaf. -/
def leafPa (e : Word) (block : Bool) (va : Nat) : Nat :=
  if block then pteAddr e / 2 ^ 29 * 2 ^ 29 + va % 2 ^ 29 else pteAddr e + va % 2 ^ 16

/-- The PAGE or PERM of a walk: the page wait of a scalar access and the home's report (R355). -/
def walkFault (home : Nat) (perm : Bool) (va cid : Nat) (extra : List Side) : FInfo :=
  { cause := if perm then .perm else .page, addr := BitVec.ofNat 64 va, pw := some (va / 65536),
    side := .trap home perm va cid :: extra }

/-- Translation and permission check at the home, for an access of core `cid` (R177–R181): the leaf and the physical
address. An entry of the TLB that denies the access is dropped, whatever the fresh walk finds (R181). A full fault queue answers RETRY
in place of a fault (R316). DEDUCED (log 52). -/
def xlate (home va cid : Nat) (a : Acc) (super : Bool) : MM (Word × Nat) := fun m =>
  let stop (perm : Bool) (extra : List Side) : Except Stop ((Word × Nat) × Module) :=
    if m.reportFull home then .error .stall else .error (.fault (walkFault home perm va cid extra))
  let fresh (m : Module) (extra : List Side) : Except Stop ((Word × Nat) × Module) :=
    let found := (m.walked home va).map fun l => Side.found l 8
    match m.walk home va with
    | .leaf e b =>
      if leafAllows e a super then
        .ok ((e, leafPa e b va),
          ((m.walked home va).foldl (fun m l => m.inspect l 8) m).onSite home fun s => { s with tlb := tlbAdd (tlbDrop s.tlb va) ⟨va / 65536, b, e⟩ })
      else stop true (extra ++ found)
    | .invalid => stop false (extra ++ found)
    | .malformed pa => stop false (.malformed home pa :: extra ++ found)
    | .uncorr _ => .error (.fault { cause := .uncorr, addr := BitVec.ofNat 64 va, side := extra ++ found })
  match if bit (m.site home).ptroot 0 then tlbFind (m.site home).tlb va else none with
  | some x =>
    if leafAllows x.leaf a super then .ok ((x.leaf, leafPa x.leaf x.block va), m)
    else fresh (m.onSite home fun s => { s with tlb := tlbDrop s.tlb va }) [.deny home va]
  | none => fresh m []

/-! ## LM checks -/

/-- Kinds of LM access for the guard regions (R166, R217). -/
inductive LmAcc where
  | read | write | rmw | fetch
  deriving DecidableEq, Repr

/-- A guard region covers part of a range and refuses the access (R166, R167). DEDUCED (log 68). -/
def guardRefuses (g : Word) (off n : Nat) (local_ : Bool) (k : LmAcc) : Bool :=
  let base := bits g 18 6; let last := bits g 44 32
  bit g 53 && base ≤ last && meet off n (base * 64) ((last + 1 - base) * 64) &&
    !(match local_, k with
      | true, .read => bit g 48
      | true, .write => bit g 49
      | true, .rmw => bit g 49
      | true, .fetch => bit g 50
      | false, .read => bit g 51
      | false, .write => bit g 52
      | false, .rmw => bit g 51 && bit g 52
      | false, .fetch => bit g 51)

/-- The control words of some workspace slot are touched (R37). -/
def Core.ctlWords (c : Core) (off n : Nat) : Bool :=
  c.desc.wssz ≤ 14 && (upFrom 0 (min c.desc.wsn 64)).any fun k => meet off n (c.desc.wp k + 1280) 64

/-- A user-mode access to LM of core t that GUARD refuses (R37, R39, R87, R167, R184, R346). R184 rules user mode only: a
supervisor-mode access to a stash bank reads and writes the bank's ordinary LM bytes. DEDUCED (log 51); DESIGN CHOICE (log 142). -/
def Module.lmGuard (m : Module) (by_ t off n : Nat) (k : LmAcc) : Bool :=
  let c := m.core t
  let w := k == .write || k == .rmw
  (k ≠ .fetch && (meet off n 0x7E000 0x2000 || meet off n c.cprBase 0x2000))
    || (w && c.ctlWords off n)
    || (c.stashNb ≠ 0 && meet off n (c.stashFirst * 0x8000) (c.stashNb * 0x8000))
    || (w && c.frecEn && meet off n c.frecBase 4096)
    || c.spec.guards.any fun g => guardRefuses g.2 off n (by_ == t) k

/-- A read of words by location finds their errors (R90): UNCORR where one is uncorrectable. -/
def readWords (loc n va : Nat) : MM Unit := do
  let m ← get
  if m.badNow loc n then
    MM.fault { cause := .uncorr, addr := BitVec.ofNat 64 va, side := [.found loc n] }
  else MM.upd fun m => m.inspect loc n

/-- The checks of an access to LM: GUARD for user mode, then the banks, then quarantined words for a read. -/
def lmCheck (by_ t off n : Nat) (k : LmAcc) (super : Bool) (va : Nat) : MM Unit := do
  let m ← get
  MM.stopIf (!super && m.lmGuard by_ t off n k) .guard va
  match m.touchLm t off n with
  | .off => MM.raise .deadbank va
  | .failed => MM.raise .uncorr va
  | .waking => MM.stall
  | .ok p => do
    MM.upd fun m => m.setPhy (m.pid t) p
    if k ≠ .write then readWords (m.lmAt t off) n va

def lmLoad (by_ t off n : Nat) (super : Bool) (va : Nat) : MM (List Byte) := do
  lmCheck by_ t off n .read super va
  return (← get).lmRead t off n

def lmSave (by_ t off : Nat) (bs : List Byte) (super : Bool) (va : Nat) : MM Unit := do
  lmCheck by_ t off bs.length .write super va
  MM.upd fun m => m.lmStore t off bs

/-- A request reaches the target's site (R299); its partition key is held against the target core's or the home's (R304). It waits
while every reply slot of its core is held (R301); inside one chiplet no packet goes (R165). While the target's binding changes it is
held at its NI (R21). -/
def keyLm (by_ t : Nat) (va : Nat) : MM Unit := do
  let m ← get
  if by_ ≠ t && ((siteOf by_ ≠ siteOf t && (m.freeReply by_).isNone) || (m.site (siteOf t)).rbusy.any (fun r => r.l == logOf t)) then MM.stall
  MM.stopIf (!m.reach (siteOf by_) (siteOf t)) .noroute va
  MM.stopIf (siteOf by_ ≠ siteOf t && (m.core by_).spec.pk ≠ (m.core t).spec.pk) .pkey va
def keyHome (by_ home : Nat) (va : Nat) : MM Unit := do
  let m ← get
  if (m.freeReply by_).isNone then MM.stall
  MM.stopIf (!m.reach (siteOf by_) home) .noroute va
  MM.stopIf ((m.core by_).spec.pk ≠ (m.site home).pkey) .pkey va

/-! ## DRAM-backed accesses of a core's own instructions -/

/-- The line that gives way in the stash set of an address: the least recently used of 8 ways (R184), no line that another
context than `who` holds reserved within its 64 cycles (R223). -/
def Core.stashVictim (c : Core) (time va : Nat) (who : Nat) : Option Nat :=
  let sets := 64 * c.stashNb
  let ways := c.stash.filter fun e => e.2.va.toNat / 64 % sets == va / 64 % sets
  if ways.length < 8 then none
  else
    ((ways.filter fun e => !c.defers time e.1 (some who)).foldl (fun (b : Option (Nat × SLine)) e =>
      match b with
      | some x => if e.2.used < x.2.used then some e else some x
      | none => some e) none).map (·.1)

/-- Makes room in the stash set of an address. -/
def stashRoom (cid who va : Nat) : MM Unit := do
  let m ← get
  match (m.core cid).stashVictim m.time va who with
  | some l => MM.home fun m => m.writeBack cid l 0
  | none => return ()

/-- Makes room in the atomic line: one that another context holds reserved stays for its 64 cycles (R223). -/
def atomRoom (cid who : Nat) : MM Unit := do
  let m ← get
  match (m.core cid).atom with
  | (k, _) :: _ => do
    if (m.core cid).defers m.time k (some who) then MM.stall
    else MM.home fun m => m.writeBack cid k 0
  | [] => return ()

/-- The state, data and uncorrectable words with which a line reaches a core that asks for it (R186): a modified copy's data go to
the home or, while that has no room for them, stay modified with the newcomer. -/
def Module.grant (m : Module) (line cid : Nat) (own : Bool) : HomeRes (Nat × List Byte × List Nat) :=
  match m.deferrer line (some cid) with
  | some c => .defer line c own
  | none =>
    let (data, bad) := m.lineNow line
    let others := (m.holders line).filter (· ≠ cid)
    let drop (m : Module) : Module := others.foldl (fun m c => m.loseLine c line) m
    match m.dirtyAt line with
    | some (k, _) =>
      if k = cid then .ok (3, data, bad) m
      else
        match m.placeLine line data bad with
        | some n => if own then .ok (2, data, bad) (drop n) else .ok (1, data, bad) (n.share line none)
        | none => .ok (3, data, bad) (drop (m.noRoom line))
    | none => if own then .ok (2, data, bad) (drop m) else .ok (if others.isEmpty then 2 else 1, data, bad) (m.share line (some cid))

/-- A held line used: the most recent of its set (R184). -/
def Core.useLine (c : Core) (line : Nat) (f : SLine → SLine) : Core :=
  { (c.onLine line fun y => { f y with used := c.uses }) with uses := c.uses + 1 }

/-- A line brought into the stash (or the atomic line) of a core for context `who`, with ownership for a write (R185, R186,
R188). -/
def fillLine (cid who loc va : Nat) (own : Bool) (atom : Bool) : MM Unit := do
  let l := lineOf loc
  let m ← get
  match (m.core cid).held l with
  | some x =>
    if own && x.st = 1 then do
      let _ ← MM.home fun m => m.grant l cid true
      MM.upd fun m => (m.noteBars l 64).onCore cid fun c => c.useLine l fun y => { y with st := 2 }
    else MM.upd fun m => m.onCore cid (·.useLine l id)
  | none => do
    let (st, data, bad) ← MM.home fun m => m.grant l cid own
    if atom then atomRoom cid who else stashRoom cid who va
    let x : SLine := ⟨st, BitVec.ofNat 64 (va / 64 * 64), (m.core cid).uses, data, bad⟩
    MM.upd fun m => (if own then m.noteBars l 64 else m).onCore cid fun c =>
      if atom then { c with atom := [(l, x)] } else { c with stash := Tab.put c.stash l x, uses := c.uses + 1 }

/-- Bytes of a line that the core holds. -/
def Core.lineBytes (c : Core) (loc n : Nat) : List Byte :=
  match c.held (lineOf loc) with
  | some x => (x.data.drop (loc % 64)).take n
  | none => []

/-- Bytes written into a line that the core holds with ownership; the line becomes M. -/
def stashWrite (cid loc : Nat) (bs : List Byte) : MM Unit :=
  let l := lineOf loc
  MM.upd fun m =>
    ((m.onCore cid fun c => c.onLine l fun x =>
      { x with st := 3, data := overlay l x.data loc bs, bad := clearQuar x.bad loc bs.length }).noteLines loc bs.length).noteBars
        loc bs.length

/-- The home notes a recall that it defers (R223). -/
def Module.deferRecall (m : Module) (line cid : Nat) (write : Bool) : Module :=
  { m with recalls := (m.recalls.filter fun r => !(r.1 == line && r.2.1 == cid)) ++
      [(line, cid, write || m.recalls.any fun r => r.1 == line && r.2.1 == cid && r.2.2)] }

/-! ## Committed writes on their way to the home (R198, R207, R220, R380) -/

/-- Bytes that an operation writes. -/
def WOp.size : WOp → Nat
  | .store bs => bs.length
  | .rmw _ n _ _ => n
  | .redx _ _ => 64

/-- AtomicRmw (R218): the new value; none in a failed cas. -/
def rmwNew (opc w old c d : Nat) : Option Nat :=
  let s (x : Nat) := signedOf w x
  match opc with
  | 0 => some ((old + c) % 2 ^ w)
  | 1 => some (old &&& c)
  | 2 => some (old ||| c)
  | 3 => some (old ^^^ c)
  | 4 => some (if s c < s old then c else old)
  | 5 => some (if s old < s c then c else old)
  | 6 => some (min old c)
  | 7 => some (max old c)
  | 8 => some c
  | _ => if old = d then some c else none

/-- The format that REDX names. DEDUCED (log 72). -/
def redxFmt (f : Nat) : Num.Fmt := if f = 0 then Num.f32 else if f = 1 then Num.bf16 else Num.f16

/-- The operation performed at the home, read and write as one (R200). -/
def Module.perform (m : Module) (loc : Nat) (op : WOp) : HomeRes Unit :=
  match op with
  | .store bs => m.dramWrite loc bs
  | .rmw opc n c d =>
    (m.dramRead loc n).bind fun bs m =>
      match rmwNew opc (8 * n) (leNat bs) c d with
      | some v => m.dramWrite loc (leBytes n v)
      | none => .ok () m
  | .redx f x => (m.dramRead loc 64).bind fun bs m => m.dramWrite loc (leBytes 64 (Num.redxAdd (leNat bs) (redxFmt f) x))

/-- The activation on whose behalf requester `who` of a core acts: a context, the vector unit (4), or workspace slot `who` − 100. -/
def Module.whoAid (m : Module) (cid who : Nat) : Nat :=
  if who < 4 then ((m.core cid).ctx who).act.elim 0 fun k => (m.ctlOf cid k).aid
  else if who = 4 then ((m.core cid).vq.head?.map (·.aid)).getD 0
  else (m.ctlOf cid (who - 100)).aid

/-- The waiting writes of an activation. -/
def Module.lateOf (m : Module) (cid aid : Nat) : List LateW := m.late.filter fun e => e.cid == cid && e.aid == aid

/-- A write of the activation has still to be accepted for the line of a location (R198). -/
def Module.lineLate (m : Module) (cid aid loc : Nat) : Bool := (m.lateOf cid aid).any fun e => lineOf e.loc == lineOf loc
/-- The same for `.o` operations to a home (R207). -/
def Module.homeLate (m : Module) (cid aid loc : Nat) : Bool :=
  (m.lateOf cid aid).any fun e => e.num.isSome && siteOfLoc e.loc == siteOfLoc loc

/-- The home performs its expected `.o` operation and expects the next (R220); it keeps the number while more of the activation
are unacknowledged. -/
def Module.stepOrd (m : Module) (cid aid loc num : Nat) : Module :=
  m.onSite (siteOfLoc loc) fun x =>
    { x with ord := if m.homeLate cid aid loc then Tab.put x.ord aid ((num + 1) % 65536) else Tab.del x.ord aid }

/-- Operations in the reorder buffer of a site's NI (R220). -/
def Module.reordered (m : Module) (site : Nat) : Nat := (m.late.filter fun e => e.held && siteOfLoc e.loc == site).length

/-- A committed write that goes to its home: performed; held back behind an earlier one of the activation to the line; for an `.o`
operation numbered `num`, held in the reorder buffer until its turn, or sent again while that is full (R220); or sent again while
the home has no room (R380). START makes the home expect the first unacknowledged number. DEDUCED (log 70). -/
def homeWrite (cid aid va : Nat) (super : Bool) (loc : Nat) (op : WOp) (num : Option Nat := none) : MM Unit := fun m =>
  let w : LateW := { cid := cid, aid := aid, va := va, super := super, loc := loc, op := op, due := m.time + 64, tries := 1, num := num }
  let keep (m : Module) (w : LateW) : Except Stop (Unit × Module) := .ok ((), { m with late := m.late ++ [w] })
  let start (m : Module) : Module :=
    match num with
    | some n => if m.homeLate cid aid loc then m else m.onSite (siteOfLoc loc) fun x => { x with ord := Tab.put x.ord aid n }
    | none => m
  if num.isSome && m.homeLate cid aid loc then
    if m.reordered (siteOfLoc loc) < 32 then keep m { w with held := true } else keep m w
  else if m.lineLate cid aid loc then keep (start m) { w with due := m.time, tries := 0 }
  else
    match m.perform loc op with
    | .ok _ m => .ok ((), m)
    | .full _ => keep (start (m.noRoom loc)) w
    | .defer l c x => keep ((start m).deferRecall l c x) { w with due := m.time, tries := 0 }

/-- A write at the home that the writer itself holds back while there is no room (R273, R379). -/
def engineWrite (loc : Nat) (bs : List Byte) : MM Unit := MM.home fun m => m.dramWrite loc bs

/-- An access of a core to a line for which a write of the same activation has still to be accepted waits for it (R197, R198). -/
def waitOwn (cid aid loc : Nat) : MM Unit := do
  if (← get).lineLate cid aid loc then MM.stall else pure ()

/-- Bytes read at a place, with the activation's own stores that wait for their home laid over them in order (R197). -/
def Module.withOwn (m : Module) (cid aid loc : Nat) (bs : List Byte) : List Byte :=
  (m.lateOf cid aid).foldl
    (fun bs e => match e.op with
      | .store x => overlay loc bs e.loc x
      | _ => bs) bs

/-- An RMW of the activation that has still to be performed meets a range: a read of it waits. -/
def Module.rmwLate (m : Module) (cid aid loc n : Nat) : Bool :=
  (m.lateOf cid aid).any fun e => meet e.loc e.op.size loc n && match e.op with
    | .store _ => false
    | _ => true

/-- What an activation reads at a place: the bytes there, under its own stores that wait for their home. Such a store has been read, so it
is performed: a read returns the value of a write (R197, R212). -/
def readOwn (cid aid loc : Nat) (bs : List Byte) : MM (List Byte) := do
  let m ← get
  if m.rmwLate cid aid loc bs.length then MM.stall
  else do
    MM.upd fun m => if (m.lateOf cid aid).isEmpty then m else
      { m with late := m.late.map fun e =>
          if e.cid == cid && e.aid == aid && meet e.loc e.op.size loc bs.length then { e with seen := true } else e }
    return m.withOwn cid aid loc bs

/-- Where a DRAM-backed access lands: home, leaf and byte location; the key is checked first (R173, R304). -/
def dramAt (cid home va : Nat) (a : Acc) (super : Bool) : MM (Word × Nat) := do
  keyHome cid home va
  let (e, pa) ← xlate home va cid a super
  return (e, dramLoc home pa)

/-- The stash serves an access without a packet: it holds the line, with ownership for a store (R185, R186). -/
def Core.stashHit (c : Core) (va : Nat) (own : Bool) : Bool :=
  c.stash.any fun e => e.2.va.toNat == va / 64 * 64 && (!own || e.2.st ≠ 1)

/-- Where a core's own load or store lands. -/
def coreDramAt (cid home va : Nat) (a : Acc) (super : Bool) : MM (Word × Nat) := do
  if ((← get).core cid).stashHit va (a == .store) then
    let (e, pa) ← xlate home va cid a super
    return (e, dramLoc home pa)
  else dramAt cid home va a super

/-- A read at a home, by an agent that no stash serves: UNCORR where a word is uncorrectable (R90). -/
def homeRead (loc n va : Nat) : MM (List Byte) := do
  let m ← get
  if m.badNow loc n then MM.fault { cause := .uncorr, addr := BitVec.ofNat 64 va, side := [.found loc n] }
  else MM.home fun m => m.dramRead loc n

/-- The words that a core reads from a line that it holds or is about to fill (R90, R185). -/
def ownWords (cid loc n va : Nat) : MM Unit := do
  match ((← get).core cid).held (lineOf loc) with
  | some x => MM.stopIf (x.bad.any fun w => meet w 4 loc n) .uncorr va
  | none => readWords loc n va

/-- A line brought into the stash, or the atomic line, for a read: it is left where it is while the dirty line that would give way has no
room at its home, for no read waits for space (R378, R380). -/
def fillRead (cid who loc va : Nat) (own atom : Bool) : MM Unit := fun m =>
  match fillLine cid who loc va own atom m with
  | .error (.ask _ (.noRoom l)) => .ok ((), m.noRoom l)
  | r => r

/-- Bytes of the line of a location: of the core's own copy, or read at the home. -/
def lineOrHome (cid loc n va : Nat) : MM (List Byte) := do
  let c := (← get).core cid
  if (c.held (lineOf loc)).isSome then return c.lineBytes loc n else homeRead loc n va

/-- A core load of n ≤ 64 aligned bytes from a DRAM-backed address (R185). -/
def dramLoad (cid who home va n : Nat) (a : Acc) (super : Bool) : MM (List Byte) := do
  let (e, loc) ← coreDramAt cid home va a super
  let m ← get
  let aid := m.whoAid cid who
  if m.rmwLate cid aid loc n then MM.stall
  else if leafST e && (m.core cid).stashNb ≠ 0 then do
    ownWords cid loc n va
    fillRead cid who loc va false false
    let bs ← lineOrHome cid loc n va
    readOwn cid aid loc bs
  else do
    let bs ← homeRead loc n va
    readOwn cid aid loc bs

/-- A core store to a DRAM-backed address (R173, R185): into the stash with ownership, or to the home. -/
def dramStore (cid who home va : Nat) (bs : List Byte) (super : Bool) : MM Unit := do
  let (e, loc) ← coreDramAt cid home va .store super
  let m ← get
  let aid := m.whoAid cid who
  if leafST e && (m.core cid).stashNb ≠ 0 then do
    waitOwn cid aid loc
    fillLine cid who loc va true false
    stashWrite cid loc bs
  else homeWrite cid aid va super loc (.store bs)

/-! ## SMAP (R456, R457), and what a fault leaves -/

/-- A fill that would replace a reserved line waits (R223, R457). DEDUCED (log 47). -/
def Module.fillBlocked (m : Module) (cid va : Nat) : Bool :=
  match (m.core cid).stashVictim m.time va 4 with
  | some l => (m.core cid).defers m.time l none
  | none => false

/-- One line of SMAP: filled with ownership where it lies in an ST page. -/
def smapLine (cid who va : Nat) (super : Bool) : MM Unit := do
  let m ← get
  match m.target cid va with
  | .dram home => do
    let (e, loc) ← dramAt cid home va .load super
    waitOwn cid (m.whoAid cid who) loc
    if leafST e && (m.core cid).stashNb ≠ 0 then
      if ((← get).core cid).held (lineOf loc) = none && (← get).fillBlocked cid va then MM.stall
      else fillLine cid who loc va true false
    else pure ()
  | .group _ => MM.raise .perm va
  | .cfg _ _ => MM.raise .perm va
  | .nowhere => MM.raise .page va
  | .noRoute => MM.raise .noroute va
  | _ => pure ()

/-- The lines of SMAP in ascending order, n still to fill from `line` after k: where one faults, those before it stay filled (R457). -/
def smapFrom (cid who : Nat) (super : Bool) : Nat → Nat → Nat → MM Unit
  | 0, _, _ => pure ()
  | n + 1, line, k => do
    fun m =>
      match smapLine cid who line super m with
      | .error (.fault f) =>
        .error (.fault { f with side := f.side ++ [.smap cid who ((line + 2 ^ 64 - 64 * k) % 2 ^ 64) k super] })
      | r => r
    smapFrom cid who super n ((line + 64) % 2 ^ 64) (k + 1)

/-- What a fault leaves at other units. -/
def Module.side (m : Module) : Side → Module
  | .trap home perm va cid =>
    m.report home { kind := if perm then 1 else 0, part := ((m.site home).part).getD 0, rsite := (m.site (siteOf cid)).psi,
                    hsite := (m.site home).psi, vpn := va / 65536, cores := 2 ^ logOf cid, merged := 1,
                    addr := BitVec.ofNat 64 va }
  | .siteTrap home perm va s =>
    m.report home { kind := if perm then 1 else 0, part := ((m.site home).part).getD 0, rsite := (m.site s).psi,
                    hsite := (m.site home).psi, vpn := va / 65536, merged := 1, addr := BitVec.ofNat 64 va }
  | .copyTrap home perm cid job off addr =>
    m.report home { kind := if perm then 3 else 2, part := ((m.site home).part).getD 0, rsite := (m.site (siteOf cid)).psi,
                    hsite := (m.site home).psi, vpn := addr.toNat / 65536, cores := 2 ^ logOf cid, merged := 1, job := job,
                    offs := off, addr := addr }
  | .malformed home pa => m.siteContain home { cause := Cause.page.code, addr := BitVec.ofNat 64 pa }
  | .slot cid k => m.onCore cid fun c => { c with ni := { c.ni with slots := Tab.del c.ni.slots k } }
  | .sport cid aid => m.onCore cid fun c => { c with ports := { c.ports with send := c.ports.send.filter fun p => p.aid ≠ aid || p.closing } }
  | .resv cid k => m.onCore cid fun c => c.onCtx k fun x => { x with resv := none }
  | .found loc n => m.inspect loc n
  | .reg cid key ks => m.regLost cid key ks
  | .block gid b => m.blockRead gid b
  | .marks t ks => m.marksRead t ks
  | .deny home va => m.onSite home fun s => { s with tlb := tlbDrop s.tlb va }
  | .wrote loc bs =>
    if isLm loc then (match m.lmOwner loc with
      | some (c, off) => m.lmStore c off bs
      | none => m)
    else match m.dramWrite loc bs with
      | .ok _ m => m
      | _ => m
  | .smap cid who line n super =>
    match smapFrom cid who super n line 0 m with
    | .ok (_, m) => m
    | .error _ => m
def Module.sides (m : Module) (l : List Side) : Module := l.foldl Module.side m

/-! ## SYS (R385, R386) -/

/-- What a SYS address reaches. -/
inductive SysAt where
  | host (loc : Nat)
  | peer (idx : Nat) (off : Nat)
  deriving DecidableEq, Repr

/-- The edge site through which host memory is reached: that of the E-chiplet of PCIe port p (R163, R382). DESIGN CHOICE (log 12). -/
def Module.portSite (m : Module) (p : Nat) : Option Nat := (edgeSites (if p < 8 then 9 + p else 19 + p)).find? m.live

/-- Translation of a SYS address at the requester's NI; a partition with no trained serving port, and an invalid peer
entry, answer NOROUTE. An access to host memory travels to the port's edge site in a reply slot (R299, R301), and ends as NOROUTE where
the host leaves it without an answer (R163). -/
def sysAt (cid va : Nat) (a : Acc) (super : Bool) : MM SysAt := do
  let (e, pa) ← xlate (siteOf cid) va cid a super
  let m ← get
  if bit e 52 then
    let i := pa / 2 ^ 44 % 256
    MM.stopIf (!bit (Tab.get 0 m.peers i) 31) .noroute va
    return .peer i (pa % 2 ^ 44)
  else
    let w := (m.partOf (siteOf cid)).pcie
    MM.stopIf (!bit w 15 || Tab.get 0 m.pcie (bits w 3 0) == 0) .noroute va
    if (m.freeReply cid).isNone then MM.stall
    MM.stopIf (!((m.portSite (bits w 3 0)).any (m.reach (siteOf cid)))) .noroute va
    MM.stopIf (!Config.hostAnswers m.time (pa % 2 ^ 52)) .noroute va
    return .host (hostLoc (pa % 2 ^ 52))

/-! ## Group memory (R169–R171, R282–R284) -/

def halfAt (b : List Byte) (i : Nat) : Nat := (b.getD (2 * i) 0#8).toNat + 256 * (b.getD (2 * i + 1) 0#8).toNat

/-- Header fields (R282). -/
def recMode (h : Nat) : Nat := fieldOf h 2 0
def recSlot (h : Nat) : Nat := fieldOf h 6 3
def recGen (h : Nat) : Nat := fieldOf h 10 7
def recLen (h : Nat) : Nat := fieldOf h 19 11

/-- Payload size of a mode (R283). -/
def modeSize (mode : Nat) : Option Nat :=
  match mode with
  | 0 => some 0 | 1 => some 2 | 2 => some 130 | 3 => some 132 | 4 => some 64 | 5 => some 128 | 6 => some 256 | _ => none

/-- A malformed record header (R283). -/
def recBad (h : Nat) : Bool :=
  (match modeSize (recMode h) with
   | some n => recLen h ≠ n
   | none => true)
  || fieldOf h 31 20 ≠ 0 || (recMode h ≠ 4 && recMode h ≠ 5 && (recSlot h ≠ 0 || recGen h ≠ 0))

/-- The 256 bytes that a record decodes to, with table T of its slot (R283). -/
def decodeBlock (h : Nat) (p : List Byte) (t : List Nat) : List Byte :=
  match recMode h with
  | 0 => List.replicate 256 0#8
  | 1 => (upFrom 0 128).flatMap fun _ => leBytes 2 (halfAt p 0)
  | 2 => (upFrom 0 128).flatMap fun i =>
      leBytes 2 (truncTo 16 ((halfAt p 0 : Int) + signedOf 8 (p.getD (2 + i) 0#8).toNat))
  | 3 => (upFrom 0 64).flatMap fun j =>
      leBytes 4 (truncTo 32 ((leNat (p.take 4) : Int) + signedOf 16 (leNat ((p.drop (4 + 2 * j)).take 2))))
  | 4 => (upFrom 0 128).flatMap fun i => leBytes 2 (t.getD ((p.getD (i / 2) 0#8).toNat / (if i % 2 = 0 then 1 else 16) % 16) 0)
  | 5 => (upFrom 0 128).flatMap fun i => leBytes 2 (t.getD (p.getD i 0#8).toNat 0)
  | _ => p

/-- The table of a slot of a group, and its generation. -/
def Group.table (g : Group) (s : Nat) : List Nat := Tab.get [] g.tables s
def Group.gen (g : Group) (s : Nat) : Nat := Tab.get 0 g.gens s
/-- A record whose slot generation no longer matches (R284). -/
def Group.stale (g : Group) (h : Nat) : Bool := (recMode h == 4 || recMode h == 5) && recGen h ≠ g.gen (recSlot h)

/-- The expanded image of one block (R170): from its buffer, or decoded into the least recently used buffer. -/
def groupBlock (gid b : Nat) (va : Nat) : MM (List Byte) := do
  let g := (← get).group gid
  match g.bufs.find? (·.1 == b) with
  | some e =>
    MM.upd fun m => m.onGroup gid fun g => { g with bufs := g.bufs.filter (·.1 ≠ b) ++ [e] }
    return e.2
  | none =>
    let (h, p) := Tab.get (0, []) g.blocks b
    if g.bad.contains b then MM.fault { cause := .uncorr, addr := BitVec.ofNat 64 va, side := [.block gid b] }
    MM.upd fun m => m.blockRead gid b
    MM.stopIf (g.stale h) .staletbl va
    let d := decodeBlock h p (g.table (recSlot h))
    MM.upd fun m => m.onGroup gid fun g =>
      { g with bufs := (if 64 ≤ g.bufs.length then g.bufs.drop 1 else g.bufs) ++ [(b, d)] }
    return d

/-- Bytes of the expanded image inside one block. -/
def groupRead (gid off n : Nat) (va : Nat) : MM (List Byte) := do
  let d ← groupBlock gid (off / 256) va
  return (d.drop (off % 256)).take n

end Sys2Proof.Machine
end

