-- ==== Sys2Proof/Machine/Ops.lean ====
section
/-!
DEFINITION. The operations on activations (R35–R46): binding and write-back, entering and leaving a context, suspension,
creation (R42, R515), taking an exception (R345–R355) and returning from one (R351, R353), and the end of an activation
(R52). Every instruction and event that does one of these calls the operation here.
-/
namespace Sys2Proof.Machine

/-! ## The status word (R94) -/

def swMode (w : Word) : Bool := bit w 0
def swUpc (w : Word) : Bool := bit w 1
def swSs (w : Word) : Bool := bit w 2
def swVe (w : Word) : Bool := bit w 3
def swRm (w : Word) : Nat := bits w 6 4
def swRshc (w : Word) : BitVec 32 := w.extractLsb' 16 32
/-- Flags NX, UF, OF, DZ, NV as bits 0–4. -/
def swFlags (w : Word) : Nat := bits w 12 8
def swSetUpc (w : Word) (b : Bool) : Word := setBits w 1 1 b.toNat
/-- Flags ORed into [12:8]. -/
def swOr (w : Word) (f : Nat) : Word := w ||| BitVec.ofNat 64 (f % 32 * 256)
/-- RSHC advanced by one modulo 2^32 (R94). -/
def swTick (w : Word) : Word := setBits w 47 16 ((swRshc w).toNat + 1)

/-! ## Registers of a window (R67, R82–R84) -/

def Win.live (w : Win) (k : Nat) : Bool := bit w.ctl.liveg k
def Win.liveV (w : Win) (k : Nat) : Bool := bit w.ctl.livev k
def Win.gr (w : Win) (k : Nat) : Word := Tab.get 0 w.g k
def Win.vr (w : Win) (k : Nat) : Line := Tab.get 0 w.v k

/-- Some register of bank b of a window is live. -/
def Win.bankLive (w : Win) (b : Nat) : Bool :=
  if b < 4 then bits w.ctl.liveg (8 * b + 7) (8 * b) ≠ 0 else bits w.ctl.livev (4 * (b - 4) + 3) (4 * (b - 4)) ≠ 0
/-- The banks of a window with a live register. -/
def Win.liveBanks (w : Win) : BitVec 8 := (upFrom 0 8).foldl (fun x b => setBits x b b (w.bankLive b).toNat) 0#8
/-- A window is taken for an activation. -/
def Core.takeWin (c : Core) : Core := { c with idle := c.idle.drop 1 }
/-- A window becomes free: its banks with a live register go to RETAIN, the others are OFF (R84). -/
def Core.freeWin (c : Core) (w : Option Win) : Core :=
  match w with
  | some w => { c with idle := c.idle ++ [w.liveBanks] }
  | none => c
/-- The state of bank b of free window i (R84): 1 RETAIN, 2 OFF. -/
def Core.freeBank (c : Core) (i b : Nat) : Nat := if bit (c.idle.getD i 0#8) b then 1 else 2
/-- Bank b has not been read or written for 256 cycles. -/
def Win.idle (w : Win) (time b : Nat) : Bool := bit w.ret b || decide (Tab.get 0 w.touch b + 256 ≤ time)
/-- The state of register bank b (R84): 0 FULL, 1 RETAIN, 2 OFF; `bound` says that the window holds a BOUND activation. -/
def Win.bankState (w : Win) (bound : Bool) (time b : Nat) : Nat :=
  if !w.bankLive b then 2 else if bound || w.idle time b then 1 else 0
/-- As an activation enters its context, a bank that is not idle is no longer in RETAIN. -/
def Win.settled (w : Win) (time : Nat) : Win :=
  { w with ret := (upFrom 0 8).foldl (fun x b => setBits x b b (decide (Tab.get 0 w.touch b + 256 ≤ time)).toNat) 0#8 }

/-- An access to a register bank brings it to FULL and restarts its 256 cycles (R84). -/
def Win.touchBank (w : Win) (time b : Nat) : Win :=
  { w with touch := Tab.put w.touch b time, ret := setBits w.ret b b 0 }

/-- gk written: live with the value (R82). -/
def Win.setG (w : Win) (time k : Nat) (v : Word) : Win :=
  { (w.touchBank time (k / 8)) with
    g := Tab.put w.g k v, bad := w.bad.filter (· ≠ k), hit := w.hit.filter (· ≠ k), ctl := { w.ctl with liveg := setBits w.ctl.liveg k k 1 } }
def Win.setV (w : Win) (time k : Nat) (v : Line) : Win :=
  { (w.touchBank time (4 + k / 4)) with
    v := Tab.put w.v k v, bad := w.bad.filter (· ≠ 32 + k), hit := w.hit.filter (· ≠ 32 + k), ctl := { w.ctl with livev := setBits w.ctl.livev k k 1 } }
/-- A read of registers finds what has struck them (R90): a single-bit error is corrected and counted. -/
def Win.found (w : Win) (ks : List Nat) : Win :=
  let n := (w.hit.filter fun k => ks.contains k && !w.bad.contains k).length
  if n = 0 then w else { w with hit := w.hit.filter fun k => !ks.contains k || w.bad.contains k, fixed := w.fixed + n }
def Win.killG (w : Win) (k : Nat) : Win := { w with ctl := { w.ctl with liveg := setBits w.ctl.liveg k k 0 } }
def Win.killV (w : Win) (k : Nat) : Win := { w with ctl := { w.ctl with livev := setBits w.ctl.livev k k 0 } }

/-! ## Budget (R48, R64) -/

/-- Counts the issuing cycles since the last count: against BUDGET, against a handler's 4,096 cycles, or against the
grace period. Supervisor activations count nothing. -/
def Act.count (a : Act) (time : Nat) : Act :=
  let d := time - a.counted
  match a.win, a.st with
  | some w, .issuing _ =>
    if w.ctl.path = 5#3 then { a with counted := time }
    else if w.ctl.hnd then { a with counted := time, hcyc := a.hcyc + d }
    else
      match a.grace with
      | some n => { a with counted := time, grace := some (n - d) }
      | none =>
        { a with counted := time,
                 win := some { w with ctl := { w.ctl with budget := BitVec.ofNat 32 (w.ctl.budget.toNat - d) } } }
  | _, _ => { a with counted := time }

/-! ## Binding and write-back (R38) -/

/-- A word of LM that write-back or creation may write. -/
def Module.wordOk (m : Module) (cid off n : Nat) : Bool := m.lmUsable cid off n

/-- Device writes of whole words, skipping banks that hold nothing. What the spec does not say, the device's own ring-entry write
while the bank under `c.cpr` is OFF or failed: nothing is written. DESIGN CHOICE (log 137). -/
def Module.putWord (m : Module) (cid off : Nat) (bs : List Byte) : Module :=
  if m.wordOk cid off bs.length then m.lmPut cid off bs else m

/-- Write-back of one register: a word that is uncorrectable stays so in the workspace, and gives no value (R90). -/
def Module.putReg (m : Module) (cid off : Nat) (bad : Bool) (bs : List Byte) : Module :=
  if bad then
    { m with quar := (upFrom 0 (bs.length / 4)).foldl (fun q i => quarAdd q (m.lmAt cid off + 4 * i)) m.quar }
  else m.putWord cid off bs

/-- Corrected errors of registers reach the count of the management plane (R90). -/
def Module.countFixed (m : Module) (cid n : Nat) : Module :=
  if n = 0 then m else m.onSite (siteOf cid) fun x => { x with errC := x.errC + n }

/-- Write-back: live registers and the control words, into the workspace. -/
def Module.flush (m : Module) (cid wp : Nat) (w : Win) : Module :=
  let m := (upFrom 0 32).foldl
    (fun m k => if w.live k then m.putReg cid (wp + 8 * k) (w.bad.contains k) (leBytes 8 (w.gr k).toNat) else m) m
  let m := (upFrom 0 16).foldl
    (fun m k => if w.liveV k then m.putReg cid (wp + 256 + 64 * k) (w.bad.contains (32 + k)) (leBytes 64 (w.vr k).toNat) else m) m
  (m.putWord cid (wp + 1280) w.ctl.encode).countFixed cid (w.found (upFrom 0 48)).fixed

/-- The LM words of a workspace that hold what a window holds: its live registers and the control words. -/
def winWords (wp : Nat) (w : Win) : List (Nat × Nat) :=
  (((upFrom 0 32).filter w.live).map fun k => (wp + 8 * k, 8)) ++ (((upFrom 0 16).filter w.liveV).map fun k => (wp + 256 + 64 * k, 64))
    ++ [(wp + 1280, 64)]

/-- Every byte that a write-back or a binding needs can be reached; otherwise the cause of the supervisor trap (R85, R352).
DEDUCED (log 41). -/
def Module.banksBad (m : Module) (cid wp : Nat) (w : Win) : Option Cause :=
  let banks := (winWords wp w).map fun o => (m.phy (m.pid cid)).touch (o.1 / 0x8000)
  if banks.contains .off then some .deadbank else if banks.contains .failed then some .uncorr else none
/-- The same for a write-back, which a live register with an uncorrectable word stops too (R90). -/
def Module.flushBad (m : Module) (cid wp : Nat) (w : Win) : Option Cause :=
  match m.banksBad cid wp w with
  | some c => some c
  | none => if w.bad.any fun k => if k < 32 then w.live k else w.liveV (k - 32) then some .uncorr else none

/-- Binding: the window that the workspace holds, or the cause of the supervisor trap (R85, R90). -/
def Module.bindWin (m : Module) (cid wp : Nat) : Win × Option Cause :=
  let ctl := Ctl.decode (m.rd (m.lmAt cid (wp + 1280)) 64)
  let rg := (upFrom 0 32).filter fun k => bit ctl.liveg k
  let rv := (upFrom 0 16).filter fun k => bit ctl.livev k
  let w : Win :=
    { ctl := ctl
      g := rg.map fun k => (k, BitVec.ofNat 64 (m.rdNat (m.lmAt cid (wp + 8 * k)) 8))
      v := rv.map fun k => (k, BitVec.ofNat 512 (m.rdNat (m.lmAt cid (wp + 256 + 64 * k)) 64))
      touch := (upFrom 0 8).map fun b => (b, m.time) }
  let bad := (winWords wp w).any fun o => m.bad (m.lmAt cid o.1) o.2
  (w, match m.banksBad cid wp w with
      | some c => some c
      | none => if bad then some .uncorr else none)
/-- What the reads of a binding do to the LM words: their banks become FULL (R85), their errors are found (R90). -/
def Module.bindReads (m : Module) (cid wp : Nat) (w : Win) : Module :=
  (winWords wp w).foldl (fun m o => (m.touched cid o.1 o.2).inspect (m.lmAt cid o.1) o.2) m

/-! ## Contexts -/

/-- The context is left: no activation, no reservation (R222). Its buffer keeps the line for the activation (R190). -/
def Module.freeCtx (m : Module) (cid k : Nat) : Module :=
  m.onCore cid fun c => c.onCtx k fun x => { x with act := none, resv := none }

/-- The issuing context of an activation. -/
def Act.ctx? (a : Act) : Option Nat :=
  match a.st with
  | .issuing k => some k
  | _ => none

/-- An activation with a window enters context k (R44); a completed instruction's result reaches its destination. Another
activation than the last finds the line buffer empty (R190). No transition of R44 gives WAITK the value 0 again after YIELD (7) or
forced suspension (9): the control words keep it while the activation issues. DESIGN CHOICE (log 148). -/
def Module.enter (m : Module) (cid key k : Nat) : Module :=
  let aid := (m.ctlOf cid key).aid
  let m := m.onCore cid fun c => c.onCtx k fun x =>
    { x with act := some key, line := x.line.filter (·.aid == aid), resv := none }
  m.onAct cid key fun a =>
    let w := (a.win.getD {}).settled m.time
    let w := match a.wb with
      | some (d, v) => if d.toNat < 32 then w.setG m.time d.toNat v else w
      | none => w
    { a with st := .issuing k, entered := m.time, counted := m.time, win := some w, wb := none }

/-- Written back and out of its context, in a new state (R44). -/
def Module.park (m : Module) (cid key : Nat) (st : ActSt) : Module :=
  let a := (m.act cid key).count m.time
  let m := match a.ctx? with
    | some k => m.freeCtx cid k
    | none => m
  let m := match a.win with
    | some w => m.flush cid a.wp w
    | none => m
  m.onCore cid fun c => (c.freeWin a.win).setAct key { a with st := st, win := none, since := m.time, aged := m.time }

/-! ## Taking an exception (R345, R346, R349, R352, R354, R355) -/

/-- A cause that R344 marks "upcall"; LATE depends on its sub-cause. -/
def Cause.upcall (c : Cause) (sub : Nat) : Bool :=
  match c with
  | .pkey | .uncorr | .hblock | .stepped | .brkpt | .oospace => false
  | .late => sub ≠ Cause.uncorr.code && sub ≠ Cause.pkey.code
  | _ => true

/-- The record of a fault of an activation: f at PC pc (R347). -/
def Module.recOf (m : Module) (cid : Nat) (w : Win) (f : FInfo) (pc : Word) (kind : Nat) : FaultRec :=
  m.stamp cid
    { cause := f.code, sub := f.sub, kind := kind, v := true, pw := f.pw.isSome, seq := f.seq, job := f.job
      pc := f.pcAt.getD pc, addr := f.addr, aidv := w.ctl.aidv.toNat, aids := w.ctl.aids.toNat }

/-- The supervisor trap (R352): the activation goes FAULTED with resume PC `w.ctl.pc`, and a KIND 1 entry is written, at
once or when the next entry frees. A FAULTED activation waits for the supervisor alone: what it was about to wait for no longer
wakes it. A faulting trap activation stops the core (R354). -/
def Module.trapAct (m : Module) (cid key : Nat) (r : FaultRec) : Module :=
  let m := (m.park cid key .faulted).onCore cid fun c => (c.dropMon key).onAct key fun a => { a with wait := .nothing }
  let m := { m with bwait := m.bwait.filter (fun w => !(w.cid == cid && w.key == key))
                    bdone := m.bdone.filter (fun w => !(w.cid == cid && w.key == key)) }
  let i := (m.core cid).sup.next
  let m := match m.pushSup cid r with
    | some m' => m'.onCore cid fun c => { c with sup := { c.sup with keys := Tab.put c.sup.keys i key } }
    | none => m.onAct cid key fun a => { a with defer := some r }
  if key = 64 then
    let mc := siteX (siteOf cid) / 3 + 6 * (siteY (siteOf cid) / 3)
    let m := m.onCore cid fun c => { c with sup := { c.sup with stopped := true } }
    { m with mgmt := Tab.put m.mgmt mc { (Tab.get {} m.mgmt mc) with reports := cid :: (Tab.get {} m.mgmt mc).reports } }
  else m

/-- UpcallEntry (R349). -/
def Module.upcallAct (m : Module) (cid key : Nat) (w : Win) (f : FInfo) (pc : Word) : Module :=
  let c := m.core cid
  let r := c.frecBase + 64 * key
  let s8 := if w.live 8 then w.gr 8 else 0
  let s9 := if w.live 9 then w.gr 9 else 0
  let rec_ := { m.recOf cid w f pc 0 with l8 := w.live 8, l9 := w.live 9, save8 := s8, save9 := s9 }
  let m := m.lmPut cid r rec_.encode
  let m := m.onAct cid key fun a => { a with pw := f.pw, pwCancel := false }
  let ctl := { w.ctl with waita := w.ctl.pc, waitv := BitVec.ofNat 64 r, waitk := 8#4, sw := swSetUpc w.ctl.sw true, pc := c.spec.upvec }
  let w := ((({ w with ctl := ctl }).setG m.time 8 (BitVec.ofNat 64 r)).setG m.time 9 (BitVec.ofNat 64 (f.code + 256 * f.sub)))
  m.onAct cid key fun a => { a with win := some w }

/-- R345: the fault becomes an upcall. DEDUCED (log 25). -/
def Module.upcallOk (m : Module) (cid key : Nat) (w : Win) (f : FInfo) : Bool :=
  f.cause.upcall f.sub && !w.ctl.hnd && !swMode w.ctl.sw && !swUpc w.ctl.sw && (m.core cid).frecEn && key < 64
    && m.wordOk cid ((m.core cid).frecBase + 64 * key) 64

/-- Taking an exception: fault f of the instruction at `pc`, by the activation in slot `key` of core `cid`, whose window
is already at the commit point of R80. The reports of the fault go out, and the fault is delivered as an upcall, which arms its page
wait, or as a supervisor trap, whose page wait no notice resumes (R355). DEDUCED (log 25); DESIGN CHOICE (log 127). -/
def Module.takeFault (m : Module) (cid key : Nat) (f : FInfo) (pc : Word) : Module :=
  let m := m.sides f.side
  let w := (m.act cid key).win.getD {}
  if m.upcallOk cid key w f then m.upcallAct cid key w f pc
  else m.trapAct cid key (m.recOf cid w f pc 1)

/-- A write-back that meets a bank that cannot take it stops the activation as a supervisor trap (R85, R352). DEDUCED (log 41). -/
def Module.parkOrTrap (m : Module) (cid key : Nat) (st : ActSt) : Module :=
  let a := m.act cid key
  let w := a.win.getD {}
  match m.flushBad cid a.wp w with
  | some c => m.trapAct cid key (m.recOf cid w { cause := c } w.ctl.pc 1)
  | none => m.park cid key st

/-- A deferred KIND 1 entry is written once the next entry has freed (R352); the lowest slot first. -/
def Module.deferred (m : Module) (cid : Nat) : Module :=
  match (m.core cid).acts.find? (fun e => e.2.defer.isSome) with
  | some (key, a) =>
    let i := (m.core cid).sup.next
    match m.pushSup cid (a.defer.getD {}) with
    | some m' =>
      (m'.onAct cid key fun a => { a with defer := none }).onCore cid fun c =>
        { c with sup := { c.sup with keys := Tab.put c.sup.keys i key } }
    | none => m
  | none => m

/-! ## Creation (R42, R515) -/

/-- A slot that creation may take: free, with every byte in a usable bank. -/
def Module.slotOk (m : Module) (cid k : Nat) : Bool :=
  let d := (m.core cid).desc
  !bit d.held k && m.lmUsable cid (d.wp k) (2 ^ d.wssz)

/-- The lowest usable free slot of the kind named: general, or handler (R41). -/
def Module.freeSlot (m : Module) (cid : Nat) (handler : Bool) : Option Nat :=
  let c := m.core cid
  if !c.poolOk then none
  else if handler then ([c.desc.wsn - 2, c.desc.wsn - 1]).find? (m.slotOk cid)
  else (upFrom 0 (c.desc.wsn - 2)).find? (m.slotOk cid)

/-- What a creation path gives (R42). -/
structure Birth where
  pc : Word
  sw : Word := 0
  path : Nat
  cls : Nat
  dom : Nat
  hnd : Bool := false
  joina : Word := 0
  budget : BitVec 32
  g : List Word
  live : Nat := 0x3FF
  /-- Identity carried by a migration. -/
  aid : Option (Nat × Nat) := none

/-- Creation in workspace `wp` under key `key`: registers, control words, serial (R36, R42).
DEDUCED (log 30); DEDUCED (log 126). -/
def Module.birth (m : Module) (cid key wp : Nat) (b : Birth) : Module :=
  let c := m.core cid
  let (av, as_) := b.aid.getD (m.vcn cid, c.serial.toNat)
  let ctl : Ctl :=
    { pc := b.pc, sw := b.sw, liveg := BitVec.ofNat 32 b.live, path := BitVec.ofNat 3 b.path, cls := BitVec.ofNat 3 b.cls
      dom := BitVec.ofNat 3 b.dom, hnd := b.hnd, joina := b.joina, budget := b.budget, aidv := BitVec.ofNat 16 av
      aids := BitVec.ofNat 32 as_ }
  let m := (upFrom 0 10).foldl (fun m k => m.putWord cid (wp + 8 * k) (leBytes 8 ((b.g.getD k 0).toNat))) m
  let m := m.putWord cid (wp + 1280) ctl.encode
  m.onCore cid fun c =>
    { c with serial := c.serial + 1#32
             desc := if key < 64 then { c.desc with held := setBits c.desc.held key key 1 } else c.desc
             acts := Tab.put c.acts key { wp := wp, st := .ready, since := m.time, aged := m.time } }

/-- Creation in the lowest usable slot of the pool; none where the trigger must wait. DEDUCED (log 126). -/
def Module.create (m : Module) (cid : Nat) (b : Birth) : Option (Nat × Module) :=
  match m.freeSlot cid b.hnd with
  | some k => some (k, m.birth cid k ((m.core cid).desc.wp k) b)
  | none => none

/-! ## The trap activation (R352) and the returns (R351, R353) -/

/-- The oldest unconsumed entry, by write order. -/
def Module.oldestSup (m : Module) (cid : Nat) : Option Nat :=
  ((upFrom (m.core cid).sup.next 15).map (· % 15)).find? fun i => (m.supEntry cid i).v

/-- Context k of a core has a supervisor workspace that creation can write in full (R41, R515). DEDUCED (log 141). -/
def Module.trapRoom (m : Module) (cid k : Nat) : Bool :=
  let wp := ((m.core cid).ctx k).wp.toNat * 64
  decide (wp + 1344 ≤ 2 ^ 19) && m.lmUsable cid wp 1344

/-- Trap entry into the free context k: the activation of the supervisor path. -/
def Module.trapEnter (m : Module) (cid k : Nat) : Module :=
  let c := m.core cid
  if c.sup.serving.isSome || c.sup.stopped || !m.trapRoom cid k then m
  else
    match m.oldestSup cid with
    | none => m
    | some i =>
      let r := m.supEntry cid i
      let wp := (c.ctx k).wp.toNat * 64
      let g2 := if r.kind = 1 then (m.act cid (Tab.get 64 c.sup.keys i)).wp else 0
      let g := [BitVec.ofNat 64 (supOff i), BitVec.ofNat 64 (r.cause + 256 * r.sub), BitVec.ofNat 64 g2, BitVec.ofNat 64 r.kind]
      let m := m.birth cid 64 wp { pc := c.spec.trvec, sw := 1#64, path := 5, cls := 1, dom := 0, budget := 0, g := g }
      let m := m.onCore cid fun c => { c.takeWin with sup := { c.sup with serving := some i } }
      let m := m.onAct cid 64 fun a =>
        { a with win := some { ctl := Ctl.decode (m.rd (m.lmAt cid (wp + 1280)) 64),
                               g := (upFrom 0 10).map fun j => (j, g.getD j 0), touch := (upFrom 0 8).map fun b => (b, m.time) } }
      m.enter cid 64 k

/-! ## Ports and late faults of an activation that goes (R61, R311, R313, R314) -/

/-- A stream's route is released: its words on the way are gone, and its sender finds it broken; a port that was only
waiting to close is gone (R314). -/
def Module.breakRoute (m : Module) (scid sid : Nat) : Module :=
  let m := { m with flits := m.flits.filter fun f => !(f.scid == scid && f.sid == sid) }
  let mine (p : SPort) : Bool := p.sid == sid && p.route ≠ 0
  m.onCore scid fun c =>
    { c with ports := { c.ports with
        send := (c.ports.send.filter fun p => !(mine p && p.closing)).map fun p =>
          if mine p then { p with route := 3, words := [], links := [] } else p } }

/-- A stream breaks at both ends (R314): words that have arrived can still be popped. -/
def Module.breakStream (m : Module) (scid sid dcid n : Nat) : Module :=
  (m.breakRoute scid sid).onCore dcid fun c =>
    let recv := match Tab.find c.ports.recv n with
      | some r => if r.src = some (scid, sid) then Tab.put c.ports.recv n { r with broken := true, src := none } else c.ports.recv
      | none => c.ports.recv
    { c with ports := { c.ports with recv := recv, routes := c.ports.routes.filter fun r => !(r.scid == scid && r.sid == sid) } }

/-- Receive port n of a core loses its binding; an attached route breaks. -/
def Module.endRecv (m : Module) (cid n : Nat) : Module :=
  match Tab.find (m.core cid).ports.recv n with
  | some r =>
    let m := m.onCore cid fun c => { c with ports := { c.ports with recv := Tab.del c.ports.recv n } }
    match r.src with
    | some (sc, si) => if r.closed || r.broken then m else m.breakRoute sc si
    | none => m
  | none => m

/-- The send port of an activation closes: at once where nothing was written or the stream is broken, otherwise with the
closing flit after its last word. -/
def Core.closeSend (c : Core) (aid : Nat) : Core :=
  let l := c.ports.send.filter fun p => !(p.aid == aid && !p.closing && (p.route == 0 || p.route == 3))
  { c with ports := { c.ports with send := l.map fun p => if p.aid == aid then { p with closing := true } else p } }

/-- Every port and copy-stream binding of an activation ends. -/
def Module.closePorts (m : Module) (cid aid : Nat) : Module :=
  let m := m.onCore cid fun c =>
    let c := c.closeSend aid
    { c with ports := { c.ports with binds := c.ports.binds.filter (·.aid ≠ aid) } }
  (upFrom 0 4).foldl
    (fun m n => if (Tab.find (m.core cid).ports.recv n).any (·.aid == aid) then m.endRecv cid n else m) m

/-- The queue that waited for the delivery of a late fault takes commands again (R248). -/
def Module.uncancel (m : Module) (cid : Nat) : Option (Bool × Nat) → Module
  | none => m
  | some (true, q) => m.onTile (tileOf cid) fun t => { t with cpcancel := t.cpcancel.filter (· ≠ q) }
  | some (false, q) => m.onTile (tileOf cid) fun t => { t with mxcancel := t.mxcancel.filter (· ≠ q) }

/-- A late fault with no activation to take it: a containment record in the issuing core's queue (R61). -/
def Module.lateAway (m : Module) (cid aid : Nat) (x : LatePend) : Module :=
  (m.uncancel cid x.q).contain cid
    { cause := Cause.late.code, sub := x.sub.code, seq := x.seq, job := x.job, pc := x.pc, addr := x.addr
      aidv := aid / 2 ^ 32, aids := aid % 2 ^ 32 }

/-- A late fault found for an activation: pending in it, or recorded where it has left the core (R61, R88). -/
def Module.lateFor (m : Module) (cid key aid : Nat) (x : LatePend) : Module :=
  if (Tab.find (m.core cid).acts key).isSome && (m.ctlOf cid key).aid == aid then
    m.onAct cid key fun a => { a with late := a.late ++ [x] }
  else m.lateAway cid aid x

/-- The activation and its slot are gone, with its bindings and ports (R44, R277, R311, R313). -/
def Module.release (m : Module) (cid key : Nat) : Module :=
  let a := m.act cid key
  let aid := (m.ctlOf cid key).aid
  let m := m.countFixed cid ((a.win.map (·.fixed)).getD 0)
  let m := match a.ctx? with
    | some k => m.freeCtx cid k
    | none => m
  let m := m.onCore cid fun c =>
    { c.freeWin a.win with
             acts := Tab.del c.acts key
             desc := if key < 64 then { c.desc with held := setBits c.desc.held key key 0 } else c.desc
             mons := c.mons.filter (·.key ≠ key), vcancel := c.vcancel.filter (· ≠ key) }
  let m := { m with bwait := m.bwait.filter (fun w => !(w.cid == cid && w.key == key))
                    bdone := m.bdone.filter (fun w => !(w.cid == cid && w.key == key)) }
  a.late.foldl (fun m x => m.lateAway cid aid x) (m.closePorts cid aid)

/-- The V bit of an LM-resident fault record is cleared. -/
def Module.clearV (m : Module) (cid off : Nat) : Module :=
  m.putWord cid off ({ FaultRec.decode (m.lmRead cid off 64) with v := false }).encode

/-- URET's restoring half (R351): g8 and g9, UPC, WAITK, V, and PC ← WAITA. -/
def Module.unwind (m : Module) (cid : Nat) (w : Win) : Module × Win :=
  let off := w.ctl.waitv.toNat % 2 ^ 19
  let r := FaultRec.decode (m.lmRead cid off 64)
  let put (w : Win) (k : Nat) (l : Bool) (v : Word) : Win := if l then w.setG m.time k v else w.killG k
  let w := put (put w 8 r.l8 r.save8) 9 r.l9 r.save9
  let w := { w with ctl := { w.ctl with sw := swSetUpc w.ctl.sw false, waitk := 0#4, pc := w.ctl.waita } }
  (m.clearV cid off, w)

/-- A cancelled page wait (R358): the activation is unwound as URET unwinds it, and goes FAULTED at the faulting instruction
with the cause of its upcall record. -/
def Module.cancelPage (m : Module) (cid key : Nat) : Module :=
  let a := m.act cid key
  let w := match a.win with
    | some w => w
    | none => (m.bindWin cid a.wp).1
  let m := if a.win.isNone then m.onCore cid Core.takeWin else m
  let r := FaultRec.decode (m.lmRead cid (w.ctl.waitv.toNat % 2 ^ 19) 64)
  let (m, w) := m.unwind cid w
  let m := m.onAct cid key fun a => { a with win := some w, pw := none, pwCancel := false, wait := .nothing }
  m.trapAct cid key (m.stamp cid
    { cause := r.cause, sub := r.sub, kind := 1, v := true, seq := r.seq, job := r.job, pc := r.pc, addr := r.addr
      aidv := w.ctl.aidv.toNat, aids := w.ctl.aids.toNat })

/-! ## The end of an activation (R52) -/

/-- The containment record of a fault without a stopped activation, carrying an identity. -/
def Module.containAid (m : Module) (cid : Nat) (ctl : Ctl) (f : FInfo) : Module :=
  (m.sides f.side).homeContain (m.servedAt cid f.addr.toNat) cid
    { cause := f.cause.code, sub := f.sub, addr := f.addr, aidv := ctl.aidv.toNat, aids := ctl.aids.toNat }

/-- Adds −1 to a join word as a supervisor-mode check allows or refuses (R52): the location is found as RED finds it. -/
def joinDec (cid aid : Nat) (va : Nat) (super : Bool) : MM Unit := do
  let m ← get
  match m.target cid va with
  | .lm t off => do
    keyLm cid t va
    lmCheck cid t off 8 .rmw super va
    MM.upd fun m => m.lmStore t off (leBytes 8 (truncTo 64 ((m.lmNat t off 8 : Int) - 1)))
  | .dram home => do
    let (_, loc) ← dramAt cid home va .atomic super
    readWords loc 8 va
    homeWrite cid aid va super loc (.rmw 0 8 (2 ^ 64 - 1) 0)
  | .nowhere => MM.raise .page va
  | .noRoute => MM.raise .noroute va
  | _ => MM.raise .perm va

/-- A graph credit (R329, R330): COUNT items of NODE at the graph engine of the site; a tag of another launch is a
BADHANDLE containment fault. -/
def Module.credit (m : Module) (cid : Nat) (ctl : Ctl) (tag : Word) : Module :=
  let s := siteOf cid
  let p := m.partOf s
  let run := p.hqState == 2 || p.hqState == 3
  if run && bits tag 62 47 == p.hqLaunch then
    if (m.site s).graph.stopped then m
    else m.onSite s fun x =>
      let n := bits tag 14 3
      { x with graph := { x.graph with credits := Tab.put x.graph.credits n (Tab.get 0 x.graph.credits n + bits tag 46 15) } }
  else m.contain cid { cause := Cause.badhandle.code, addr := tag, aidv := ctl.aidv.toNat, aids := ctl.aids.toNat }

/-- What END does for the join word (R52, R329); a fault leaves the word and is contained. None while it must wait. -/
def Module.endJoin (m : Module) (cid : Nat) (ctl : Ctl) : Option Module :=
  let j := ctl.joina
  if j = 0#64 then some m
  else if bit j 63 then some (m.credit cid ctl j)
  else
    match joinDec cid ctl.aid j.toNat (swMode ctl.sw) m with
    | .ok (_, m') => some m'
    | .error (.fault f) => some (m.containAid cid ctl f)
    | .error _ => none

/-- The trap activation has served the entry of a stepped activation: the tile's engines run on once no other such entry of the tile
is still to be served (R361). -/
def Tile.unfreeze (t : Tile) (cid key : Nat) : Tile :=
  if t.stepped.contains (cid, key) then
    let l := t.stepped.erase (cid, key)
    { t with stepped := l, frozen := !l.isEmpty }
  else t

/-- ERET in a trap activation (R353): completes its entry. None is the ILLOP of DISP 2–3. An activation that ends here has not been
resumed, so it credits no items (R340). -/
def Module.eret (m : Module) (cid : Nat) : Option Module :=
  let c := m.core cid
  match c.sup.serving with
  | none => none
  | some i =>
    let r := m.supEntry cid i
    let key := Tab.get 64 c.sup.keys i
    let fin (m : Module) : Module :=
      let m := m.clearV cid (supOff i)
      let m := m.release cid 64
      let m := m.onCore cid fun c => { c with sup := { c.sup with serving := none, keys := Tab.del c.sup.keys i } }
      let m := m.onTile (tileOf cid) fun t => t.unfreeze cid key
      m.deferred cid
    if r.kind = 1 then
      match r.disp with
      | 0 =>
        let ctl := m.ctlOf cid key
        (m.endJoin cid (if bit ctl.joina 63 then { ctl with joina := 0 } else ctl)).map fun m => fin (m.release cid key)
      | 1 =>
        let ctl := m.ctlOf cid key
        let m := m.setCtl cid key { ctl with cls := 4#3, waitk := if swUpc ctl.sw then ctl.waitk else 0#4 }
        some (fin (m.onAct cid key fun a =>
          { a with st := .ready, since := m.time, aged := m.time, hcyc := 0, wait := .nothing }))
      | _ => none
    else some (fin m)

end Sys2Proof.Machine
end

