-- ==== Sys2Proof/Machine/Agent.lean ====
section
/-!
DEFINITION. Accesses by any agent to any window but CFG: loads and stores (R27–R30, R165–R173, R439, R480, R498), engine
accesses (R271), atomics (R216–R220), reservations (R222), exact cells (R225) and barrier objects (R226–R231).
-/
namespace Sys2Proof.Machine

/-! ## Requests to peer modules (R301, R386) -/

/-- Two requests ask for the same thing on behalf of the same requester. -/
def Packet.sameAsk (a b : Packet) : Bool :=
  a.kind == b.kind && a.va == b.va && a.size == b.size && a.opc == b.opc && a.c == b.c && a.d == b.d && a.dmod == b.dmod && a.dpart == b.dpart
    && a.payload == b.payload && a.super == b.super && a.actKey == b.actKey && a.aid == b.aid

/-- A request to a peer: the answer when it has landed in its reply slot; otherwise the requester puts it, or waits. -/
def peerAsk (cid : Nat) (p : Packet) : MM (List Byte) := fun m =>
  match (m.core cid).ni.slots.find? fun e => e.2.req.sameAsk p with
  | some (k, r) =>
    match r.ans with
    | .none_ => .error .stall
    | .ok v => .ok (leBytes p.size v, m.side (.slot cid k))
    | .bad c a => .error (.fault { cause := c, addr := a, side := [.slot cid k] })
  | none => .error (.ask cid (.peer p))

/-- The request for n bytes at offset `off` of peer i's ILV window. `who` tells apart the requesters of one core: a
context 0–3, the vector unit 4, copy queue q as 8 + q. -/
def Module.peerReq (m : Module) (cid who : Nat) (kind : PKind) (i off n : Nat) (super : Bool) : Packet :=
  let e := Tab.get 0 m.peers i
  { kind := kind, dmod := bits e 15 0, dpart := bits e 21 16, smod := m.modnum.toNat, ssite := siteOf cid, sl := logOf cid, svcn := m.vcn cid
    pkey := (m.core cid).spec.pk, va := BitVec.ofNat 64 (2 ^ 53 + off), size := n, super := super, actKey := who
    aid := ((m.core cid).ctx who).act.elim 0 fun k => (m.ctlOf cid k).aid }

/-! ## Loads and stores -/

/-- A read of n bytes inside one 64-byte line. `stash` holds for the core's own instructions (R185), `group` is the group
whose expander serves GROUP. DESIGN CHOICE (log 5). -/
def loadAt (cid who va n : Nat) (super stash : Bool) : MM (List Byte) := do
  let m ← get
  match m.target cid va with
  | .lm t off => do
    keyLm cid t va
    lmLoad cid t off n super va
  | .group off => groupRead (groupOf cid) off n va
  | .dram home =>
    if stash then dramLoad cid who home va n .load super
    else do
      let (_, loc) ← dramAt cid home va .load super
      homeRead loc n va
  | .sys => do
    match ← sysAt cid va .load super with
    | .host loc => return (← get).rd loc n
    | .peer i off => peerAsk cid (m.peerReq cid who .read i off n super)
  | .nowhere => MM.raise .page va
  | .noRoute => MM.raise .noroute va
  | .cfg _ _ => MM.raise .perm va

/-- An engine's write at a home: it is performed where it arrives, and ends as NOROUTE where only its reply finds no route (R299). -/
def engineStore (cid home va : Nat) (bs : List Byte) (super : Bool) : MM Unit := do
  let m ← get
  if (m.freeReply cid).isNone then MM.stall
  MM.stopIf (!m.pathOk (siteOf cid) home) .noroute va
  MM.stopIf ((m.core cid).spec.pk ≠ (m.site home).pkey) .pkey va
  let (_, pa) ← xlate home va cid .store super
  if m.pathOk home (siteOf cid) then engineWrite (dramLoc home pa) bs
  else MM.fault { cause := .noroute, addr := BitVec.ofNat 64 va, side := [.wrote (dramLoc home pa) bs] }

/-- A write of bytes inside one 64-byte line. DESIGN CHOICE (log 5). -/
def storeAt (cid who va : Nat) (bs : List Byte) (super stash : Bool) : MM Unit := do
  let m ← get
  match m.target cid va with
  | .lm t off => do
    keyLm cid t va
    lmSave cid t off bs super va
  | .dram home =>
    if stash then dramStore cid who home va bs super
    else engineStore cid home va bs super
  | .sys => do
    match ← sysAt cid va .store super with
    | .host loc => MM.upd fun m => m.putBytes loc bs
    | .peer i off => do
      let _ ← peerAsk cid { m.peerReq cid who .write i off bs.length super with payload := bs }
  | .nowhere => MM.raise .page va
  | .noRoute => MM.raise .noroute va
  | .group _ => MM.raise .perm va
  | .cfg _ _ => MM.raise .perm va

/-! ## Atomics (R218, R219) -/

/-- An atomic at its place (R216), for requester `who`: the old value. `home_` holds for `.o`, numbered `num`, which the home slice
performs. An ATOM waits for the earlier writes of its activation to the line and, with `.o`, for the earlier `.o` operations to
the home (R198, R207). DEDUCED (log 68). -/
def atomAt (cid who va w opc c d : Nat) (super home_ : Bool) : MM Nat := do
  let n := w / 8
  MM.stopIf (va % n ≠ 0) .misalign va
  let m ← get
  let aid := m.whoAid cid who
  match m.target cid va with
  | .lm t off => do
    keyLm cid t va
    lmCheck cid t off n .rmw super va
    let old := (← get).lmNat t off n
    match rmwNew opc w old c d with
    | some v => MM.upd fun m => m.lmStore t off (leBytes n v)
    | none => pure ()
    return old
  | .dram home => do
    let (e, loc) ← dramAt cid home va .atomic super
    waitOwn cid aid loc
    if home_ then do
      if m.homeLate cid aid loc then MM.stall
      else do
        let bs ← homeRead loc n va
        MM.home fun m => m.perform loc (.rmw opc n c d)
        return leNat bs
    else do
      ownWords cid loc n va
      fillLine cid who loc va true (!(leafST e && (m.core cid).stashNb ≠ 0))
      let old := leNat (((← get).core cid).lineBytes loc n)
      match rmwNew opc w old c d with
      | some v => stashWrite cid loc (leBytes n v)
      | none => pure ()
      return old
  | .nowhere => MM.raise .page va
  | .noRoute => MM.raise .noroute va
  | _ => MM.raise .perm va

/-- RED at its place (R216, R459): checked, then on its way. -/
def redAt (cid who va w opc c : Nat) (super : Bool) (num : Option Nat) : MM Unit := do
  let n := w / 8
  MM.stopIf (va % n ≠ 0) .misalign va
  let m ← get
  match m.target cid va with
  | .lm _ _ => do
    let _ ← atomAt cid who va w opc c 0 super true
  | .dram home => do
    let (_, loc) ← dramAt cid home va .atomic super
    readWords loc n va
    homeWrite cid (m.whoAid cid who) va super loc (.rmw opc n c 0) num
  | .nowhere => MM.raise .page va
  | .noRoute => MM.raise .noroute va
  | _ => MM.raise .perm va

/-! ## Reservations (R222, R441) -/

/-- LDRS: the value, and the line that is reserved. -/
def ldrsAt (cid who va n : Nat) (super : Bool) : MM (Nat × Resv) := do
  MM.stopIf (va % n ≠ 0) .misalign va
  let m ← get
  match m.target cid va with
  | .lm t off => do
    MM.stopIf (t ≠ cid) .perm va
    let bs ← lmLoad cid t off n super va
    return (leNat bs, ⟨lineOf (m.lmAt t off), false, 0, BitVec.ofNat 64 va⟩)
  | .dram home => do
    let (e, loc) ← dramAt cid home va .ldrs super
    waitOwn cid (m.whoAid cid who) loc
    ownWords cid loc n va
    fillRead cid who loc va true (!(leafST e && (m.core cid).stashNb ≠ 0))
    let bs ← lineOrHome cid loc n va
    return (leNat bs, ⟨lineOf loc, true, m.time + 64, BitVec.ofNat 64 va⟩)
  | .nowhere => MM.raise .page va
  | .noRoute => MM.raise .noroute va
  | _ => MM.raise .perm va

/-- STC: the checks of a store to a target of R222, then the write where the reservation holds; true when it wrote. -/
def stcAt (cid who va : Nat) (bs : List Byte) (super : Bool) (r : Option Resv) : MM Bool := do
  let n := bs.length
  MM.stopIf (va % n ≠ 0) .misalign va
  let m ← get
  match m.target cid va with
  | .lm t off => do
    MM.stopIf (t ≠ cid) .perm va
    lmCheck cid t off n .write super va
    if r.any (·.line == lineOf (m.lmAt t off)) then
      MM.upd fun m => m.lmStore t off bs
      return true
    else return false
  | .dram home => do
    let (e, loc) ← dramAt cid home va .store super
    MM.stopIf (leafXS e) .perm va
    waitOwn cid (m.whoAid cid who) loc
    if r.any (·.line == lineOf loc) then
      fillLine cid who loc va true (!(leafST e && (m.core cid).stashNb ≠ 0))
      stashWrite cid loc bs
      return true
    else return false
  | .nowhere => MM.raise .page va
  | .noRoute => MM.raise .noroute va
  | _ => MM.raise .perm va

/-! ## Exact-sum cells (R225, R461, R462) -/

/-- The location of a cell. -/
def cellAt (cid va : Nat) (a : Acc) (super : Bool) : MM Nat := do
  MM.stopIf (va % 64 ≠ 0) .misalign va
  let m ← get
  match m.target cid va with
  | .dram home => do
    let (_, loc) ← dramAt cid home va a super
    readWords loc 64 va
    return loc
  | .nowhere => MM.raise .page va
  | .noRoute => MM.raise .noroute va
  | _ => MM.raise .perm va

/-- REDX: checked, then on its way (R225, R461). -/
def redxAt (cid who va f x : Nat) (super : Bool) : MM Unit := do
  let loc ← cellAt cid va .redx super
  homeWrite cid ((← get).whoAid cid who) va super loc (.redx f x)

/-- XREAD waits for the earlier sums of its activation to the cell (R197). -/
def xreadAt (cid who va : Nat) (super : Bool) : MM Nat := do
  let loc ← cellAt cid va .xread super
  waitOwn cid ((← get).whoAid cid who) loc
  let bs ← homeRead loc 64 va
  return leNat bs

/-! ## Barrier objects (R226–R231) -/

/-- A barrier object (R226). -/
structure BarObj where
  target : Nat
  count : Nat
  pend : Nat
  phase : Bool
  v : Bool
  scope : Nat
  deriving DecidableEq, Repr

def barDecode (x : Nat) : BarObj :=
  ⟨fieldOf x 23 0, fieldOf x 55 32, fieldOf x 95 64, fieldOf x 96 96 == 1, fieldOf x 97 97 == 1, fieldOf x 101 98⟩

/-- The object's fields over the bits it had: reserved bits keep theirs. -/
def barEncode (old : Nat) (o : BarObj) : Nat :=
  let r := fieldOf old 31 24 * 2 ^ 24 + fieldOf old 63 56 * 2 ^ 56 + old / 2 ^ 102 * 2 ^ 102
  r + o.target + o.count * 2 ^ 32 + o.pend * 2 ^ 64 + o.phase.toNat * 2 ^ 96 + o.v.toNat * 2 ^ 97 + o.scope * 2 ^ 98

/-- The location of an object after the checks of R226, and whether it lies in DRAM. R178 has no row for barriers: all five
instructions ask R and W of a leaf. DESIGN CHOICE (log 144). -/
def barAt (cid va : Nat) (super : Bool) : MM (Nat × Bool) := do
  MM.stopIf (va % 32 ≠ 0) .misalign va
  let m ← get
  match m.target cid va with
  | .lm t off => do
    keyLm cid t va
    lmCheck cid t off 32 .rmw super va
    return (m.lmAt t off, false)
  | .dram home => do
    let (_, loc) ← dramAt cid home va .atomic super
    let _ ← homeRead loc 32 va
    return (loc, true)
  | .nowhere => MM.raise .page va
  | .noRoute => MM.raise .noroute va
  | _ => MM.raise .perm va

/-- The object at a location, and its change: in LM as any store changes it, read-only fields and reserved bits keeping their
value (R4, R5). -/
def Module.barWord (m : Module) (loc : Nat) : Nat :=
  leNat (if isLm loc then (match m.lmOwner loc with
    | some (c, off) => m.lmRead c off 32
    | none => m.rd loc 32)
  else m.now loc 32)
def Module.barObj (m : Module) (loc : Nat) : BarObj := barDecode (m.barWord loc)
def Module.barPut (m : Module) (loc : Nat) (dram : Bool) (x : Nat) : HomeRes Unit :=
  if dram then m.dramWrite loc (leBytes 32 x) true
  else .ok () (match m.lmOwner loc with
    | some (c, off) => m.lmStore c off (leBytes 32 x) true
    | none => m.putBytes loc (leBytes 32 x) true)

/-- WakeAll: every registered waiter of the object becomes READY with a status. -/
def Module.wakeBar (m : Module) (loc : Nat) (status : Nat) : Module :=
  let (out, keep) := m.bwait.partition fun w => w.loc == loc
  out.foldl (fun m w => m.wake w.cid w.key (some (BitVec.ofNat 64 status))) { m with bwait := keep }

/-- The home site of an object's location. -/
def siteOfObj (loc : Nat) : Nat := if loc < 2 ^ 64 then loc / 2 ^ 19 / 144 else siteOfLoc loc
/-- The object is registered as a network barrier (R231). -/
def Module.isNetBar (m : Module) (loc : Nat) : Bool := (m.site (siteOfObj loc)).bars.contains loc

/-- Completion: waiters wake, those of a network barrier when the completion multicast reaches their site. Whether such a waiter still
counts as registered for BARBUSY until then is open (R227, R231); here it does not. DESIGN CHOICE (log 145). -/
def Module.phaseDone (m : Module) (loc : Nat) : Module :=
  if m.isNetBar loc then
    let (out, keep) := m.bwait.partition fun w => w.loc == loc
    { m with bwait := keep, bdone := m.bdone ++ out }
  else m.wakeBar loc 0

/-- An object changed, with BarDone (R227): whether a phase completed. -/
def Module.barChange (m : Module) (loc : Nat) (dram : Bool) (o : BarObj) : HomeRes Bool :=
  let done := o.v && o.count == o.target && o.pend == 0
  let o' := if done then { o with phase := !o.phase, count := 0 } else o
  (m.barPut loc dram (barEncode (m.barWord loc) o')).bind fun _ m => .ok done (if done then m.phaseDone loc else m)

/-- An arrival of checked count at a valid object, or of the sum of several such (R227, R231). -/
def Module.arriveAt (m : Module) (loc : Nat) (dram : Bool) (c : Nat) : HomeRes Nat :=
  let o := m.barObj loc
  if !o.v then .ok (2 * 2 ^ 16) m
  else
    (m.barChange loc dram { o with count := min (o.count + c) o.target }).bind fun d m =>
      .ok (o.phase.toNat + d.toNat * 2 ^ 8) m

/-- Bara on an object (R227). -/
def Module.bara (m : Module) (loc : Nat) (dram : Bool) (c : Nat) : HomeRes Nat :=
  if (m.barObj loc).v && decide (2 ^ 24 ≤ c) then .ok (3 * 2 ^ 16) m else m.arriveAt loc dram c

/-- A pending-byte decrement (R227): discarded where V = 0. -/
def Module.barSub (m : Module) (loc : Nat) (dram : Bool) (n : Nat) : HomeRes Unit :=
  let o := m.barObj loc
  if !o.v then .ok () m
  else (m.barChange loc dram { o with pend := truncTo 32 ((o.pend : Int) - n) }).bind fun _ m => .ok () m

/-- The collective unit's registration of a network barrier, 256 at most (R231); any other object is registered nowhere.
The spec does not say when an entry of the unit is freed: here a BARI of another scope at the place frees it, and BARV does not.
DESIGN CHOICE (log 15); DESIGN CHOICE (log 154). -/
def Module.barRegister (m : Module) (loc scope : Nat) : Module :=
  m.onSite (siteOfObj loc) fun x =>
    if scope == 5 || scope == 6 then
      if x.bars.contains loc || 256 ≤ x.bars.length then x else { x with bars := loc :: x.bars }
    else { x with bars := x.bars.filter (· ≠ loc) }

end Sys2Proof.Machine
end

