-- ==== Sys2Proof/Machine/Jobs.lean ====
section
/-!
DEFINITION. Jobs and copy commands as other units see them: descriptors (R269), runs and offsets (R270, R279), job sequences
(R236), and the pieces that a bound stream register pops (R277, R278).
-/
namespace Sys2Proof.Machine

/-! ## Transform units (R279) -/

/-- Source and destination bytes of one unit of a transform; none where the parameters break R279. -/
def unitOf (xf par : Nat) : Option (Nat × Nat) :=
  let st := fieldOf par 3 0
  let dt := fieldOf par 7 4
  let rm := fieldOf par 10 8
  match xf with
  | 0 => if par = 0 then some (1, 1) else none
  | 1 => if par = 0 then some (8, 256) else none
  | 2 => if par < 32 then some (256, 264) else none
  | 3 =>
    if par < 4096 && (st == 12 || st == 13 || st == 14) && (dt == 10 || dt == 11) && rm ≠ 5 && rm ≠ 6 then
      some (if st = 14 then 40 else 72, 128)
    else none
  | 4 =>
    if par < 4096 && st ≤ 14 && dt ≤ 14 && rm ≠ 5 && rm ≠ 6 then
      let k := if st = 14 || dt = 14 then 2 else 1
      some (k * Num.widthOf st / 8, k * Num.widthOf dt / 8)
    else none
  | 5 => if par = 0 then some (128, 128) else none
  | 6 =>
    let m := fieldOf par 6 4
    if par < 128 && (st == 9 || st == 11) && m ≠ 5 && m ≠ 6 then some (Num.widthOf st / 8, Num.widthOf st / 8) else none
  | _ => none

/-- OutLen (R270): for expand and encode the bound of R276. -/
def outLen (xf par len : Nat) : Nat :=
  match unitOf xf par with
  | some (s, d) => if xf = 1 then (len + 7) / 8 * 256 else len / s * d
  | none => 0

/-! ## Descriptors and runs (R269, R270) -/

/-- The fields of a descriptor's 64 bytes. -/
def CpDesc.decode (x : Nat) : CpDesc :=
  { len := fieldOf x 31 0, n1 := fieldOf x 47 32, n2 := fieldOf x 63 48, ss1 := BitVec.ofNat 64 (fieldOf x 127 64)
    ss2 := BitVec.ofNat 64 (fieldOf x 191 128), ds1 := BitVec.ofNat 64 (fieldOf x 255 192)
    ds2 := BitVec.ofNat 64 (fieldOf x 319 256), bar := BitVec.ofNat 64 (fieldOf x 383 320), scope := fieldOf x 387 384
    xf := fieldOf x 390 388, wk := fieldOf x 391 391 == 1, par := fieldOf x 414 392, went := fieldOf x 434 416
    idx := BitVec.ofNat 64 (fieldOf x 511 448) }

/-- Destination bytes of one run, and of the whole command. -/
def CpDesc.runOut (d : CpDesc) : Nat := outLen d.xf d.par d.len
def CpCmd.total (c : CpCmd) : Nat := if c.op = .dtld then 2 * c.d.len else c.d.runOut * c.d.n1 * c.d.n2

/-- An index word, sign-extended and scaled. -/
def scaleIdx (i : Nat) (scale : Word) : Word := trunc64 (signedOf 32 i * scale.toInt)

/-- RunAddr (R270), given the run's index word. -/
def CpCmd.runSrc (c : CpCmd) (i1 i2 idx : Nat) : Word :=
  match c.op with
  | .gath => c.q + scaleIdx idx c.d.ss1
  | _ => c.q + BitVec.ofNat 64 i1 * c.d.ss1 + BitVec.ofNat 64 i2 * c.d.ss2
def CpCmd.runDst (c : CpCmd) (i1 i2 idx : Nat) : Word :=
  match c.op with
  | .scat => c.p + scaleIdx idx c.d.ds1
  | _ => c.p + BitVec.ofNat 64 i1 * c.d.ds1 + BitVec.ofNat 64 i2 * c.d.ds2

/-- The requester number of a copy queue (R266). -/
def cpWho (q : Nat) : Nat := 8 + q

/-- Idx(i1) of GATH and SCAT, as a source read of the command. -/
def CpCmd.idxAt (c : CpCmd) (q i1 : Nat) : MM Nat :=
  match c.op, Tab.find c.idxs i1 with
  | .gath, none | .scat, none => do
    let bs ← loadAt c.by_.cid (cpWho q) ((c.d.idx + BitVec.ofNat 64 (4 * i1)).toNat) 4 c.by_.super false
    return leNat bs
  | _, some v => pure v
  | _, none => pure 0

/-- The address of the destination byte at offset o. -/
def CpCmd.dstAt (c : CpCmd) (q o : Nat) : MM Nat := do
  let w := c.d.runOut
  let r := o / w
  let i ← c.idxAt q (r % c.d.n1)
  return (c.runDst (r % c.d.n1) (r / c.d.n1) i + BitVec.ofNat 64 (o % w)).toNat

/-! ## Job sequences (R236) -/

/-- The next job ID of a sequence: 1 to 65,535, then 1 again. -/
def JobSeq.next (j : JobSeq) : Nat := j.last % 65535 + 1
/-- A push: the sequence with the new job QUEUED. -/
def JobSeq.push (j : JobSeq) : JobSeq := { last := j.next, st := Tab.put j.st j.next .queued }
def JobSeq.set (j : JobSeq) (id : Nat) (s : JobSt) : JobSeq := { j with st := Tab.put j.st id s }
/-- JobState (R236). -/
def JobSeq.state (j : JobSeq) (id : Nat) : JobSt :=
  if id = 0 then .complete
  else if 32768 < (((j.last : Int) - id) % 65535).toNat then .complete
  else Tab.get .complete j.st id

/-- The number that JPOLL writes (R237). -/
def JobSt.code : JobSt → Nat
  | .complete => 0
  | .queued => 1
  | .running => 2
  | .faulted => 3

/-- Changes of a core's job state; activations that wait for the job become READY (R237). -/
def Module.setJob (m : Module) (cid : Nat) (cp : Bool) (id : Nat) (s : JobSt) : Module :=
  let m := m.onCore cid fun c => if cp then { c with jobCp := c.jobCp.set id s } else { c with jobMx := c.jobMx.set id s }
  if s = .complete || s = .faulted then
    ((m.core cid).acts.filter fun e => e.2.st == .suspended && e.2.wait == .job cp id).foldl
      (fun m e => m.wake cid e.1 (some (if s = .complete then 0 else 3))) m
  else m

/-! ## Copy jobs and stream pieces (R277, R278) -/

/-- The queue and command of a copy job that is still queued or running. -/
def Module.cpFind (m : Module) (cid job : Nat) : Option (Nat × CpCmd) :=
  ((m.tile (tileOf cid)).cpq.flatMap fun e => (e.2.filter fun c => c.by_.cid == cid && c.by_.job == job && c.node.isNone).map
    fun c => (e.1, c)).head?

/-- A copy job of a core: queued, running, or among the 16 latest that have ended. -/
def Module.cpJob (m : Module) (cid job : Nat) : Option (Nat × CpCmd) :=
  match m.cpFind cid job with
  | some x => some x
  | none => (Tab.find (m.core cid).cpLog job).map fun c => (0, c)

/-- Every byte of a command has been performed. -/
def CpCmd.moved (c : CpCmd) : Bool :=
  match c.op, c.d.xf with
  | .dtld, _ => 2 * c.d.len ≤ c.off
  | .cpyx, 1 | .cpyx, 2 => decide (c.d.len ≤ c.soff) && c.tail.isEmpty
  | _, _ => c.total ≤ c.off

/-- Every destination run lies in the core's own LM, 8-byte aligned in start and length (R277); that of an expand or encode has its
real length once every record has been handled. -/
def Module.cpLocal (m : Module) (cid q : Nat) (c : CpCmd) : Bool :=
  let w := c.d.runOut
  let n := if c.op = .cpyx ∧ (c.d.xf = 1 ∨ c.d.xf = 2) ∧ c.moved then c.off else w
  n % 8 == 0 &&
    (upFrom 0 (c.d.n1 * c.d.n2)).all fun r =>
      match c.dstAt q (r * w) m with
      | .ok (a, _) =>
        match m.target cid a with
        | .lm t off => t == cid && off % 8 == 0 && off + n ≤ 2 ^ 19
        | _ => false
      | _ => false

/-- Its piece count (R278): of an expand or encode it is known once every record has been handled, and bounded by R276 before.
DEDUCED (log 132). -/
def CpCmd.pieces (c : CpCmd) : Nat := (if c.moved then c.off else c.total) / 8

/-- A binding's next piece (R278): its value; a wait; or the fault of a pop. -/
def Module.popBound (m : Module) (cid : Nat) (b : SBind) : MM Word := do
  match m.cpJob cid b.job with
  | none => MM.raise .streambrk
  | some (q, c) =>
    if c.pieces ≤ b.next then MM.raise .badopnd
    else if 8 * b.next + 8 ≤ c.off then
      let a ← c.dstAt q (8 * b.next)
      match m.target cid a with
      | .lm t off => do
        lmCheck cid t off 8 .read true a
        return BitVec.ofNat 64 (m.lmNat t off 8)
      | _ => MM.raise .streambrk
    else if (m.core cid).jobCp.state b.job = .faulted then MM.raise .streambrk
    else MM.stall

/-- The binding after a pop; it ends after its last piece. -/
def Module.stepBind (m : Module) (cid : Nat) (b : SBind) : Module :=
  let n := match m.cpJob cid b.job with
    | some (_, c) => c.pieces
    | none => 0
  let mine (x : SBind) : Bool := x.aid == b.aid && x.n == b.n
  m.onCore cid fun c =>
    let l := c.ports.binds
    let l' := if n ≤ b.next + 1 then l.filter fun x => !mine x
      else l.map fun x => if mine x then { x with next := b.next + 1 } else x
    { c with ports := { c.ports with binds := l' } }

/-! ## What a waiting operation puts (R301, R231, R387) -/

/-- The Tamvex port that names a module, and the edge site it faces (R382, R386). -/
def Module.tvxPort (m : Module) (mod : Nat) : Option Nat := (m.tvx.find? fun e => tvxEn e.2 && tvxMod e.2 == mod).map (·.1)
def Module.tvxSite (m : Module) (mod : Nat) : Option Nat :=
  (m.tvxPort mod).bind fun p => (edgeSites (p / 2)).find? m.live

/-- A packet handed to the NI: it waits for injection (R301). -/
def Module.post (m : Module) (p : Packet) : Module :=
  { m with pkts := Tab.put m.pkts m.nextPkt p, nextPkt := m.nextPkt + 1 }

/-- A packet that takes the next number of its core's sequence (R319). DEDUCED (log 92). -/
def Module.postSeq (m : Module) (cid : Nat) (p : Packet) : Module :=
  let (q, m) := m.takeSeq cid
  m.post { p with seq := q }

/-- What an operation that waits leaves behind. A request that finds no free reply slot waits for one. -/
def Module.putAsk (m : Module) (cid : Nat) : Ask → Module
  | .peer p =>
    match m.freeReply cid with
    | some k =>
      let p := { p with slot := k, dsite := (m.tvxSite p.dmod).getD p.ssite, here := p.ssite }
      (m.onCore cid fun c => { c with ni := { c.ni with slots := Tab.put c.ni.slots k ⟨p, m.time, .none_⟩ } }).post p
    | none => m
  | .noRoom loc => m.noRoom loc
  | .recall line c w => m.deferRecall line c w
  | .arrive site loc count c key =>
    m.onSite site fun x =>
      if x.comb.any fun b => b.waiters.contains (c, key) then x
      else
        match findIdx (fun b : Combine => b.loc == loc && b.res.isNone && m.time ≤ b.until_) x.comb with
        | some (i, b) => { x with comb := setAt x.comb i { b with count := b.count + count, waiters := b.waiters ++ [(c, key)] } }
        | none => { x with comb := x.comb ++ [⟨loc, count, m.time + 7, [(c, key)], none⟩] }

end Sys2Proof.Machine
end

