-- ==== Sys2Proof/Machine/VecUnit.lean ====
section
/-!
DEFINITION. The vector unit (R486–R499): lanes, the result of each form from the operands captured at commit, element
accesses, retirement and late faults (R87, R88, R487, R488), and the coprocessor ring.
-/
namespace Sys2Proof.Machine

/-! ## Lanes -/

def laneAt (w x i : Nat) : Nat := x / 2 ^ (w * i) % 2 ^ w

/-- Lanes i, i+1, … laid down from bit 0, with the flags of all of them ORed. -/
def packLanes (w : Nat) (f : Nat → Nat × Nat) : List Nat → Nat × Nat
  | [] => (0, 0)
  | i :: is =>
    let (v, fl) := f i
    let (r, g) := packLanes w f is
    (v % 2 ^ w + 2 ^ w * r, fl ||| g)

/-- The effective rounding mode: code 7 takes RM of the status word (R124). -/
def effMode (rm : Nat) (sw : Word) : Nat := if rm = 7 then swRm sw else rm

/-- Elements of a type in 512 bits (R486). -/
def lanesOf (ty : Nat) : Nat := 512 / Num.widthOf ty

/-! ## Element arithmetic (R490, R491) -/

/-- The arithmetic forms on one lane: VOP 0–7. -/
def laneArith (vop ty mode h : Nat) (sat : Bool) (b c d : Nat) : Nat × Nat :=
  if Num.isInt ty then
    let x := Num.intVal ty b; let y := Num.intVal ty c; let z := Num.intVal ty d
    let r : Int := match vop with
      | 0 => x + y
      | 1 => x - y
      | 2 => x * y
      | 3 => x * y + z
      | 4 => min x y
      | 5 => max x y
      | 6 => x.natAbs
      | _ => -x
    (Num.intOut ty sat r, 0)
  else
    let f := Num.fmtOf ty
    let x := f.val b; let y := f.val c; let z := f.val d
    match vop with
    | 0 => f.deliver mode h sat (Num.addVal mode x y)
    | 1 => f.deliver mode h sat (Num.addVal mode x y.neg)
    | 2 => f.deliver mode h sat (Num.mulVal x y)
    | 3 => f.deliver mode h sat (Num.fmaVal mode x y z)
    | 4 => (f.minMax false b c, 0)
    | 5 => (f.minMax true b c, 0)
    | 6 => (b % 2 ^ (f.w - 1), 0)
    | _ => ((b % 2 ^ f.w) ^^^ 2 ^ (f.w - 1), 0)

/-- VAND, VOR, VXOR, VSHL, VSHR, VSAR on one lane: VOP 8–13. -/
def laneBits (vop w b c : Nat) : Nat :=
  match vop with
  | 8 => b &&& c
  | 9 => b ||| c
  | 10 => b ^^^ c
  | 11 => (b <<< (c % w)) % 2 ^ w
  | 12 => b >>> (c % w)
  | _ => truncTo w (signedOf w b / 2 ^ (c % w))

/-- A lane comparison (R492). -/
def laneCmp (ty cnd b c : Nat) : Bool × Nat :=
  if Num.isInt ty then
    let x := Num.intVal ty b; let y := Num.intVal ty c
    (match cnd with
     | 0 => x == y
     | 1 => decide (x < y)
     | 2 => decide (x ≤ y)
     | _ => x ≠ y, 0)
  else (Num.fmtOf ty).cmp cnd b c

/-- One combination of VRED (R495): ROP. -/
def laneRed (rop ty mode h : Nat) (sat : Bool) (b c : Nat) : Nat × Nat :=
  match rop with
  | 0 => laneArith 0 ty mode h sat b c 0
  | 1 => laneArith 4 ty mode h false b c 0
  | 2 => laneArith 5 ty mode h false b c 0
  | 3 => (b &&& c, 0)
  | 4 => (b ||| c, 0)
  | _ => (b ^^^ c, 0)

/-- One level of the tree of R154; absent elements give way. -/
def redLevel (f : Nat → Nat → Nat → Nat × Nat) (i : Nat) : List (Option Nat) → List (Option Nat) × Nat
  | x :: y :: rest =>
    let (r, fl) := match x, y with
      | some a, some b => let (v, g) := f i a b; (some v, g)
      | some a, none => (some a, 0)
      | none, z => (z, 0)
    let (rs, g) := redLevel f (i + 1) rest
    (r :: rs, fl ||| g)
  | l => (l, 0)

def redTree (f : Nat → Nat → Nat → Nat × Nat) : Nat → List (Option Nat) → Nat × Nat
  | 0, l => ((l.head?.join).getD 0, 0)
  | n + 1, l =>
    let (l', fl) := redLevel f 0 l
    let (r, g) := redTree f n l'
    (r, fl ||| g)

/-- VDOT on destination lane j (R494). -/
def laneDot (ty mode h : Nat) (sat : Bool) (b c d j : Nat) : Nat × Nat :=
  let w := Num.widthOf ty
  let k := 32 / w
  if Num.isInt ty then
    let s := (upFrom (k * j) k).foldl (fun a i => a + Num.intVal ty (laneAt w b i) * Num.intVal ty (laneAt w c i)) 0
    (Num.intOut 2 sat (signedOf 32 (laneAt 32 d j) + s), 0)
  else
    let f := Num.fmtOf ty
    let s := (upFrom (k * j) k).foldl
      (fun (a : Num.Sum) i => a.addEx (Num.mulVal (f.val (laneAt w b i)) (f.val (laneAt w c i)))) {}
    let s := s.addEx (Num.f32.val (laneAt 32 d j)).addend
    Num.f32.deliver mode h false (s.ex mode)

/-! ## The compute and move forms -/

/-- The RSH value of a lane (R147, R148). -/
def VOp.h (o : VOp) (i : Nat) : Nat := Num.rshHash o.seed.toNat i o.rshc.toNat

/-- A vector form's result: the destination's new bits and the flags. VOP of the form, as R489 numbers it. -/
def VOp.compute (o : VOp) (vop : Nat) (f : VecF) : Nat × Nat :=
  let ty := f.ty.toNat
  let w := Num.widthOf ty
  let mode := effMode f.rm.toNat o.sw
  let inact (w i : Nat) : Nat := if f.zero then 0 else laneAt w o.old.toNat i
  let act (i : Nat) : Bool := Nat.testBit o.m i
  let each (n w : Nat) (g : Nat → Nat × Nat) : Nat × Nat :=
    packLanes w (fun i => if act i then g i else (inact w i, 0)) (upFrom 0 n)
  let B := laneAt w o.b; let C := laneAt w o.c; let D := laneAt w o.d
  match vop with
  | 0 | 1 | 2 | 3 | 4 | 5 | 6 | 7 => each (lanesOf ty) w fun i => laneArith vop ty mode (o.h i) f.sat (B i) (C i) (D i)
  | 8 | 9 | 10 | 11 | 12 | 13 => each (lanesOf ty) w fun i => (laneBits vop w (B i) (C i), 0)
  | 14 =>
    packLanes 1 (fun i => if act i then let (t, fl) := laneCmp ty f.rm.toNat (B i) (C i); (t.toNat, fl) else (0, 0))
      (upFrom 0 (lanesOf ty))
  | 15 => each (lanesOf ty) w fun i => (if Nat.testBit o.d i then B i else C i, 0)
  | 16 =>
    let st := f.d.toNat
    let sw := Num.widthOf st
    let e := min (lanesOf ty) (lanesOf st)
    each e w fun i => Num.convert st ty mode (o.h i) f.sat (laneAt sw o.b i)
  | 17 => each 16 32 fun j => laneDot ty mode (o.h j) f.sat o.b o.c o.d j
  | 18 =>
    let l := (upFrom 0 (lanesOf ty)).map fun i => if act i then some (B i) else none
    redTree (fun i => laneRed f.d.toNat ty mode (o.h i) f.sat) (Nat.log2 (lanesOf ty)) l
  | _ => each (lanesOf ty) w fun i => (B (C i % lanesOf ty), 0)

/-- VMOV, VBC, VEXT, VINS (R499). -/
def VOp.move (o : VOp) (fx : Nat) (f : VMovF) : Nat :=
  let ty := f.ty.toNat
  let w := Num.widthOf ty
  let n := f.lane.toNat
  match fx with
  | 0 => o.b
  | 1 => (packLanes w (fun _ => (o.b % 2 ^ w, 0)) (upFrom 0 (lanesOf ty))).1
  | 2 => if ty ≤ 3 then truncTo 64 (signedOf w (laneAt w o.b n)) else laneAt w o.b n
  | _ => o.b - laneAt w o.b n * 2 ^ (w * n) + o.c % 2 ^ w * 2 ^ (w * n)

/-! ## Element accesses (R497, R498) -/

/-- Width in bits and number of the pieces accessed, and the address of piece i. Two E2M1 elements share a byte. -/
def vmWidth (f : VMemF) : Nat := if f.ty.toNat = 14 then 8 else Num.widthOf f.ty.toNat
def VOp.elem (o : VOp) (form : Nat) (f : VMemF) (i : Nat) : Nat :=
  let base := (o.b : Int) + f.disp.toInt
  let w := vmWidth f
  let d : Int := match form with
    | 0 | 1 => (i * (w / 8) : Nat)
    | 2 | 3 => (i : Int) * signedOf 64 o.c
    | _ => signedOf 32 (laneAt 32 o.c i) * (w / 8 : Nat)
  truncTo 64 (base + d)

/-- How a vector instruction ends its turn. -/
inductive VecOut where
  | done (v flags : Nat)
  | fault (f : FInfo)
  | wait (o : VOp) (ask : Option (Nat × Ask))
  deriving DecidableEq, Repr

/-- One element access, or the store of k elements side by side: the bytes loaded, in a load. -/
def vecElem (cid : Nat) (o : VOp) (store : Bool) (w va k : Nat) (data : Nat) : MM Nat := do
  let n := w / 8
  MM.stopIf (va % n ≠ 0) .misalign va
  if store then
    storeAt cid 4 va (leBytes (n * k) data) (swMode o.sw) true
    return 0
  else
    return leNat (← loadAt cid 4 va n (swMode o.sw) true)

/-- Elements from i on that one access stores: active ones, at rising places of one aligned 8-byte piece, which is the unit of single-copy
atomicity of a vector store (R199). -/
def VOp.piece (o : VOp) (form : Nat) (f : VMemF) (i : Nat) : Nat :=
  let w := vmWidth f
  let a := o.elem form f i
  1 + ((upFrom 1 7).takeWhile fun j =>
    decide (w * (i + j + 1) ≤ 512) && Nat.testBit o.m (i + j) && o.elem form f (i + j) == a + w / 8 * j
      && (a + w / 8 * j) / 8 == a / 8).length

/-- The elements that remain, in ascending order: what was performed stays (R498). `skip` of them have been stored with an earlier
one. -/
def vecMem (cid form : Nat) (f : VMemF) (o : VOp) (m : Module) (skip : Nat) : List Nat → Module × VecOut
  | [] => (m, .done o.got 0)
  | i :: is =>
    let w := vmWidth f
    let store := form == 1 || form == 3
    if skip ≠ 0 || !Nat.testBit o.m i then vecMem cid form f { o with pos := i + 1 } m (skip - 1) is
    else
      let k := if store then o.piece form f i else 1
      match vecElem cid o store w (o.elem form f i) k (o.d / 2 ^ (w * i) % 2 ^ (w * k)) m with
      | .ok (v, m') => vecMem cid form f { o with pos := i + 1, got := o.got + v * 2 ^ (w * i) } m' (k - 1) is
      | .error (.fault e) => (m, .fault e)
      | .error .stall => (m, .wait o none)
      | .error (.ask c a) => (m, .wait o (some (c, a)))

/-- A vector instruction run by the unit. -/
def VOp.run (o : VOp) (cid : Nat) (m : Module) : Module × VecOut :=
  if o.bad then (m, .fault { cause := .uncorr })
  else
    let vec (vop : Nat) (f : VecF) := let r := o.compute vop f; (m, VecOut.done r.1 r.2)
    let mem (form : Nat) (f : VMemF) :=
      vecMem cid form f o m 0 (upFrom o.pos (512 / vmWidth f - o.pos))
    match o.i with
    | .vadd f => vec 0 f
    | .vsub f => vec 1 f
    | .vmul f => vec 2 f
    | .vfma f => vec 3 f
    | .vmin f => vec 4 f
    | .vmax f => vec 5 f
    | .vabs f => vec 6 f
    | .vneg f => vec 7 f
    | .vand f => vec 8 f
    | .vor f => vec 9 f
    | .vxor f => vec 10 f
    | .vshl f => vec 11 f
    | .vshr f => vec 12 f
    | .vsar f => vec 13 f
    | .vcmp f => vec 14 f
    | .vsel f => vec 15 f
    | .vcvt f => vec 16 f
    | .vdot f => vec 17 f
    | .vred f => vec 18 f
    | .vperm f => vec 19 f
    | .vld f => mem 0 f
    | .vst f => mem 1 f
    | .vlds f => mem 2 f
    | .vsts f => mem 3 f
    | .vgath f => mem 4 f
    | .vmov f => (m, .done (o.move 0 f) 0)
    | .vbc f => (m, .done (o.move 1 f) 0)
    | .vext f => (m, .done (o.move 2 f) 0)
    | .vins f => (m, .done (o.move 3 f) 0)
    | _ => (m, .done 0 0)

/-- Where the result goes: a vector register (true) or a general register, and its code; none for stores. -/
def vecDst : Instr → Option (Bool × Opnd)
  | .vadd f | .vsub f | .vmul f | .vfma f | .vmin f | .vmax f | .vabs f | .vneg f | .vand f | .vor f | .vxor f | .vshl f
  | .vshr f | .vsar f | .vsel f | .vcvt f | .vdot f | .vred f | .vperm f => some (true, f.a)
  | .vcmp f => some (false, f.a)
  | .vld f | .vlds f | .vgath f => some (true, f.a)
  | .vmov f | .vbc f | .vins f => some (true, f.a)
  | .vext f => some (false, f.a)
  | _ => none

/-! ## The coprocessor ring (R87, R88) -/

/-- LM offset of ring entry s of context k. -/
def Core.cprAt (c : Core) (k s : Nat) : Nat := c.cprBase + k * 0x800 + 32 * (s % 64)
/-- ST of an entry. DEDUCED (log 40). -/
def Module.cprSt (m : Module) (cid k s : Nat) : Nat := bits (BitVec.ofNat 64 (m.lmNat cid ((m.core cid).cprAt k s) 8)) 51 50
/-- The device's write of ST. -/
def Module.cprMark (m : Module) (cid k s st : Nat) : Module :=
  let off := (m.core cid).cprAt k s
  m.putWord cid off (leBytes 8 (setBits (BitVec.ofNat 64 (m.lmNat cid off 8)) 51 50 st).toNat)

/-- The next sequence number of a context and its ring entry, outstanding; none while that entry is still in use. -/
def Module.cprPush (m : Module) (cid k : Nat) (head : BitVec 16) (job : Nat) (pc : Word) (ctl : Ctl) : Option (Nat × Module) :=
  let s := ((m.core cid).ctx k).seq.toNat
  if m.cprSt cid k s = 1 then none
  else
    let x := s + job * 2 ^ 16 + head.toNat * 2 ^ 32 + k * 2 ^ 48 + 2 ^ 50 + pc.toNat * 2 ^ 64 + ctl.aidv.toNat * 2 ^ 128
      + ctl.aids.toNat * 2 ^ 144
    let m := m.putWord cid ((m.core cid).cprAt k s) (leBytes 32 x)
    some (s, m.onCore cid fun c => c.onCtx k fun y => { y with seq := y.seq + 1#16 })

/-! ## Retirement (R487, R488) -/

/-- The window of an activation after a vector result. -/
def Win.vecPut (w : Win) (time : Nat) (d : Option (Bool × Opnd)) (v : Nat) : Win :=
  match d with
  | some (true, a) => w.setV time a.toNat (BitVec.ofNat 512 v)
  | some (false, a) => if a.toNat < 32 then w.setG time a.toNat (BitVec.ofNat 64 v) else w
  | none => w

/-- The head of a core's vector queue takes its turn: it retires, faults late, is cancelled, or waits (false). -/
def Module.vecTurn (m : Module) (cid : Nat) : Bool × Module :=
  match (m.core cid).vq with
  | [] => (false, m)
  | o :: rest =>
    let drop (m : Module) : Module := m.onCore cid fun c => { c with vq := rest }
    if (m.core cid).vcancel.contains o.key then (true, (drop m).cprMark cid o.ctx o.seq 2)
    else
      match o.run cid m with
      | (m, .done v fl) =>
        let m := m.onAct cid o.key fun a =>
          match a.win with
          | some w =>
            let w := w.vecPut m.time (vecDst o.i) v
            { a with win := some { w with ctl := { w.ctl with sw := swOr w.ctl.sw fl } } }
          | none => a
        (true, (drop m).cprMark cid o.ctx o.seq 0)
      | (m, .fault f) =>
        let m := m.sides f.side
        let m := m.onAct cid o.key fun a => { a with late := a.late ++ [⟨o.seq, f.cause, 0, o.pc, f.addr, none⟩] }
        let m := m.onCore cid fun c => { c with vcancel := o.key :: c.vcancel }
        (true, (drop m).cprMark cid o.ctx o.seq 2)
      | (m, .wait o' ask) =>
        let m := m.onCore cid fun c => { c with vq := o' :: rest }
        (false, match ask with
          | some (c, a) => m.putAsk c a
          | none => m)

/-- Turns until no instruction of the activation is queued; false when one must wait. -/
def Module.drainFrom (cid key : Nat) : Nat → Module → Bool × Module
  | 0, m => (true, m)
  | n + 1, m =>
    if (m.core cid).vq.any (·.key == key) then
      match m.vecTurn cid with
      | (true, m) => Module.drainFrom cid key n m
      | (false, m) => (false, m)
    else (true, m)
def Module.drain (m : Module) (cid key : Nat) : Bool × Module := Module.drainFrom cid key (m.core cid).vq.length m

end Sys2Proof.Machine
end

