-- ==== Sys2Proof/Machine/Operands.lean ====
section
/-!
DEFINITION. What an instruction does to its own core: the focused activation's window, the operand roles of R69 and R396,
reads with their K bits (R70, R82), port pops and sends (R71, R72), queue entries (R77), and destinations.
-/
namespace Sys2Proof.Machine

/-- An instruction under way: it acts on the state, or it faults or waits. -/
abbrev Run := StateT State (Except Stop)

def Run.fault {α : Type} (f : FInfo) : Run α := fun _ => .error (.fault f)
def Run.raise {α : Type} (c : Cause) (addr : Nat := 0) : Run α := Run.fault { cause := c, addr := BitVec.ofNat 64 addr }
def Run.stall {α : Type} : Run α := fun _ => .error .stall
def Run.stopIf (b : Bool) (c : Cause) (addr : Nat := 0) : Run Unit := if b then Run.raise c addr else pure ()
def Run.stallIf (b : Bool) : Run Unit := if b then Run.stall else pure ()
/-- An operation on the module. -/
def Run.lift {α : Type} (x : MM α) : Run α := fun s =>
  match x s.m with
  | .ok (a, m) => .ok (a, { s with m := m })
  | .error e => .error e
def Run.onM (f : Module → Module) : Run Unit := modify fun s => { s with m := f s.m }

/-! ## The focused activation -/

def State.core (s : State) : Core := s.m.core s.cid
/-- Workspace slot of the activation in the focused context. -/
def State.key (s : State) : Nat := (s.core.ctx s.ctx).act.getD 64
def State.act (s : State) : Act := s.core.act s.key
def State.win (s : State) : Win := s.act.win.getD {}
def State.sw (s : State) : Word := s.win.ctl.sw
def State.super (s : State) : Bool := swMode s.sw
def State.aid (s : State) : Nat := s.win.ctl.aid
def Module.setWin (m : Module) (cid key : Nat) (w : Win) : Module := m.onAct cid key fun a => { a with win := some w }
def State.setWin (s : State) (w : Win) : State := { s with m := s.m.setWin s.cid s.key w }
def Run.onWin (f : Win → Win) : Run Unit := modify fun s => s.setWin (f s.win)
def Run.onCtl (f : Ctl → Ctl) : Run Unit := Run.onWin fun w => { w with ctl := f w.ctl }
def Run.onCore (f : Core → Core) : Run Unit := modify fun s => { s with m := s.m.onCore s.cid f }

/-- Entries that wait for a consumer (R77). -/
def State.ldQ (s : State) : List (Nat × Word) := (s.open_.map (·.ld)).getD []
def State.sdQ (s : State) : List (Nat × Word) := (s.open_.map (·.sd)).getD []

/-! ## Roles (R69, R70, R396) -/

/-- The columns of R69 for sources. -/
inductive Use where
  | exec | data | addr
  deriving DecidableEq, Repr

/-- The columns of R69 for destinations; `reg` is g0–g31 or `z` alone. -/
inductive Put where
  | exec | load | reg
  deriving DecidableEq, Repr

/-- A source operand: code, K bit, role. -/
structure Src where
  code : Opnd
  k : Bool
  use : Use
  deriving DecidableEq, Repr

/-- A code with no meaning in a role, or a K bit on a port that takes none (R69, R70, R72). -/
def State.srcBad (s : State) (o : Src) : Bool :=
  let n := o.code.toNat
  if n < 32 || n = 41 then false
  else
    match o.use with
    | .addr => true
    | .data => n ≠ 33
    | .exec =>
      if n = 32 then o.k
      else if n = 34 || n = 35 then false
      else if 36 ≤ n ∧ n ≤ 39 then
        o.k || !((s.core.ports.binds.any fun b => b.aid == s.aid && b.n == n - 36)
          || (match Tab.find s.core.ports.recv (n - 36) with
              | some r => r.aid == s.aid && !(r.closed && r.buf.isEmpty && !r.broken)
              | none => false))
      else true

/-- A destination with no meaning in a role, or a ninth entry (R69, R72, R77). -/
def State.dstBad (s : State) (u : Put) (a : Opnd) : Bool :=
  let n := a.toNat
  if n < 32 || n = 41 then false
  else
    match u with
    | .reg => true
    | .load => !(n = 32 && s.ldQ.length < 8)
    | .exec =>
      if n = 33 then 8 ≤ s.sdQ.length
      else if n = 34 || n = 35 then false
      else if n = 40 then !(s.core.ports.send.any fun p => p.aid == s.aid && !p.closing)
      else true

/-- More pops of a queue than it holds entries (R77). -/
def State.popsBad (s : State) (l : List Src) : Bool :=
  s.ldQ.length < (l.filter (·.code == 32#6)).length || s.sdQ.length < (l.filter (·.code == 33#6)).length

/-! ## Ports -/

/-- Sends a word on a tile-ring link (R71): right on `nbr`, left on `nbl`. The receiving link buffers four words.
DEDUCED (log 36). -/
def sendLink (right : Bool) (v : Word) : Run Unit := do
  let s ← get
  let c := if right then rightOf s.cid else leftOf s.cid
  let p := (s.m.core c).ports
  if right then
    Run.stallIf (4 ≤ p.nbl.length + p.flyL.length)
    Run.onM fun m => m.onCore c fun x => { x with ports := { x.ports with flyL := x.ports.flyL ++ [v] } }
  else
    Run.stallIf (4 ≤ p.nbr.length + p.flyR.length)
    Run.onM fun m => m.onCore c fun x => { x with ports := { x.ports with flyR := x.ports.flyR ++ [v] } }

/-- Pops `nbl` (true) or `nbr`; with K the word is sent on in the same cycle (R71). DEDUCED (log 36). -/
def popLink (left k : Bool) : Run Word := do
  let p := (← get).core.ports
  match if left then p.nbl else p.nbr with
  | [] => Run.stall
  | v :: vs => do
    Run.onCore fun c => { c with ports := if left then { c.ports with nbl := vs } else { c.ports with nbr := vs } }
    if k then sendLink left v
    return v

/-- Pops a stream register (R72, R278, R312–R314). -/
def popStream (n : Nat) : Run Word := do
  let s ← get
  match s.core.ports.binds.find? fun b => b.aid == s.aid && b.n == n with
  | some b => do
    let v ← Run.lift (s.m.popBound s.cid b)
    Run.onM fun m => m.stepBind s.cid b
    return v
  | none =>
    match Tab.find s.core.ports.recv n with
    | some r =>
      match r.buf with
      | v :: vs => do
        Run.onM fun m =>
          let m := m.onCore s.cid fun c =>
            let t := if r.closed && vs.isEmpty then Tab.del c.ports.recv n
              else Tab.put c.ports.recv n { r with buf := vs, last := m.time }
            { c with ports := { c.ports with recv := t } }
          match r.src with
          | some (sc, si) => { m with credits := m.credits ++ [(sc, si, 1)] }
          | none => m
        return v
      | [] => if r.broken then Run.raise .streambrk else Run.stall
    | none => Run.raise .badopnd

/-- A word written to `so` (R312, R314): it joins the flit that the NI packs. -/
def sendStream (v : Word) : Run Unit := do
  let s ← get
  match findIdx (fun p : SPort => p.aid == s.aid && !p.closing) s.core.ports.send with
  | none => Run.raise .badopnd
  | some (i, p) => do
    if p.route = 3 then
      Run.fault { cause := .streambrk, side := [.sport s.cid s.aid] }
    else do
      Run.stallIf (p.credit = 0)
      let p' := { p with words := p.words ++ [v], credit := p.credit - 1, last := s.m.time,
                         route := if p.route = 0 then 1 else p.route
                         sid := if p.route = 0 then s.m.nextPkt else p.sid, idle := if p.route = 0 then s.m.time else p.idle }
      Run.onCore fun c => { c with ports := { c.ports with send := setAt c.ports.send i p' } }
      if p.route = 0 then
        Run.onM fun m =>
          m.postSeq s.cid
            { kind := .streamOpen, ssite := siteOf s.cid, sl := logOf s.cid, dsite := siteOf p.dcid, dl := logOf p.dcid
              pkey := s.core.spec.pk, svcn := m.vcn s.cid, dvcn := m.vcn p.dcid, gen := (m.site (siteOf s.cid)).epoch
              dmod := m.modnum.toNat, smod := m.modnum.toNat, aid := p.aid, entry := p.n, here := siteOf s.cid }

/-! ## Reading and writing operands -/

/-- Src (R395): the value of one operand. K bits of registers are applied by `readAll` (R82). DEDUCED (log 19). -/
def readSrc (o : Src) : Run Word := do
  let s ← get
  let n := o.code.toNat
  if n < 32 then do
    Run.onWin fun w => (w.touchBank s.m.time (n / 8)).found [n]
    return s.win.gr n
  else if n = 32 then
    match s.open_ with
    | some g =>
      match g.ld with
      | (_, v) :: rest => do
        set { s with open_ := some { g with ld := rest } }
        return v
      | [] => Run.raise .badopnd
    | none => Run.raise .badopnd
  else if n = 33 then
    match s.open_ with
    | some g =>
      match g.sd with
      | (_, v) :: rest => do
        set { s with open_ := some { g with sd := rest } }
        return v
      | [] => Run.raise .badopnd
    | none => Run.raise .badopnd
  else if n = 34 then popLink true o.k
  else if n = 35 then popLink false o.k
  else if 36 ≤ n ∧ n ≤ 39 then popStream (n - 36)
  else return 0

/-- The values of sources in order. -/
def readList : List Src → Run (List Word)
  | [] => pure []
  | o :: l => do
    let v ← readSrc o
    let vs ← readList l
    return v :: vs

/-- The last-use hints of sources, applied once every read is done (R82). DEDUCED (log 19). -/
def killAll (w : Win) : List Src → Win
  | [] => w
  | o :: l => killAll (if o.k && o.code.toNat < 32 then w.killG o.code.toNat else w) l

/-- The operands of an instruction, in the order of R81 and R395: roles, dead registers, uncorrectable words, then the
reads in the order given and the K bits. -/
def operands (l : List Src) (dst : Option (Put × Opnd)) : Run (List Word) := do
  let s ← get
  Run.stopIf (l.any s.srcBad || s.popsBad l || (match dst with
    | some (u, a) => s.dstBad u a
    | none => false)) .badopnd
  let regs := (l.filter fun o => o.code.toNat < 32).map fun o => o.code.toNat
  Run.stopIf (regs.any fun k => !s.win.live k) .deadreg
  if regs.any fun k => s.win.bad.contains k then
    Run.fault { cause := .uncorr, side := [.reg s.cid s.key regs] }
  let vs ← readList l
  Run.onWin fun w => killAll w l
  return vs

/-- The value that a source would give, where it can be read: for a check on it that R81 puts before the faults of other operands. -/
def peek (o : Src) : Run (Option Word) := fun s =>
  match operands [o] none s with
  | .ok (l, _) => .ok (l.head?, s)
  | .error _ => .ok (none, s)

/-- The same for a register, whatever else the instruction reads. -/
def peekReg (o : Src) : Run (Option Word) := if o.code.toNat < 32 then peek o else pure none

/-- Operand i of a list read by `operands`. -/
def arg (l : List Word) (i : Nat) : Word := l.getD i 0

/-- Dst (R395): a value written to a destination. -/
def writeDst (a : Opnd) (v : Word) : Run Unit := do
  let s ← get
  let n := a.toNat
  if n < 32 then Run.onWin fun w => w.setG s.m.time n v
  else if n = 32 then
    match s.open_ with
    | some g => set { s with open_ := some { g with ld := g.ld ++ [(g.n, v)] } }
    | none => pure ()
  else if n = 33 then
    match s.open_ with
    | some g => set { s with open_ := some { g with sd := g.sd ++ [(g.n, v)] } }
    | none => pure ()
  else if n = 34 then sendLink false v
  else if n = 35 then sendLink true v
  else if n = 40 then sendStream v
  else pure ()

/-! ## The shapes that many instructions share -/

/-- Execute-half roles, or the register-only roles of the `.a` forms (R74, R397). -/
def useOf (half : Bool) : Use := if half then .addr else .exec
def putOf (half : Bool) : Put := if half then .reg else .exec

/-- A ← f(b, c). -/
def alu3 (i : Alu3) (f : Word → Word → Word) : Run Unit := do
  let l ← operands [⟨i.b, i.kb, useOf i.half⟩, ⟨i.c, i.kc, useOf i.half⟩] (some (putOf i.half, i.a))
  writeDst i.a (f (arg l 0) (arg l 1))
/-- A ← f(b, IMM16), sign-extended (R110). -/
def aluI16 (i : AluI16) (f : Word → Word → Word) : Run Unit := do
  let l ← operands [⟨i.b, i.kb, useOf i.half⟩] (some (putOf i.half, i.a))
  writeDst i.a (f (arg l 0) (i.imm.signExtend 64))
/-- A ← f(b, IMM48), sign-extended (R110). -/
def aluI48 (i : AluI48) (f : Word → Word → Word) : Run Unit := do
  let l ← operands [⟨i.b, i.kb, useOf i.half⟩] (some (putOf i.half, i.a))
  writeDst i.a (f (arg l 0) (i.imm.signExtend 64))
/-- A ← f(b, n) for an immediate count. -/
def shiftI (i : ShiftI) (f : Word → Nat → Word) : Run Unit := do
  let l ← operands [⟨i.b, i.kb, useOf i.half⟩] (some (putOf i.half, i.a))
  writeDst i.a (f (arg l 0) i.n.toNat)
/-- One source and one destination of the execute half. -/
def unary (i : Un) (f : Word → Word) : Run Unit := do
  let l ← operands [⟨i.b, i.kb, .exec⟩] (some (.exec, i.a))
  writeDst i.a (f (arg l 0))

end Sys2Proof.Machine
end

