-- ==== Sys2Proof/Machine/Flags.lean ====
section
/-!
DEFINITION. Conditions (R403), and the status word as instructions change it (R94, R148, R150): sticky flags, the rounding mode in effect, and the
counter that each instruction rounding under RSH takes.
-/
namespace Sys2Proof.Machine

/-- Flags ORed into `c.sw` at commit. -/
def orFlags (f : Nat) : Run Unit := Run.onCtl fun c => { c with sw := swOr c.sw f }

/-- The effective mode of a rounding field, and the RSH value of index 0; RSH takes RSHC and advances it (R94, R148). -/
def takeMode (rm : Nat) : Run (Nat × Nat) := do
  let s ← get
  let mode := effMode rm s.sw
  if mode = 4 then do
    Run.onCtl fun c => { c with sw := swTick c.sw }
    return (mode, Num.rshHash s.core.spec.seed.toNat 0 (swRshc s.sw).toNat)
  else return (mode, 0)

/-- RSHC as a command takes it at commit: advanced where it rounds under RSH. -/
def takeCounter (rsh : Bool) : Run (BitVec 32) := do
  let s ← get
  if rsh then Run.onCtl fun c => { c with sw := swTick c.sw }
  return swRshc s.sw

/-- The conditions of BC, SET and SKIP (R403). -/
def holds (c : Cond) (x y : Word) : Bool :=
  match c with
  | .eq => x == y
  | .ne => x ≠ y
  | .lt => decide (x.toInt < y.toInt)
  | .ge => decide (y.toInt ≤ x.toInt)
  | .ltu => decide (x.toNat < y.toNat)
  | .geu => decide (y.toNat ≤ x.toNat)

end Sys2Proof.Machine
end

