-- ==== Sys2Proof/Machine/Exec.lean ====
section
/-!
DEFINITION. How one instruction runs (R68, R76–R81, R88, R360–R362): its cycle, the commit group it belongs to, its commit,
its precise fault with the rollback of R80, a pending late fault, and what follows a commit. Every meaning of an encoded
instruction is a body run by `runInstr`.
-/
namespace Sys2Proof.Machine

abbrev Out := Host.Outcome State Fault Refusal

/-! ## Instruction addresses (R102, R103, R112) -/

def lineBase (pc : Word) : Word := BitVec.ofNat 64 (pc.toNat / 64 * 64)
def slotOfPc (pc : Word) : Nat := bits pc 5 1
/-- SeqNext (R395) under a line of hc heads. -/
def seqNext (hc : Nat) (pc : Word) : Word := if slotOfPc pc < hc then pc + 2#64 else lineBase pc + 66#64
/-- HC of the line image that the focused context executes from; an instruction run without one stands in a full line. -/
def State.hc (s : State) (pc : Word) : Nat :=
  match (s.core.ctx s.ctx).line with
  | some l => if l.base = (lineBase pc).toNat then lineHc l.bytes else 31
  | none => 31
/-- BranchTarget (R112), with LDISP a signed count of lines. -/
def branchTarget (pc : Word) (ldisp : Int) (slot : Nat) : Word :=
  lineBase pc + trunc64 (64 * ldisp) + BitVec.ofNat 64 (2 * slot)

/-! ## What follows a commit -/

/-- What an instruction does beyond its body once it commits. -/
inductive After where
  /-- Nothing but a due STEP; the sequence number and job of an engine push (R360). -/
  | step (seq job : Nat)
  /-- The activation has left its context, or its entry is already made. -/
  | gone
  /-- BRK (R362). -/
  | brkpt
  /-- TRAP and SVC (R482). -/
  | call (f : FInfo)
  deriving DecidableEq, Repr

/-- A STEP or BRKPT of an activation freezes the engines of its tile where FREEZE is set (R361). -/
def Module.freeze (m : Module) (cid key : Nat) : Module :=
  if (m.site (siteOf cid)).freeze then
    m.onTile (tileOf cid) fun t => { t with frozen := true, stepped := (cid, key) :: t.stepped }
  else m

/-- STEP and BRKPT: a supervisor trap after the commit. -/
def Module.afterTrap (m : Module) (cid key : Nat) (f : FInfo) (pc : Word) : Module :=
  let w := (m.act cid key).win.getD {}
  (m.trapAct cid key (m.recOf cid w f pc 1)).freeze cid key

/-! ## Late faults (R88) -/

/-- The pending late fault of the oldest sequence number: the one furthest behind `seq`. -/
def oldestLate (seq : Nat) : List LatePend → Option LatePend
  | [] => none
  | x :: l =>
    match oldestLate seq l with
    | some y => if (seq + 65536 - x.seq) % 65536 < (seq + 65536 - y.seq) % 65536 then some y else some x
    | none => some x

/-- The vector instructions of an activation that have not retired are cancelled: their entries show ST = 2 (R488). -/
def Module.cancelVec (m : Module) (cid key : Nat) : Module :=
  let (mine, rest) := (m.core cid).vq.partition (·.key == key)
  mine.foldl (fun m o => m.cprMark cid o.ctx o.seq 2) (m.onCore cid fun c => { c with vq := rest })

/-- Delivery of LATE at a commit point: the fault is taken, and what was cancelled until then no longer is (R248, R488): the vector
instructions that a late fault has cancelled are gone first. DEDUCED (log 23). -/
def Module.deliverLate (m : Module) (cid k key : Nat) : Option Module :=
  match oldestLate ((m.core cid).ctx k).seq.toNat (m.act cid key).late with
  | none => none
  | some x =>
    let m := m.onAct cid key fun a => { a with late := a.late.erase x }
    let m := if (m.core cid).vcancel.contains key then m.cancelVec cid key else m
    let m := match x.q with
      | none => m.onCore cid fun c => { c with vcancel := c.vcancel.filter (· ≠ key) }
      | q => m.uncancel cid q
    some (m.takeFault cid key { cause := .late, sub := x.sub.code, addr := x.addr, seq := x.seq, job := x.job, pcAt := some x.pc }
      x.pc)

/-! ## The frame -/

/-- The dispatch cycle of a core, for context k: at most one instruction a cycle (R68), and none in a cycle after a word has landed
in it (R73). DESIGN CHOICE (log 3). -/
def Module.issue (m : Module) (cid k : Nat) : Module :=
  let m := if (m.core cid).last = some m.time then { m with time := m.time + 1 } else m
  m.onCore cid fun c => { c with last := some m.time, turn := k }

/-- A word has landed at a port of a core in this cycle (R73). -/
def Module.landed (m : Module) (cid : Nat) : Module := m.onCore cid fun c => { c with last := some m.time }

/-- A commit-point module brought to the present cycle. DEDUCED (log 21). -/
def Module.caughtUp (base now : Module) (cid : Nat) : Module :=
  { base with time := now.time }.onCore cid fun c => { c with last := (now.core cid).last, turn := (now.core cid).turn }

/-- The state at the commit point, every uncommitted instruction discarded (R80). DEDUCED (log 17). -/
def State.rollback (s : State) (base : Module) : State := { s with m := base, open_ := none }

/-- The PC of the focused activation moved on. -/
def State.setPc (s : State) (pc : Word) : State := s.setWin { s.win with ctl := { s.win.ctl with pc := pc } }

/-- STEP after a commit (R360): at once, or, while vector instructions of the activation have still to retire into its window (R487),
before its next instruction. -/
def Module.stepAfter (m : Module) (cid key : Nat) (f : FInfo) (pc : Word) : Module :=
  if (m.core cid).vq.any (·.key == key) then m.onAct cid key fun a => { a with stepAt := some pc } else m.afterTrap cid key f pc

/-- The commit of an instruction that ran to its end, with what follows it. `ss` is SS at its dispatch. -/
def State.commit (s : State) (key : Nat) (pc : Word) (ss : Bool) (a : After) : State :=
  let s := { s with m := s.m.onCore s.cid fun c => { c with spec := { c.spec with inst := c.spec.inst + 1#64 } } }
  match s.open_ with
  | none => s
  | some g =>
    if g.ld.isEmpty && g.sd.isEmpty then
      let s := { s with open_ := none }
      match a, g.brk with
      | .gone, _ => s
      | .brkpt, _ => { s with m := s.m.afterTrap s.cid key { cause := .brkpt } pc }
      | _, some b => { s with m := s.m.afterTrap s.cid key { cause := .brkpt } b }
      | .call f, _ =>
        let w := s.win
        { s with m := if s.m.upcallOk s.cid key w f then s.m.upcallAct s.cid key w f pc
                      else s.m.trapAct s.cid key (s.m.recOf s.cid w f pc 1) }
      | .step seq job, _ =>
        if ss then { s with m := s.m.stepAfter s.cid key { cause := .stepped, seq := seq, job := job } pc } else s
    else { s with open_ := some { g with n := g.n + 1, brk := if a = .brkpt then some pc else g.brk } }

/-- A fault at the commit point `base`, taken once the activation's vector instructions have retired into its window (R487). -/
def Module.faultAt (base : Module) (cid key : Nat) (f : FInfo) (pc : Word) : Module :=
  let (ready, m) := base.drain cid key
  if ready then m.takeFault cid key f pc else m

/-- An instruction whose operands and checks are in `body`, run with the PC already moved to the next one. `vec` holds for
vector instructions; every other instruction, and a vector instruction before which a late fault is pending, first waits for the
activation's vector instructions to retire. A pending late fault is delivered at the commit point before the instruction, but (`last`)
after a FENCE (R214) and after the requested entry of TRAP and SVC (R483). DEDUCED (log 20). -/
def runWith (vec : Bool) (body : Word → Run After) (s : State) (key : Nat) (last : Bool := false) : Out :=
  let s := { s with m := s.m.issue s.cid s.ctx }
  let vec := vec && s.act.late.isEmpty
  let (ready, m1) := if vec then (true, s.m) else s.m.drain s.cid key
  let base := match s.open_ with
    | some g => g.base.caughtUp s.m s.cid
    | none => m1
  let s := { s with m := m1 }
  let pc := s.win.ctl.pc
  let pc0 := ((base.act s.cid key).win.getD {}).ctl.pc
  let g := match s.open_ with
    | some g => { g with base := base }
    | none => ⟨base, [], [], 0, 0, none⟩
  let late := if ready && !last then base.deliverLate s.cid s.ctx key else none
  let wait (m : Module) : Out := .next (s.rollback (late.getD m))
  if !ready then wait base
  else if g.n = 64 then
    if g.ld.any (·.1 == 0) || g.sd.any (·.1 == 0) then
      .next (s.rollback (base.faultAt s.cid key { cause := .badopnd } pc0))
    else wait base
  else
    match body pc ({ s with open_ := some g }.setPc (seqNext (s.hc pc) pc)) with
    | .error (.fault f) => .next (s.rollback (base.faultAt s.cid key f pc))
    | .error .stall => wait base
    | .error (.ask c a) => wait (base.putAsk c a)
    | .ok (a, t) =>
      match late with
      | some m => .next (s.rollback m)
      | none => .next (t.commit key pc (swSs s.sw) a)

/-- An instruction of the focused context. DESIGN CHOICE (log 127). -/
def runInstr (vec : Bool) (body : Word → Run After) (s : State) (last : Bool := false) : Out :=
  match (s.core.ctx s.ctx).act with
  | none => .fault .noActivation
  | some key => if s.act.win.isNone then .fault .noActivation else runWith vec body s key last

/-- An instruction with nothing after its commit but a due STEP. -/
def run (body : Run Unit) (s : State) : Out := runInstr false (fun _ => do body; return .step 0 0) s
/-- The same, for a body that needs its own address. -/
def runPc (body : Word → Run Unit) (s : State) : Out := runInstr false (fun pc => do body pc; return .step 0 0) s

/-! ## Checks that many instructions share -/

/-- Marks a write of the group (R77). -/
def noteWrite : Run Unit := modify fun s =>
  match s.open_ with
  | some g => { s with open_ := some { g with wrote := g.n + 1 } }
  | none => s

/-- BADOPND while a queued load or push is unconsumed (R77). -/
def noQueue : Run Unit := do
  let s ← get
  Run.stopIf (!s.ldQ.isEmpty || !s.sdQ.isEmpty) .badopnd
/-- HBLOCK in a handler (R47). DEDUCED (log 20). -/
def noHandler : Run Unit := do Run.stopIf (← get).win.ctl.hnd .hblock
/-- ILLOP while UPC = 1 (R350). -/
def noUpcall : Run Unit := do Run.stopIf (swUpc (← get).sw) .illop

/-- Suspension (R44): the control words name the wait, and the window is written back. `dst` receives the result of the
completed instruction at the next binding; a due STEP waits with it (R360). -/
def suspend (pc : Word) (waitk : Nat) (waita waitv : Word) (dst : Opnd) (w : WaitOn) : Run After := do
  let s ← get
  Run.onCtl fun c => { c with waitk := BitVec.ofNat 4 waitk, waita := waita, waitv := waitv }
  Run.onM fun m =>
    let m := m.onAct s.cid s.key fun a => { a with wait := w, dst := dst, grace := none, stepAt := if swSs s.sw then some pc else a.stepAt }
    m.parkOrTrap s.cid s.key .suspended
  return .gone

end Sys2Proof.Machine
end

