-- ==== Sys2Proof/Machine/Deque.lean ====
section
/-!
DEFINITION. How an event of the machine moves, and the deque of task records in a core's scheduling area (R39, R40, R50–R54).
-/
namespace Sys2Proof.Machine

/-! ## Events -/

/-- The module at the last commit point: an open group is rolled back (R80), time stays. DESIGN CHOICE (log 6). -/
def State.settled (s : State) : Module :=
  match s.open_ with
  | some g => { g.base with time := s.m.time }
  | none => s.m

/-- An event of the machine: it happens where it is due; where it is not, nothing changes. DESIGN CHOICE (log 6). -/
def event (f : Module → Option Module) (s : State) : Out :=
  match f s.settled with
  | some m => .next { s with m := m, open_ := none }
  | none => .next s

/-! ## Task records (R50) -/

/-- A task record. -/
structure TaskRec where
  pc : Word
  joina : Word := 0
  dom : Nat := 0
  rm : Nat := 0
  rshc : BitVec 32 := 0
  parent : Word := 0
  g : List Word := []
  deriving DecidableEq, Repr

def TaskRec.encode (r : TaskRec) : List Byte :=
  leBytes 8 r.pc.toNat ++ leBytes 8 r.joina.toNat
    ++ leBytes 8 (r.dom % 8 + r.rm % 8 * 2 ^ 3 + r.rshc.toNat * 2 ^ 6) ++ leBytes 8 r.parent.toNat
    ++ (upFrom 0 8).flatMap fun k => leBytes 8 (r.g.getD k 0).toNat

def TaskRec.decode (b : List Byte) : TaskRec :=
  let w (i : Nat) : Word := BitVec.ofNat 64 (leNat ((b.drop (8 * i)).take 8))
  { pc := w 0, joina := w 1, dom := bits (w 2) 2 0, rm := bits (w 2) 5 3, rshc := (w 2).extractLsb' 6 32, parent := w 3
    g := (upFrom 0 8).map fun k => w (4 + k) }

/-! ## The deque (R39, R40, R54) -/

def dqOff (i : Nat) : Nat := 0x7E000 + 96 * (i % 64)
/-- The ring's bank can be written. DEDUCED (log 35); DEDUCED (log 128). -/
def Module.dqOk (m : Module) (cid : Nat) : Bool := m.lmUsable cid 0x7E000 0x1800
/-- The deque has served no request in this cycle (R54). -/
def Module.dqFree (m : Module) (cid : Nat) : Bool := (m.core cid).dqAt ≠ some m.time
/-- The deque serves a request in this cycle. -/
def Module.dqServed (m : Module) (cid : Nat) : Module := m.onCore cid fun c => { c with dqAt := some m.time }
/-- A record at the LIFO end. -/
def Module.dqPush (m : Module) (cid : Nat) (r : TaskRec) : Module :=
  let d := (m.core cid).desc
  let m := m.lmPut cid (dqOff d.lifo) r.encode
  m.onCore cid fun c => { c with desc := { d with lifo := (d.lifo + 1) % 64, n := d.n + 1 }, dqAt := some m.time }
/-- A record put back at the FIFO end (R66). -/
def Module.dqUnshift (m : Module) (cid : Nat) (r : TaskRec) : Module :=
  let d := (m.core cid).desc
  let i := (d.fifo + 63) % 64
  let m := m.lmPut cid (dqOff i) r.encode
  m.onCore cid fun c => { c with desc := { d with fifo := i, n := d.n + 1 }, dqAt := some m.time }
/-- What a read of the record at ring index i does: its bank becomes FULL (R85, R86), and its errors are found (R90). -/
def Module.dqRead (m : Module) (cid i : Nat) : Module := (m.touched cid (dqOff i) 96).inspect (m.lmAt cid (dqOff i)) 96
/-- Such a read, of a record that gives nothing, while it finds an error. -/
def Module.dqFinds (m : Module) (cid i : Nat) : Option Module :=
  if (m.core cid).desc.n ≠ 0 && m.dqOk cid && m.upsets.any fun u => u.2 && meet u.1 4 (m.lmAt cid (dqOff i)) 96 then some (m.dqRead cid i)
  else none
/-- The record at ring index i; none where a word of it is uncorrectable. -/
def Module.dqRec (m : Module) (cid i : Nat) : Option TaskRec :=
  if m.bad (m.lmAt cid (dqOff i)) 96 || !m.dqOk cid then none
  else some (TaskRec.decode (m.lmRead cid (dqOff i) 96))
/-- The record at the LIFO end, and the deque without it. DEDUCED (log 35). -/
def Module.dqPop (m : Module) (cid : Nat) : Option (TaskRec × Module) :=
  let d := (m.core cid).desc
  let i := (d.lifo + 63) % 64
  if d.n = 0 then none
  else (m.dqRec cid i).map fun r => (r, (m.dqRead cid i).onCore cid fun c => { c with desc := { d with lifo := i, n := d.n - 1 }, dqAt := some m.time })
/-- The record at the FIFO end, and the deque without it. -/
def Module.dqTake (m : Module) (cid : Nat) : Option (TaskRec × Module) :=
  let d := (m.core cid).desc
  if d.n = 0 then none
  else (m.dqRec cid d.fifo).map fun r =>
    (r, (m.dqRead cid d.fifo).onCore cid fun c => { c with desc := { d with fifo := (d.fifo + 1) % 64, n := d.n - 1 }, dqAt := some m.time })

/-- The birth of a record’s activation (R42): a record without a parent is a wake-up. -/
def TaskRec.birth (r : TaskRec) (cls : Nat) (budget : BitVec 32) : Birth :=
  { pc := r.pc, sw := BitVec.ofNat 64 (r.rm * 2 ^ 4 + r.rshc.toNat * 2 ^ 16), path := if r.parent = 0#64 then 4 else 1, cls := cls, dom := r.dom, joina := r.joina
    budget := budget, g := (upFrom 0 8).map (fun k => r.g.getD k 0) ++ [r.joina, r.parent] }

end Sys2Proof.Machine
end

