-- ==== Sys2Proof/Machine/Net.lean ====
section
/-!
DEFINITION. The network interfaces and routers (R25, R292–R301, R304, R307, R310, R315): injection, hops, answers and resends.
-/
namespace Sys2Proof.Machine

def Packet.src (p : Packet) : Nat := 128 * p.ssite + p.sl
def Packet.dst (p : Packet) : Nat := 128 * p.dsite + p.dl
def Module.pkt (m : Module) (k : Nat) : Option Packet := Tab.find m.pkts k
def Module.dropPkt (m : Module) (k : Nat) : Module := { m with pkts := Tab.del m.pkts k }
def Module.putPkt (m : Module) (k : Nat) (p : Packet) : Module := { m with pkts := Tab.put m.pkts k p }
/-- The packet k at one of its phases, of a kind. -/
def Module.pktAt (m : Module) (k phase : Nat) (kind : PKind) : Option Packet :=
  (m.pkt k).filter fun p => p.phase == phase && p.kind == kind
/-- The packet comes from a core of this module. -/
def Module.ownPkt (m : Module) (p : Packet) : Bool := p.smod == m.modnum.toNat

/-- Fabric time (R315). -/
def Module.fabNow (m : Module) : Nat :=
  match m.fab with
  | some t => (m.time - t) % 2 ^ 48
  | none => 0

/-- The virtual channel of a packet (R294). -/
def Packet.vc (p : Packet) : Nat :=
  if p.mc && !p.resend then 2
  else
    match p.kind with
    | .reply | .retry | .nack => 1
    | .streamOpen | .streamClose => 3
    | .collective => 4
    | .trapReport => 5
    | _ => 0

/-! ## Choosing a network (R296, R297) -/

/-- Network and waypoint of a packet that site s injects; a multicast travels on net A (R310), and a packet with ORD where others take
ADAPT (R297). DESIGN CHOICE (log 83). -/
def Module.routeOf (m : Module) (s : Nat) (p : Packet) : Bool × Option Nat :=
  if (p.mc && !p.resend) || (p.ord && bits (m.nstOf s p.dsite) 1 0 == 2) then (false, none) else m.wayOf s p.dsite

/-! ## Answers (R60, R299, R301) -/

def Module.dropSlot (m : Module) (cid k : Nat) : Module :=
  m.onCore cid fun c => { c with ni := { c.ni with slots := Tab.del c.ni.slots k } }
/-- A packet's slot is still held for it: its timer has not ended the request (R299). -/
def Module.slotHeld (m : Module) (p : Packet) : Bool :=
  (Tab.find (m.core p.src).ni.slots p.slot).any fun r => r.req.kind == p.kind && r.req.seq == p.seq && r.req.aid == p.aid

/-- The end of a migration in a fault: the activation is FAULTED at its source, at the MIGR (R60). Whether a register that the MIGR's own
last-use hint has killed is live again is open: it stays dead, so that a MIGR executed again raises DEADREG.
DEDUCED (log 34); DEDUCED (log 96); DESIGN CHOICE (log 150). -/
def Module.migFault (m : Module) (p : Packet) (c : Cause) : Module :=
  let m := m.dropSlot p.src p.slot
  let ctl := { m.ctlOf p.src p.actKey with pc := p.va, waitk := 0#4 }
  let m := (m.setCtl p.src p.actKey ctl).onAct p.src p.actKey fun a => { a with mig := none }
  let r := m.recOf p.src { ctl := ctl } { cause := c, addr := (m.act p.src p.actKey).migTo } p.va 1
  m.trapAct p.src p.actKey { r with sseq := p.seq.toNat, svcn := p.svcn }

/-- A containment record about a packet, in the supervisor queue of a core (R319). -/
def Module.containPkt (m : Module) (cid : Nat) (p : Packet) (c : Cause) (addr : Word := 0) : Module :=
  m.contain cid { cause := c.code, addr := addr, sseq := p.seq.toNat, svcn := p.svcn }

/-- A reply to a peer's packet, from site `here`. -/
def Module.replyPeer (m : Module) (here : Nat) (p : Packet) (kind : PKind) (a : Ans) : Module :=
  m.post
    { kind := kind, dsite := (m.tvxSite p.smod).getD here, dl := p.sl, ssite := here, sl := p.dl, seq := p.seq
      svcn := p.dvcn, dvcn := p.svcn, dmod := p.smod, smod := m.modnum.toNat, pkey := p.pkey, slot := p.slot, size := p.size
      ans := a, here := here }

/-- Copies of a multicast are over. -/
def Module.lessCopies (m : Module) (p : Packet) (ds : List Nat) : Module :=
  m.onCore p.src fun c =>
    let l := c.ni.mrecs.map fun r =>
      if r.id == p.seq.toNat && r.aid == p.aid then { r with left := r.left.filter fun d => !ds.contains d } else r
    { c with ni := { c.ni with mrecs := l.filter fun r => !r.left.isEmpty } }

/-- A packet that is over: its slot or its place in a multicast record is free. -/
def Module.doneWith (m : Module) (p : Packet) : Module :=
  if p.mc then m.lessCopies p [p.dst]
  else if p.kind == .wakeup || p.kind == .streamOpen || !m.slotHeld p then m
  else m.dropSlot p.src p.slot

/-- The packet has been accepted, or diverted; where the answer is discarded on its way, its slot waits for its timer (R299). -/
def Module.ackPkt (m : Module) (k : Nat) (p : Packet) : Module :=
  let m := m.dropPkt k
  if p.opc = 2 then m
  else if !m.ownPkt p then m.replyPeer p.dsite p .reply (.ok 0)
  else if m.pathOk p.dsite p.ssite then m.doneWith p
  else m

/-- RETRY or NACK: it starts back to the sender, and may be discarded on its way (R299). -/
def Module.refusePkt (m : Module) (k : Nat) (p : Packet) : Module :=
  if m.ownPkt p && !m.pathOk p.dsite p.ssite then m.dropPkt k
  else if m.ownPkt p then m.putPkt k { p with phase := 4 } else (m.dropPkt k).replyPeer p.dsite p .retry .none_

/-- A steal that no victim answers fails, and its slot is free (R55, R299). -/
def Module.failSteal (m : Module) (p : Packet) : Module :=
  (m.dropSlot p.src p.slot).onCore p.src fun c =>
    { c with thief := { c.thief with busy := c.thief.busy.map fun b => { b with served := true, loot := none, pkt := none } } }

/-- The least set in the layout of R309 that holds the sites of some cores. -/
def setOf (ds : List Nat) : Word :=
  let xs := ds.map fun d => siteX (siteOf d)
  let ys := ds.map fun d => siteY (siteOf d)
  BitVec.ofNat 64 (xs.foldl min 17 + ys.foldl min 17 * 2 ^ 5 + xs.foldl max 0 * 2 ^ 10 + ys.foldl max 0 * 2 ^ 15
    + logOf (ds.headD 0) * 2 ^ 20)

/-- The copies of a multicast beyond a disabled link: one report names them (R310). DEDUCED (log 89). -/
def Module.lostCopies (m : Module) (p : Packet) (ds : List Nat) : Module :=
  (m.lessCopies p ds).containPkt p.src p .noroute (setOf ds)

/-- A packet whose next link is disabled: the router answers NOROUTE, and where that reply is discarded on its way the slot's timer ends
the request (R299, R314). DEDUCED (log 89). -/
def Module.lostPkt (m : Module) (k : Nat) (p : Packet) : Module :=
  let back := m.pathOk p.here p.ssite
  let m := m.dropPkt k
  match p.kind with
  | .message =>
    if p.opc = 2 then m
    else if !m.ownPkt p then m.replyPeer p.here p .reply (.bad .noroute 0)
    else if p.mc then m.lostCopies p [p.dst]
    else if back then (m.doneWith p).containPkt p.src p .noroute
    else m
  | .wakeup => if back then m.containPkt p.src p .noroute else m
  | .migration => if back then (m.containPkt p.src p .noroute).migFault p .noroute else m
  | .streamOpen => m.breakRoute p.src k
  | .steal => if back then m.failSteal p else m
  | .read | .write | .check | .atomic =>
    if !m.ownPkt p then m.replyPeer p.here p .reply (.bad .noroute p.va)
    else if back then
      m.onCore p.src fun c =>
        match Tab.find c.ni.slots p.slot with
        | some r => { c with ni := { c.ni with slots := Tab.put c.ni.slots p.slot { r with ans := .bad .noroute p.va } } }
        | none => c
    else m
  | _ => m

/-! ## Events of the network -/

/-- An ordered message waits for every earlier ordered message of its activation (R307). -/
def Core.ordBlocked (c : Core) (p : Packet) : Bool :=
  let before (q : Nat) : Bool := q ≠ p.seq.toNat && decide ((p.seq.toNat + 2 ^ 32 - q) % 2 ^ 32 < 2 ^ 31)
  p.ord && (c.ni.slots.any (fun e => e.2.req.kind == .message && e.2.req.ord && e.2.req.aid == p.aid && before e.2.req.seq.toNat)
    || c.ni.mrecs.any fun r => r.ord && r.aid == p.aid && before r.id)

/-- The reply slot's timer starts at injection (R299). -/
def Module.startTimer (m : Module) (p : Packet) : Module :=
  m.onCore p.src fun c =>
    match Tab.find c.ni.slots p.slot with
    | some r =>
      if r.req.kind == p.kind && r.req.seq == p.seq && !p.mc then
        { c with ni := { c.ni with slots := Tab.put c.ni.slots p.slot { r with at_ := m.time } } }
      else c
    | none => c

/-- A waiting packet enters the network (R297, R301, R315), with the key that `c.pk` of its core then holds (R304, R412). -/
def Module.inject (m : Module) (k : Nat) (p : Packet) : Option Module :=
  if p.kind == .message && (m.core p.src).ordBlocked p then none
  else
    let (net, w) := m.routeOf p.ssite p
    let m := if m.ownPkt p then m.startTimer p else m
    let key := if m.ownPkt p && p.opc ≠ 2 && (p.vc = 0 || p.vc = 2 || p.vc = 3) then (m.core p.src).spec.pk else p.pkey
    some ({ m with nextInj := m.nextInj + 1 }.putPkt k
      { p with phase := 1, here := p.ssite, hops := 0, icyc := m.fabNow, net := net, det := w.isSome, wpt := w.getD 0
               switched := false, inj := m.nextInj, pkey := key })

/-- PACKET_INJECTION. -/
def execPacketInjection (p : Nat) (s : State) : Out :=
  event (fun m => (m.pkt p).bind fun x => if x.phase = 0 then m.inject p x else none) s

/-- A multicast at a router: it goes on along every branch at once, and is ejected where a destination is reached (R310). A branch over a
disabled link counts as granted. -/
def Module.spread (m : Module) (k : Nat) (p : Packet) : Module :=
  let hop (d : Nat) : Option (Nat × Nat) := nextHop false p.here (siteOf d)
  let m := (upFrom 0 4).foldl
    (fun m dir =>
      let ds := p.dests.filter fun d => (hop d).any (·.1 == dir)
      match ds.head?.bind hop with
      | none => m
      | some (_, next) =>
        if m.linkOff false p.here dir next then m.lostCopies p ds
        else m.post { p with here := next, hops := min (p.hops + 1) 255, dests := ds }) (m.dropPkt k)
  (p.dests.filter fun d => (hop d).isNone).foldl
    (fun m d => m.post { p with phase := 2, dests := [], dsite := siteOf d, dl := logOf d, dvcn := m.vcn d }) m

/-- The number of an output link: network and direction at a site. -/
def linkNo (net : Bool) (here dir : Nat) : Nat := 8 * here + 4 * net.toNat + dir
/-- A link is part of a stream's route (R312). -/
def Module.linkHeld (m : Module) (l : Nat) : Bool :=
  m.cores.any (fun e => e.2.ports.send.any fun p => p.links.contains l) || m.flits.any fun f => f.links.contains l
/-- A stream's open has reserved one more link. -/
def Module.holdLink (m : Module) (k : Nat) (p : Packet) (l : Nat) : Module :=
  if p.kind == .streamOpen then
    m.onCore p.src fun c =>
      { c with ports := { c.ports with
          send := c.ports.send.map fun x => if x.sid == k && x.route == 1 then { x with links := x.links ++ [l] } else x } }
  else m

/-- One hop; a waypoint changes the network, the destination ejects, and a packet for a peer leaves by its port (R386). None where a
stream's open finds the link held. -/
def Module.forward (m : Module) (k : Nat) (p : Packet) : Option Module :=
  if !p.dests.isEmpty then some (m.spread k p)
  else
    match nextHop p.net p.here (if p.det then p.wpt else p.dsite) with
    | some (dir, next) =>
      let l := linkNo p.net p.here dir
      if m.linkOff p.net p.here dir next then some (m.lostPkt k p)
      else if p.kind == .streamOpen && m.linkHeld l then none
      else some ((m.holdLink k p l).putPkt k { p with here := next, hops := min (p.hops + 1) 255 })
    | none =>
      some (if p.det then m.putPkt k { p with det := false, net := false, switched := true }
        else if p.dmod ≠ m.modnum.toNat then
          match m.tvxPort p.dmod with
          | some o => { m.dropPkt k with outbox := m.outbox ++ [(o, p)] }
          | none => m.lostPkt k p
        else m.putPkt k { p with phase := 2, due := m.time })

/-- Two packets from one core to one core on one virtual channel, over one route on one network. -/
def Packet.follows (a b : Packet) : Bool :=
  a.vc ≠ 2 && a.vc == b.vc && a.ssite == b.ssite && a.sl == b.sl && a.dsite == b.dsite && a.dl == b.dl && a.smod == b.smod
    && a.dmod == b.dmod && (a.det || a.switched) == (b.det || b.switched) && (if a.det || a.switched then a.wpt == b.wpt else a.net == b.net)

/-- A packet may not overtake one that was injected before it (R298): on its way, or (`out`) once ejected. -/
def Module.overtakes (m : Module) (p : Packet) (out : Bool) : Bool :=
  m.pkts.any fun e =>
    e.2.follows p && decide (e.2.inj < p.inj) && (if out then e.2.phase == 1 || e.2.phase == 2 else e.2.phase == 1 && decide (e.2.hops ≤ p.hops))

/-- ROUTER_FORWARD. -/
def execRouterForward (p : Nat) (s : State) : Out :=
  event (fun m => (m.pkt p).bind fun x => if x.phase = 1 && !m.overtakes x false then m.forward p x else none) s

/-- The wait of R60 after a RETRY: 64·2^k cycles, for k RETRYs received before it, at most 6. DEDUCED (log 91). -/
def backoff (k : Nat) : Nat := 64 * 2 ^ min k 6

/-- The answer RETRY or NACK has reached the sender, which waits. -/
def Module.refused (m : Module) (k : Nat) (p : Packet) : Module :=
  m.putPkt k { p with phase := 3, due := m.time + backoff p.tries, tries := p.tries + 1 }

/-- RETRY_REPLY: for a packet still in this module, or one that a peer has refused. -/
def execRetryReply (p : Nat) (s : State) : Out :=
  event (fun m => (m.pkt p).bind fun x =>
    if x.phase = 4 && !x.mc then some (if m.ownPkt x && x.kind ≠ .wakeup && !m.slotHeld x then m.dropPkt p else m.refused p x)
    else if x.phase = 2 && x.kind == .retry then
      let m := m.dropPkt p
      some (match Tab.find (m.core x.dst).ni.slots x.slot with
        | some r =>
          let q := { r.req with tries := r.req.tries + 1, phase := 3, due := m.time + backoff r.req.tries }
          let m := m.onCore x.dst fun c => { c with ni := { c.ni with slots := Tab.put c.ni.slots x.slot { r with req := q } } }
          m.post q
        | none => m)
    else none) s

/-- NACK (R310). -/
def execNack (p : Nat) (s : State) : Out :=
  event (fun m => (m.pktAt p 4 .message).bind fun x => if x.mc then some (m.refused p x) else none) s

/-- A resend after its backoff, with the same number; none while the sender's partition is pre-empted (R60, R366). -/
def Module.resend (m : Module) (k : Nat) (p : Packet) : Option Module :=
  if m.time < p.due || (m.ownPkt p && (m.partOf p.ssite).swSt ≠ 0) then none else m.inject k { p with resend := true }

/-- RETRY_RESEND. -/
def execRetryResend (p : Nat) (s : State) : Out :=
  event (fun m => (m.pkt p).bind fun x =>
    if x.phase = 3 && !x.mc && x.kind ≠ .migration then m.resend p x else none) s
/-- MULTICAST_RESEND. -/
def execMulticastResend (p : Nat) (s : State) : Out :=
  event (fun m => (m.pkt p).bind fun x => if x.phase = 3 && x.mc then m.resend p x else none) s
/-- MIGRATION_RESEND (R60). -/
def execMigrationResend (cid key : Nat) (s : State) : Out :=
  event (fun m =>
    (m.act cid key).mig.bind fun k => (m.pktAt k 3 .migration).bind fun x => m.resend k x) s

/-- REPLY: an answer from a peer lands in its slot; one that comes after the timeout is discarded (R299, R301). -/
def execReply (p : Nat) (s : State) : Out :=
  event (fun m => (m.pktAt p 2 .reply).map fun x =>
    let m := m.dropPkt p
    match Tab.find (m.core x.dst).ni.slots x.slot with
    | some r =>
      if r.ans ≠ .none_ then m
      else if r.req.kind == .message then
        let m := m.dropSlot x.dst x.slot
        match x.ans with
        | .bad c _ => m.containPkt x.dst r.req c
        | _ => m
      else m.onCore x.dst fun c => { c with ni := { c.ni with slots := Tab.put c.ni.slots x.slot { r with ans := x.ans } } }
    | none => m) s

/-- REPLY_SLOT_TIMEOUT: 2^20 cycles after injection with no answer the request completes as NOROUTE (R299); one that has not been injected
or that a RETRY has answered has no timer running. A message still on its way goes on; a migration or a steal does not, since nothing
could take its answer. DEDUCED (log 89). -/
def execReplySlotTimeout (cid slot : Nat) (s : State) : Out :=
  event (fun m => (Tab.find (m.core cid).ni.slots slot).bind fun r =>
    let mine (e : Nat × Packet) : Bool := e.2.src == cid && e.2.slot == slot && e.2.seq == r.req.seq && e.2.kind == r.req.kind
    if r.ans ≠ .none_ || m.time < r.at_ + 2 ^ 20 || m.pkts.any (fun e => mine e && (e.2.phase == 0 || e.2.phase == 3)) then none
    else
      let m := if r.req.kind == .message then m else { m with pkts := m.pkts.filter fun e => !mine e }
      some (match r.req.kind with
        | .message => (m.dropSlot cid slot).containPkt cid r.req .noroute
        | .migration => (m.containPkt cid r.req .noroute).migFault r.req .noroute
        | .steal => m.failSteal r.req
        | _ => m.onCore cid fun c =>
            { c with ni := { c.ni with slots := Tab.put c.ni.slots slot { r with ans := .bad .noroute r.req.va } } })) s

/-! ## Arrival (R25, R304, R315) -/

/-- An ejected packet waits while its core's binding changes (R21), and for those of its route that came before it (R298). -/
def Module.arrives (m : Module) (k : Nat) (kind : PKind) : Option Packet :=
  (m.pktAt k 2 kind).filter fun p => !m.coreHeld p.dst && !m.overtakes p true

/-- GEN and VCN name the core that the packet has reached (R25). -/
def Module.handleHolds (m : Module) (p : Packet) : Bool :=
  p.gen == (m.site p.dsite).epoch && m.coreOfVcn p.dsite p.dvcn == some p.dst

/-- The BADHANDLE record of a stale arrival, in the site's queue. -/
def Module.staleArrival (m : Module) (p : Packet) : Module :=
  m.siteContain p.dsite
    { cause := Cause.badhandle.code, addr := mkHandle p.dvcn p.dmod p.gen, sseq := p.seq.toNat, svcn := p.svcn }

def Module.keyHolds (m : Module) (p : Packet) : Bool := p.pkey == (m.core p.dst).spec.pk

/-- `c.lat` from an accepted packet (R315). -/
def Module.setLat (m : Module) (p : Packet) : Module :=
  let cyc := min ((m.fabNow + 2 ^ 48 - p.icyc) % 2 ^ 48) (2 ^ 24 - 1)
  let v := p.hops + cyc * 2 ^ 8 + p.switched.toNat * 2 ^ 32 + p.net.toNat * 2 ^ 33 + p.mc.toNat * 2 ^ 34
  m.onCore p.dst fun c => { c with spec := { c.spec with lat := BitVec.ofNat 64 v } }

end Sys2Proof.Machine
end

