-- ==== Sys2Proof/Machine/Fetch.lean ====
section
/-!
DEFINITION. Instruction fetch (R189–R192), line buffers, the checks of an instruction's address (R100–R106, R475) and
control transfers (R104).
-/
namespace Sys2Proof.Machine

/-! ## Lines of code -/

/-- Sets of the instruction cache: 32 KiB, 8 ways, 64-byte lines (R189). DESIGN CHOICE (log 46). -/
def icSet (va : Nat) : Nat := va / 64 % 64

/-- A line put into the instruction cache; in a full set the lowest address gives way. DESIGN CHOICE (log 46). -/
def icAdd (t : Tab (List Byte)) (va : Nat) (b : List Byte) : Tab (List Byte) :=
  let same := t.filter fun e => icSet e.1 == icSet va
  let t := if 8 ≤ same.length && (Tab.find t va).isNone then
      match same with
      | (k, _) :: _ => Tab.del t k
      | [] => t
    else t
  Tab.put t va b

/-- The image of the line at `va`, a multiple of 64, as fetch for an activation finds it (R189, R190): the home's, whatever stashes hold,
under the activation's own stores that wait for the home (R197, R213). DEDUCED (log 45); DESIGN CHOICE (log 143). -/
def fetchLine (cid aid va : Nat) (super : Bool) : MM (List Byte) := do
  let m ← get
  match windowOf va with
  | none => MM.raise .page va
  | some (w, _) =>
    match w, m.target cid va with
    | .local_, .lm t off | .near, .lm t off =>
      if t = cid then do
        lmCheck cid t off 64 .fetch super va
        return (← get).lmRead t off 64
      else MM.raise .perm va
    | .ilv, .dram home | .seg, .dram home =>
      match Tab.find (m.core cid).icache va with
      | some b => return b
      | none => do
        let (_, loc) ← dramAt cid home va .fetch super
        MM.stopIf ((← get).bad loc 64) .uncorr va
        MM.upd fun m => m.inspect loc 64
        let home_ := (← get).rd loc 64
        let b ← readOwn cid aid loc home_
        MM.upd fun m => if b = home_ then m.onCore cid fun c => { c with icache := icAdd c.icache va b } else m
        return b
    | .ilv, _ | .seg, _ => MM.raise .noroute va
    | _, _ => MM.raise .perm va

/-- The activation of a context. -/
def Module.ctxAid (m : Module) (cid k : Nat) : Nat := ((m.core cid).ctx k).act.elim 0 fun key => (m.ctlOf cid key).aid
/-- A context's buffer filled with a line, for the activation that stands there (R190). -/
def Module.fillBuffer (m : Module) (cid k base : Nat) (b : List Byte) : Module :=
  m.onCore cid fun c => c.onCtx k fun x => { x with line := some ⟨base, b, x.act.elim 0 fun key => (m.ctlOf cid key).aid⟩ }

/-- The line that holds an address, from the context's buffer or fetched into it. -/
def lineFor (cid k : Nat) (pc : Word) (super : Bool) : MM (List Byte) := do
  let base := pc.toNat / 64 * 64
  match ((← get).core cid).ctx k |>.line with
  | some l =>
    if l.base = base then return l.bytes
    else do
      let b ← fetchLine cid ((← get).ctxAid cid k) base super
      MM.upd fun m => m.fillBuffer cid k base b
      return b
  | none => do
    let b ← fetchLine cid ((← get).ctxAid cid k) base super
    MM.upd fun m => m.fillBuffer cid k base b
    return b

/-- The cause that a line image gives an address in it, if any (R104–R106). Open: an entry through a vector of 0 whose line at LM
offset 0 is malformed, as after reset, where R93 names BADTGT and the order of R81 BADLINE; here it is BADLINE.
DEDUCED (log 22); DESIGN CHOICE (log 135). -/
def addrBad (b : List Byte) (pc : Word) : Option Cause :=
  if !lineOk b then some .badline
  else if bit pc 0 || slotOfPc pc = 0 || lineHc b < slotOfPc pc then some .badtgt
  else none

/-- The code at an address of the focused context; a fault names the address itself (R104 case 1, R105, R106).
DEDUCED (log 45). -/
def codeAt (cid k : Nat) (pc : Word) (super : Bool) : MM Code := do
  let b ← fun m =>
    match lineFor cid k pc super m with
    | .error (.fault f) => .error (.fault { f with addr := pc })
    | r => r
  match addrBad b pc with
  | some c => MM.fault { cause := c, addr := pc }
  | none => return lineCode b (slotOfPc pc)

/-! ## Control transfers -/

/-- The checks of a transfer to t and the transfer (R104). A fetch fault lets it commit: it is raised where t is fetched. Case 1 of
R104 does not list NOROUTE, nor the PKEY of a line whose home holds another key; here both are fetch faults like the others.
DESIGN CHOICE (log 138). -/
def transfer (t : Word) : Run Unit := do
  let s ← get
  match lineFor s.cid s.ctx t s.super s.m with
  | .ok (b, m) =>
    match addrBad b t with
    | some c => Run.raise c t.toNat
    | none => do
      Run.onM fun _ => m
      Run.onCtl fun c => { c with pc := t }
  | .error (.fault _) => Run.onCtl fun c => { c with pc := t }
  | .error e => fun _ => .error e

/-- The checks of a target whose PC is still to be written: the image checked fills the buffer, so that it is the one that issues
(R101, R190). -/
def fillTarget (t : Word) : Run Unit := do
  let s ← get
  match lineFor s.cid s.ctx t s.super s.m with
  | .ok (b, m) =>
    match addrBad b t with
    | some c => Run.raise c t.toNat
    | none => Run.onM fun _ => m
  | .error (.fault _) => pure ()
  | .error e => fun _ => .error e

/-- The checks alone, before a link is written (R401, R406). -/
def checkTarget (t : Word) : Run Unit := do
  let s ← get
  match lineFor s.cid s.ctx t s.super s.m with
  | .ok (b, _) =>
    match addrBad b t with
    | some c => Run.raise c t.toNat
    | none => pure ()
  | .error (.fault _) => pure ()
  | .error e => fun _ => .error e

/-- The address n + 1 instructions on from `pc` by sequential flow, each line entered being read and checked (R475). -/
def skipFrom (cid k : Nat) (super : Bool) (b : List Byte) (pc : Word) : Nat → MM Word
  | 0 => pure pc
  | n + 1 =>
    if slotOfPc pc < lineHc b then skipFrom cid k super b (pc + 2#64) n
    else do
      let t := lineBase pc + 66#64
      let l ← fun m =>
        match fetchLine cid (m.ctxAid cid k) (lineBase t).toNat super m with
        | .error (.fault f) => .error (.fault { f with addr := t })
        | r => r
      if !lineOk l then MM.fault { cause := .badline, addr := t }
      else do
        MM.upd fun m => m.fillBuffer cid k (lineBase t).toNat l
        skipFrom cid k super l t n

end Sys2Proof.Machine
end

