-- ==== Sys2Proof/Machine/Sync.lean ====
section
/-!
DEFINITION. Fences, atomics, reductions, reservations, barrier objects, semaphores and waits (R203–R238, R400, R402, R430,
R437, R441, R459–R462, R469, R470, R500).
-/
namespace Sys2Proof.Machine

/-! ## Waiting for earlier effects -/

/-- A write of the activation that its home has not accepted (R204, R380), or a bank of its core that WAKE has still to zero (R417). -/
def Module.unwritten (m : Module) (cid aid : Nat) : Bool :=
  !(m.lateOf cid aid).isEmpty || (upFrom 0 16).any fun b => (m.phy (m.pid cid)).bank b == 3
/-- An SFLUSH or SINV of the activation that is not complete (R458). -/
def Module.unflushed (m : Module) (cid aid : Nat) : Bool :=
  (m.core cid).flushes.any fun e => e.1 == aid && match (m.core cid).held e.2.1 with
    | some x => e.2.2 || x.st == 3
    | none => false
/-- A message of an activation that its receiver has not accepted (R472); one to a peer module holds its reply slot until then. -/
def Module.unsent (m : Module) (cid aid : Nat) : Bool :=
  (m.pkts.any fun e => e.2.kind == .message && e.2.aid == aid && e.2.ssite == siteOf cid && e.2.sl == logOf cid)
    || ((m.core cid).ni.slots.any fun e => e.2.req.kind == .message && e.2.req.aid == aid)
    || (m.core cid).ni.mrecs.any fun r => r.aid == aid && !r.left.isEmpty
/-- A release waits for the earlier writes of its agent (R205, R206), and for its stash maintenance (R458). -/
def releases : Run Unit := do
  let s ← get
  Run.stallIf (s.m.unwritten s.cid s.aid || s.m.unflushed s.cid s.aid)

/-- FENCE (R203, R204, R430, R458, R472): it waits for every earlier write of the activation, those of its own group too, and for its
stash maintenance; it completes
before a pending late fault is delivered (R214). DEDUCED (log 129). -/
def execFence (f : FenceF) (s : State) : Out :=
  runInstr false (fun _ => do
    let s ← get
    let q := s.ldQ ++ s.sdQ
    let wrote := (s.open_.map (·.wrote)).getD 0
    Run.stopIf (f.order == 3#2 && q.any fun e => decide (e.1 + 1 < wrote)) .badopnd
    let base := if q.isEmpty then s.m else (s.open_.map (·.base)).getD s.m
    Run.stallIf (f.scope ≠ 0#4 && s.m.unflushed s.cid s.aid)
    Run.stallIf (f.scope ≠ 0#4 && f.order ≠ 0#2 && (s.m.unwritten s.cid s.aid || base.unsent s.cid s.aid))
    return .step 0 0) s true

/-- What an instruction that may suspend checks before its operands (R77, R350). -/
def mayWait : Run Unit := do
  noUpcall
  noQueue

/-! ## Atomics and reductions -/

/-- The home of an ordered atomic: a home site, or an owning core above 1,024 (R207). -/
def State.ordHome (s : State) (va : Nat) : Nat :=
  match s.m.target s.cid va with
  | .dram h => h
  | .lm t _ => 1024 + t
  | _ => 0
/-- The next number of the activation's ordered atomics to a home (R220). -/
def State.ordNum (s : State) (va : Nat) : Nat := Tab.get 0 s.act.onum (s.ordHome va)
/-- The number is taken. DEDUCED (log 70). -/
def countOrdered (va : Nat) : Run Unit := do
  let s ← get
  Run.onM fun m => m.onAct s.cid s.key fun a => { a with onum := Tab.put a.onum (s.ordHome va) ((s.ordNum va + 1) % 65536) }
/-- A core with 64 unacknowledged `.o` operations has a further one wait (R220). -/
def ordRoom (o : Bool) : Run Unit := do
  let s ← get
  Run.stallIf (o && decide (64 ≤ (s.m.late.filter fun e => e.cid == s.cid && e.num.isSome).length))

/-- Operand width of `.w` and `.d`. -/
def opWidth (dw : Bool) : Nat := if dw then 64 else 32

/-- ATOM (R215–R220, R400). -/
def execAtom (f : AtomF) (s : State) : Out :=
  run (do
    let l ← operands [⟨f.b, f.kb, .addr⟩, ⟨f.c, f.kc, .addr⟩, ⟨f.d, f.kd, .addr⟩] (some (.load, f.a))
    let s ← get
    let w := opWidth f.dw
    let va := (arg l 0).toNat
    ordRoom f.o
    let old ← Run.lift (atomAt s.cid s.ctx va w f.opc.toNat ((arg l 1).toNat % 2 ^ w) ((arg l 2).toNat % 2 ^ w) s.super f.o)
    if f.o then countOrdered va
    noteWrite
    writeDst f.a (BitVec.ofNat 64 old)) s

/-- RED (R459): the same at the home or owner, with no result. -/
def execRed (f : RedF) (s : State) : Out :=
  run (do
    let l ← operands [⟨f.b, f.kb, .addr⟩, ⟨f.a, f.ka, .addr⟩] none
    let s ← get
    let w := opWidth f.dw
    let va := (arg l 0).toNat
    ordRoom f.o
    Run.lift (redAt s.cid s.ctx va w f.opc.toNat ((arg l 1).toNat % 2 ^ w) s.super (if f.o then some (s.ordNum va) else none))
    if f.o then countOrdered va
    noteWrite) s

/-- REDX (R225, R461). -/
def execRedx (f : RedxF) (s : State) : Out :=
  run (do
    let l ← operands [⟨f.b, f.kb, .addr⟩, ⟨f.a, f.ka, .addr⟩] none
    let s ← get
    let k := f.fmt.toNat
    Run.lift (redxAt s.cid s.ctx (arg l 0).toNat k ((arg l 1).toNat % 2 ^ (redxFmt k).w) s.super)
    noteWrite) s

/-- XREAD (R160, R462). -/
def execXread (f : XreadF) (s : State) : Out :=
  run (do
    let l ← operands [⟨f.b, f.kb, .addr⟩] (some (.reg, f.a))
    let s ← get
    let cell ← Run.lift (xreadAt s.cid s.ctx (arg l 0).toNat s.super)
    let (mode, h) ← takeMode f.rm.toNat
    let (v, fl) := Num.xread cell (Num.fmtOf f.ty.toNat) mode h
    orFlags fl
    writeDst f.a (BitVec.ofNat 64 v)) s

/-! ## Reservations -/

/-- LDRS at an address (R222, R441). -/
def reserve (a : Opnd) (va : Word) (dw : Bool) : Run Unit := do
  let s ← get
  let (v, r) ← Run.lift (ldrsAt s.cid s.ctx va.toNat (opWidth dw / 8) s.super)
  Run.onCore fun c => c.onCtx s.ctx fun x => { x with resv := some r }
  writeDst a (BitVec.ofNat 64 v)
/-- LDRS, base plus index (R441). -/
def execLdrsIndex (f : LdrsX) (s : State) : Out :=
  run (do
    let l ← operands [⟨f.b, f.kb, .addr⟩, ⟨f.c, f.kc, .addr⟩] (some (.reg, f.a))
    reserve f.a (arg l 0 + arg l 1) f.dw) s
/-- LDRS, base plus displacement (R441). -/
def execLdrsDisp (f : LdrsD) (s : State) : Out :=
  run (do
    let l ← operands [⟨f.b, f.kb, .addr⟩] (some (.reg, f.a))
    reserve f.a (arg l 0 + f.disp.signExtend 64) f.dw) s

/-- STC (R222, R441): a fault ends the reservation too. -/
def execStc (f : StcF) (s : State) : Out :=
  run (do
    let l ← operands [⟨f.b, f.kb, .addr⟩, ⟨f.c, f.kc, .addr⟩] (some (.reg, f.a))
    let s ← get
    let r := (s.core.ctx s.ctx).resv
    let x : Run Bool := Run.lift (stcAt s.cid s.ctx (arg l 0).toNat (leBytes (opWidth f.dw / 8) (arg l 1).toNat) s.super r)
    let ok ← fun t =>
      match x t with
      | .error (.fault e) => .error (.fault { e with side := .resv s.cid s.ctx :: e.side })
      | r => r
    Run.onCore fun c => c.onCtx s.ctx fun y => { y with resv := none }
    noteWrite
    writeDst f.a (if ok then 0 else 1)) s

/-- WAITRS (R224, R500). -/
def execWaitrs (f : Un) (s : State) : Out :=
  runInstr false (fun pc => do
    mayWait
    let l ← operands [⟨f.b, f.kb, .addr⟩] (some (.reg, f.a))
    noHandler
    let s ← get
    let n := bits (arg l 0) 31 0
    match (s.core.ctx s.ctx).resv with
    | some r =>
      if s.core.mons.length < 16 then do
        Run.onCore fun c => { c.onCtx s.ctx fun y => { y with resv := none } with mons := c.mons ++ [⟨r.line, s.key⟩] }
        suspend pc 5 r.va (BitVec.ofNat 64 n) f.a (.resv (if n = 0 then none else some (s.m.time + n)))
      else do
        Run.onCore fun c => c.onCtx s.ctx fun y => { y with resv := none }
        writeDst f.a 2
        return .step 0 0
    | none => do
      writeDst f.a 2
      return .step 0 0) s

/-! ## Barrier objects -/

/-- The operands, and the object's location with its memory kind (R226, R402); every earlier write of the activation to the line of an
object in DRAM has been accepted (R197, R198). -/
def barOperands (f : BarF) : Run (Nat × Bool × Word × Word) := do
  let l ← operands [⟨f.b, f.kb, .addr⟩, ⟨f.c, f.kc, .addr⟩] (some (.reg, f.a))
  let s ← get
  let (loc, dram) ← Run.lift (barAt s.cid (arg l 0).toNat s.super)
  if dram then Run.lift (waitOwn s.cid s.aid loc)
  return (loc, dram, arg l 1, arg l 0)

/-- The place of execution of an object: the owning core or the home slice (R226). -/
def placeOf (loc : Nat) : Nat := if loc < 2 ^ 64 then loc / 2 ^ 19 else 2 ^ 40 + siteOfLoc loc

/-- BARI (R227, R231). -/
def execBari (f : BarF) (s : State) : Out :=
  run (do
    let (loc, dram, c, va) ← barOperands f
    let m := (← get).m
    Run.stopIf (m.bwait.any fun w => w.loc == loc) .barbusy va.toNat
    let n := bits c 31 0
    if n = 0 ∨ 2 ^ 24 ≤ n then writeDst f.a 3
    else do
      Run.lift (MM.home fun m => m.barPut loc dram (barEncode 0 ⟨n, 0, 0, false, true, f.scope.toNat⟩))
      Run.onM fun m => m.barRegister loc f.scope.toNat
      writeDst f.a 0) s

/-- The combined arrival that a core's activation has joined, with its place in the list. -/
def Site.joined (x : Site) (loc cid key : Nat) : Option (Nat × Combine) :=
  findIdx (fun b : Combine => b.loc == loc && b.waiters.contains (cid, key)) x.comb

/-- The same once the unit has made the arrival: its result, whatever has become of the object since (R231, R238). -/
def Site.answered (x : Site) (loc cid key : Nat) : Option (Nat × Combine × Nat) :=
  match x.joined loc cid key with
  | some (i, b) => b.res.map fun r => (i, b, r)
  | none => none

/-- An arrival that its unit still holds for an activation is withdrawn: the object is no longer a valid network barrier (R227). -/
def Module.leaveComb (m : Module) (site cid key : Nat) : Module :=
  m.onSite site fun x =>
    { x with comb := (x.comb.map fun b => { b with waiters := b.waiters.filter (· ≠ (cid, key)) }).filter fun b => !b.waiters.isEmpty }

/-- BARA (R227, R231): an arrival at a network barrier goes through its site's collective unit. -/
def execBara (f : BarF) (s : State) : Out :=
  run (do
    releases
    let (loc, dram, c, _) ← barOperands f
    let s ← get
    let n := bits c 31 0
    let st := siteOf s.cid
    match (s.m.site st).answered loc s.cid s.key with
    | some (i, b, r) => do
      let ws := b.waiters.filter (· ≠ (s.cid, s.key))
      Run.onM fun m => m.onSite st fun x =>
        { x with comb := if ws.isEmpty then dropAt x.comb i else setAt x.comb i { b with waiters := ws } }
      writeDst f.a (BitVec.ofNat 64 r)
    | none =>
      if (s.m.barObj loc).v && n ≠ 0 && decide (n < 2 ^ 24) && s.m.isNetBar loc then
        if ((s.m.site st).joined loc s.cid s.key).isSome then Run.stall
        else fun _ => .error (.ask s.cid (.arrive st loc n s.cid s.key))
      else do
        Run.onM fun m => m.leaveComb st s.cid s.key
        let r ← Run.lift (MM.home fun m => m.bara loc dram n)
        writeDst f.a (BitVec.ofNat 64 r)) s

/-- BART (R227). -/
def execBart (f : BarF) (s : State) : Out :=
  run (do
    releases
    let (loc, dram, c, _) ← barOperands f
    let m := (← get).m
    let o := m.barObj loc
    let n := bits c 31 0
    if !o.v then writeDst f.a 2
    else if 2 ^ 31 ≤ n then writeDst f.a 3
    else do
      let _ ← Run.lift (MM.home fun m => m.barChange loc dram { o with pend := (o.pend + n) % 2 ^ 32 })
      writeDst f.a 0) s

/-- BARW (R227, R228). -/
def execBarw (f : BarF) (s : State) : Out :=
  runInstr false (fun pc => do
    mayWait
    let (loc, _, c, va) ← barOperands f
    noHandler
    let s ← get
    let o := s.m.barObj loc
    if !o.v then do
      writeDst f.a 2
      return .step 0 0
    else if o.phase ≠ bit c 0 then do
      writeDst f.a 0
      return .step 0 0
    else do
      let room := (s.m.bwait.filter fun w => placeOf w.loc == placeOf loc).length < Config.barRoom
      if room then Run.onM fun m => { m with bwait := m.bwait ++ [⟨loc, s.cid, s.key⟩] }
      suspend pc 2 va (BitVec.ofNat 64 (bits c 0 0)) f.a (.bar loc room (s.m.time + 64) 0)) s

/-- BARV (R227). -/
def execBarv (f : BarvF) (s : State) : Out :=
  run (do
    releases
    let (loc, dram, _, _) ← barOperands ⟨f.a, f.b, 41#6, f.kb, false, f.scope⟩
    let m := (← get).m
    let o := m.barObj loc
    if !o.v then writeDst f.a 2
    else do
      Run.lift (MM.home fun m => m.barPut loc dram (barEncode (m.barWord loc) { o with v := false }))
      Run.onM fun m => m.wakeBar loc 2
      writeDst f.a 0) s

/-! ## Semaphores -/

/-- The value of a semaphore of a tile (R233). -/
def Tile.sem (t : Tile) (n : Nat) : BitVec 32 := Tab.get 0 t.sems n

/-- The activations of a tile whose SEMW the value of semaphore n satisfies. -/
def Module.semReady (m : Module) (t n : Nat) (v : BitVec 32) : List (Nat × Nat) :=
  (upFrom (8 * t) 8).flatMap fun cid =>
    ((m.core cid).acts.filter fun e =>
      e.2.st == .suspended && (match e.2.wait with
        | .sem k thr => k == n && decide (thr ≤ v.toNat)
        | _ => false)).map fun e => (cid, e.1)

/-- Every SEMW that the value of a semaphore satisfies becomes READY (R233). -/
def Module.semWake (m : Module) (t n : Nat) : Module :=
  (m.semReady t n ((m.tile t).sem n)).foldl (fun m p => m.wake p.1 p.2 none) m

/-- The evaluation of waits that ends a cycle (R235): for every semaphore changed in an earlier cycle than this one.
DEDUCED (log 146). -/
def Module.semSettle (m : Module) : Module :=
  let due (a : Tab (Nat × Nat)) : Tab (Nat × Nat) := a.filter fun e => e.2.1 ≠ m.time
  if m.tiles.all fun e => (due e.2.semAt).isEmpty then m
  else
    (m.tiles.flatMap fun e => (due e.2.semAt).map fun x => (e.1, x.1)).foldl
      (fun m p => (m.onTile p.1 fun t => { t with semAt := Tab.del t.semAt p.2 }).semWake p.1 p.2) m

/-- An operation at a place in the order of R235 may still act in this cycle. -/
def Module.semTurn (m : Module) (t n rank : Nat) : Bool :=
  match Tab.find (m.tile t).semAt n with
  | some (c, r) => c ≠ m.time || decide (r ≤ rank)
  | none => true
/-- No operation of this cycle can still change the semaphore's value before its waits are evaluated. -/
def Module.semFinal (m : Module) (t n : Nat) : Bool :=
  match Tab.find (m.tile t).semAt n with
  | some (c, _) => c ≠ m.time
  | none => true

/-- A semaphore changed by an operation of a rank (R233, R235); its waits are evaluated when the cycle is over. -/
def Module.semPut (m : Module) (t n : Nat) (v : BitVec 32) (rank : Nat) : Module :=
  let m := if m.semFinal t n && (Tab.find (m.tile t).semAt n).isSome then m.semWake t n else m
  m.onTile t fun x => { x with sems := Tab.put x.sems n v, semAt := Tab.put x.semAt n (m.time, rank) }

/-- SEMS and engine signals: saturating addition (R233, R234). -/
def Module.semAdd (m : Module) (t n v : Nat) : Module :=
  m.semPut t n (BitVec.ofNat 32 (min (((m.tile t).sem n).toNat + v) (2 ^ 32 - 1))) 8

/-- The value operand of a semaphore instruction. -/
def semOperand (f : SemF) : Run Nat := do
  let l ← operands [⟨f.c, f.kc, .addr⟩] none
  return bits (arg l 0) 31 0

/-- SEMSET (R235, R469). -/
def execSemset (f : SemF) (s : State) : Out :=
  run (do
    releases
    let v ← semOperand f
    let s ← get
    let t := tileOf s.cid
    Run.stallIf (!s.m.semTurn t f.n.toNat (slotOf s.cid))
    Run.onM fun m => m.semPut t f.n.toNat (BitVec.ofNat 32 v) (slotOf s.cid)) s

/-- SEMS (R469). -/
def execSems (f : SemF) (s : State) : Out :=
  run (do
    releases
    let v ← semOperand f
    let t := tileOf (← get).cid
    Run.onM fun m => m.semAdd t f.n.toNat v) s

/-- SEMW (R469, R470), on a value that no operation of the cycle can still change (R235). -/
def execSemw (f : SemF) (s : State) : Out :=
  runInstr false (fun pc => do
    mayWait
    let v ← semOperand f
    noHandler
    let s ← get
    Run.stallIf (!s.m.semFinal (tileOf s.cid) f.n.toNat)
    if ((s.m.tile (tileOf s.cid)).sem f.n.toNat).toNat < v then
      suspend pc 3 (f.n.zeroExtend 64) (BitVec.ofNat 64 v) opZ (.sem f.n.toNat v)
    else return .step 0 0) s

/-! ## Jobs and WAIT -/

/-- The job operand and its state in the named sequence (R236). -/
def jobOperand (f : JobF) : Run (Nat × JobSt) := do
  let l ← operands [⟨f.b, f.kb, .addr⟩] (some (.reg, f.a))
  let c := (← get).core
  let id := bits (arg l 0) 15 0
  return (id, (if f.cp then c.jobCp else c.jobMx).state id)

/-- JPOLL (R237, R437). -/
def execJpoll (f : JobF) (s : State) : Out :=
  run (do
    let (_, st) ← jobOperand f
    writeDst f.a (BitVec.ofNat 64 st.code)) s

/-- JWAIT (R237, R437). -/
def execJwait (f : JobF) (s : State) : Out :=
  runInstr false (fun pc => do
    mayWait
    let (id, st) ← jobOperand f
    noHandler
    if st = .complete ∨ st = .faulted then do
      writeDst f.a (BitVec.ofNat 64 st.code)
      return .step 0 0
    else suspend pc 4 (BitVec.ofNat 64 id) 0 f.a (.job f.cp id)) s

/-- WAIT (R237, R437). -/
def execWait (f : Un) (s : State) : Out :=
  runInstr false (fun pc => do
    mayWait
    let l ← operands [⟨f.b, f.kb, .addr⟩] (some (.reg, f.a))
    noHandler
    let n := bits (arg l 0) 31 0
    if n = 0 then do
      writeDst f.a 0
      return .step 0 0
    else suspend pc 6 0 (BitVec.ofNat 64 n) f.a (.cycles ((← get).m.time + n))) s

/-! ## JOIN -/

/-- The join word, and its location where a monitor may watch it: the own LM or DRAM-backed memory (R224, R436). -/
def joinRead (cid who va : Nat) (super : Bool) : MM (Word × Option Nat) := do
  MM.stopIf (va % 8 ≠ 0) .misalign va
  let m ← get
  match m.target cid va with
  | .lm t off => do
    let bs ← loadAt cid who va 8 super true
    return (BitVec.ofNat 64 (leNat bs), if t = cid then some (m.lmAt t off) else none)
  | .dram home => do
    let (_, loc) ← dramAt cid home va .load super
    let bs ← loadAt cid who va 8 super true
    return (BitVec.ofNat 64 (leNat bs), some loc)
  | .group _ => MM.raise .perm va
  | _ => do
    let bs ← loadAt cid who va 8 super true
    return (BitVec.ofNat 64 (leNat bs), none)

/-- JOIN (R53, R224, R436). -/
def execJoin (f : Un) (s : State) : Out :=
  runInstr false (fun pc => do
    mayWait
    let l ← operands [⟨f.b, f.kb, .addr⟩] (some (.reg, f.a))
    let s ← get
    let (v, loc) ← Run.lift (joinRead s.cid s.ctx (arg l 0).toNat s.super)
    noHandler
    if v.toInt ≤ 0 then do
      writeDst f.a v
      return .step 0 0
    else do
      let mon := loc.isSome && decide (s.core.mons.length < 16)
      let at_ := loc.getD 0
      if mon then Run.onCore fun c => { c with mons := c.mons ++ [⟨lineOf at_, s.key⟩] }
      suspend pc 1 (arg l 0) 0 f.a (.join (arg l 0) pc mon (if mon then none else some (s.m.time + 256)))) s

end Sys2Proof.Machine
end

