-- ==== Sys2Proof/Machine/System.lean ====
section
/-!
DEFINITION. The instructions that begin, end, move and interrupt activations (R50–R53, R58–R60, R351–R353, R404, R419–R421,
R446, R447, R455, R477, R478, R482, R485).
-/
namespace Sys2Proof.Machine

/-- NOP (R455). -/
def execNop (s : State) : Out := run (pure ()) s

/-- BRK (R362, R404). -/
def execBrk (s : State) : Out := runInstr false (fun _ => pure .brkpt) s

/-- ADDR of a requested record (R482). -/
def reqAddr (f : Nat) (code : BitVec 16) : Word := BitVec.ofNat 64 (f * 2 ^ 16 + code.toNat)

/-- TRAP and SVC: the requested record, with no cause (R482). -/
def callBody (cause : Cause) (f : Nat) (code : BitVec 16) : Run After := do
  Run.stopIf (← get).super .illop
  noQueue
  return .call { cause := cause, addr := reqAddr f code, req := true }

/-- TRAP (R482): an upcall where R345 allows one. -/
def execTrap (f : CodeF) (s : State) : Out := runInstr false (fun _ => callBody .illop 0 f.code) s true
/-- SVC (R482): always a supervisor trap, as the causes of R344 without an upcall are. -/
def execSvc (f : CodeF) (s : State) : Out := runInstr false (fun _ => callBody .hblock 1 f.code) s true

/-- END (R419). -/
def execEnd (s : State) : Out :=
  runInstr false (fun _ => do
    let s ← get
    Run.stopIf (s.key == 64) .illop
    noQueue
    let c := s.win.ctl
    if c.joina ≠ 0#64 then releases
    match s.m.endJoin s.cid c with
    | none => Run.stall
    | some m => do
      let m := if swUpc c.sw then m.clearV s.cid (c.waitv.toNat % 2 ^ 19) else m
      Run.onM fun _ => m.release s.cid s.key
      return .gone) s

/-- The issuing cycles up to now are counted against the activation's budget. -/
def Run.countNow : Run Unit := do
  let s ← get
  Run.onM fun m => m.onAct s.cid s.key (·.count m.time)

/-- YIELD (R44, R420). -/
def execYield (s : State) : Out :=
  runInstr false (fun pc => do
    mayWait
    noHandler
    Run.countNow
    let s ← get
    Run.onCtl fun c =>
      { c with waitk := 7#4, cls := if c.path = 5#3 then c.cls else 4#3, budget := s.core.spec.budget }
    Run.onM fun m =>
      let m := m.onAct s.cid s.key fun a => { a with grace := none, stepAt := if swSs s.sw then some pc else a.stepAt }
      m.parkOrTrap s.cid s.key .ready
    return .gone) s

/-- SPAWN (R43, R50, R51, R477). DEDUCED (log 128). -/
def execSpawn (f : SpawnF) (s : State) : Out :=
  run (do
    let before := (← get).win
    let l ← operands [⟨f.b, f.kb, .addr⟩, ⟨f.c, f.kc, .addr⟩] (some (.reg, f.a))
    let s ← get
    let e := arg l 0; let j := arg l 1
    if (upFrom 0 8).any fun k => before.live k && before.bad.contains k then
      Run.fault { cause := .uncorr, side := [.reg s.cid s.key (upFrom 0 8)] }
    Run.onWin fun w => w.found ((upFrom 0 8).filter before.live)
    Run.stopIf (bits j 2 0 ≠ 0) .misalign j.toNat
    Run.stopIf (bit j 63) .page j.toNat
    if 64 ≤ s.core.desc.n then writeDst f.a 1
    else do
      Run.stopIf (!s.m.dqOk s.cid) .deadbank 0x7E000
      releases
      Run.stallIf (!s.m.dqFree s.cid)
      let r : TaskRec :=
        { pc := e, joina := j, dom := min f.dom.toNat s.win.ctl.dom.toNat, rm := swRm s.sw, rshc := swRshc s.sw
          parent := s.m.selfHandle s.cid, g := (upFrom 0 8).map fun k => if before.live k then before.gr k else 0 }
      Run.onM fun m => m.dqPush s.cid r
      writeDst f.a 0) s

/-- OwnerCore (R58); none is NOROUTE. -/
def Module.ownerCore (m : Module) (cid : Nat) (va : Nat) : Option Nat :=
  match windowOf va with
  | some (.local_, _) => some cid
  | some (.near, _) | some (.lmseg, _) =>
    match m.target cid va with
    | .lm c _ => if m.vacant c then none else some c
    | _ => none
  | _ => none

/-- The migration payload (R59). -/
def migPayload (w : Win) : List Byte :=
  let c := w.ctl
  ((upFrom 0 10).flatMap fun k => leBytes 8 (if w.live k then (w.gr k).toNat else 0))
    ++ leBytes 8 c.pc.toNat ++ leBytes 8 c.sw.toNat ++ leBytes 8 c.joina.toNat
    ++ leBytes 24 (c.budget.toNat + bits c.liveg 9 0 * 2 ^ 32 + c.dom.toNat * 2 ^ 42 + c.aidv.toNat * 2 ^ 48 + c.aids.toNat * 2 ^ 64)

/-- MIGR (R58, R59, R446, R447): it leaves once every earlier write is performed and every earlier message accepted (R209). -/
def execMigr (f : Src1) (s : State) : Out :=
  runInstr false (fun pc => do
    noQueue
    let l ← operands [⟨f.b, f.kb, .addr⟩] none
    noHandler
    noUpcall
    Run.countNow
    let s ← get
    let w := s.win
    Run.stopIf (bits w.ctl.liveg 31 10 ≠ 0 || w.ctl.livev ≠ 0#16) .miglive
    let va := arg l 0
    match s.m.ownerCore s.cid va.toNat with
    | none => Run.raise .noroute va.toNat
    | some d =>
      if d = s.cid then return .step 0 0
      else do
        releases
        Run.stallIf (s.m.unsent s.cid s.aid)
        match s.m.freeReply s.cid with
        | none => Run.stall
        | some k => do
          let (q, m) := s.m.takeSeq s.cid
          let p : Packet :=
            { kind := .migration, dsite := siteOf d, dl := logOf d, ssite := siteOf s.cid, sl := logOf s.cid
              pkey := s.core.spec.pk, seq := q, svcn := s.m.vcn s.cid, dvcn := s.m.vcn d
              gen := (s.m.site (siteOf s.cid)).epoch, dmod := s.m.modnum.toNat, smod := s.m.modnum.toNat
              va := pc, len := 128, slot := k, aid := s.aid, actKey := s.key, here := siteOf s.cid
              payload := migPayload w }
          let m := m.closePorts s.cid s.aid
          let m := m.onAct s.cid s.key fun a =>
            { a with win := some { w with ctl := { w.ctl with waitk := 10#4 } }, grace := none, mig := some m.nextPkt
                     migTo := va }
          let m := m.onCore s.cid fun c => { c with ni := { c.ni with slots := Tab.put c.ni.slots k ⟨p, m.time, .none_⟩ } }
          match m.flushBad s.cid s.act.wp w with
          | some c => Run.onM fun _ => s.m.trapAct s.cid s.key (s.m.recOf s.cid w { cause := c } w.ctl.pc 1)
          | none => Run.onM fun _ => (m.park s.cid s.key .migrating).post p
          return .gone) s

/-- ERET with DISP 0 is the END of the FAULTED activation (R353, R52): its join decrement, a release, waits until the home has accepted
every earlier write of that activation (R205, R206). -/
def Module.eretWaits (m : Module) (cid : Nat) : Bool :=
  match (m.core cid).sup.serving with
  | some i =>
    let r := m.supEntry cid i
    let ctl := m.ctlOf cid (Tab.get 64 (m.core cid).sup.keys i)
    r.kind = 1 && r.disp = 0 && ctl.joina ≠ 0#64 && !bit ctl.joina 63 && (m.unwritten cid ctl.aid || m.unflushed cid ctl.aid)
  | none => false

/-- ERET (R353, R421). -/
def execEret (s : State) : Out :=
  runInstr false (fun _ => do
    let s ← get
    Run.stopIf (!s.super) .priv
    Run.stopIf (s.key ≠ 64) .illop
    noQueue
    let bad := match s.core.sup.serving with
      | some i => let r := s.m.supEntry s.cid i; r.kind = 1 && decide (2 ≤ r.disp)
      | none => false
    Run.stopIf bad .illop
    releases
    Run.stallIf (s.m.eretWaits s.cid)
    match s.m.eret s.cid with
    | none => Run.stall
    | some m => do
      Run.onM fun _ => m
      return .gone) s

/-- URET (R351, R358, R485). With PW = 1 the activation is suspended at the URET until a notice clears PW; after a cancel
notice it goes FAULTED. -/
def execUret (s : State) : Out :=
  runInstr false (fun pc => do
    let s ← get
    let w := s.win
    Run.stopIf (!swUpc w.ctl.sw) .illop
    noQueue
    let r := FaultRec.decode (s.m.lmRead s.cid (w.ctl.waitv.toNat % 2 ^ 19) 64)
    if r.pw then do
      Run.onCtl fun c => { c with pc := pc, waitk := 8#4 }
      Run.onM fun m =>
        let m := m.onCore s.cid fun c => { c with spec := { c.spec with inst := c.spec.inst - 1#64 } }
        let m := m.onAct s.cid s.key fun a => { a with wait := .uret, dst := opZ, grace := none }
        m.parkOrTrap s.cid s.key .suspended
      return .gone
    else if s.act.pwCancel then do
      Run.onM fun m => m.cancelPage s.cid s.key
      return .gone
    else do
      fillTarget w.ctl.waita
      let s ← get
      let (m, w) := s.m.unwind s.cid s.win
      set { s with m := m }
      Run.onWin fun _ => w
      return .step 0 0) s

end Sys2Proof.Machine
end

