-- ==== Sys2Proof/Machine/Transform.lean ====
section
/-!
DEFINITION. The landing transforms and the codec (R279–R285), as CPYX and SENDX share them.
-/
namespace Sys2Proof.Machine

/-! ## Fixed-size units (R280) -/

/-- What rounding under RSH takes from the sender (R148). -/
structure Rsh where
  seed : Word
  counter : BitVec 32
  sw : Word
  deriving DecidableEq, Repr

/-- The rounding field of a transform, where it has one (R279). -/
def xfRm (xf par : Nat) : Option Nat :=
  match xf with
  | 3 | 4 => some (fieldOf par 10 8)
  | 6 => some (fieldOf par 6 4)
  | _ => none

/-- The transform rounds under RSH. DEDUCED (log 81). -/
def xfRsh (xf par : Nat) (sw : Word) : Bool := (xfRm xf par).any fun rm => effMode rm sw = 4

/-- Element i of packed elements of w bits. -/
def elemOf (w : Nat) (b : List Byte) (i : Nat) : Nat := leNat b / 2 ^ (w * i) % 2 ^ w

/-- n results of w bits packed from bit 0, with their flags. -/
def packElems (w n : Nat) (f : Nat → Nat × Nat) : List Byte × Nat :=
  let r := packLanes' w f (upFrom 0 n)
  (leBytes (w * n / 8) r.1, r.2)
where
  packLanes' (w : Nat) (f : Nat → Nat × Nat) : List Nat → Nat × Nat
    | [] => (0, 0)
    | i :: is =>
      let (v, fl) := f i
      let (r, g) := packLanes' w f is
      (v % 2 ^ w + 2 ^ w * r, fl ||| g)

/-- dequant (R280): a scale of 255 or a NaN element gives the canonical NaN with NV. -/
def dequantUnit (par : Nat) (r : Rsh) (idx : Nat) (src : List Byte) : List Byte × Nat :=
  let st := fieldOf par 3 0; let dt := fieldOf par 7 4
  let mode := effMode (fieldOf par 10 8) r.sw
  let w := Num.widthOf st
  let f := Num.fmtOf dt
  packElems 16 64 fun i =>
    let s := (src.getD (8 * w + i / 8) 0#8).toNat
    let v := (Num.fmtOf st).val (elemOf w (src.take (8 * w)) i)
    if s = 255 ∨ v = .nan then (f.nan, Num.nv)
    else Num.toFmt f mode (Num.rshHash r.seed.toNat (idx + i) r.counter.toNat) (fieldOf par 11 11 == 1) (Num.scaled v s)

/-- cast (R280). -/
def castUnit (par : Nat) (r : Rsh) (idx : Nat) (src : List Byte) : List Byte × Nat :=
  let st := fieldOf par 3 0; let dt := fieldOf par 7 4
  let mode := effMode (fieldOf par 10 8) r.sw
  let n := if st = 14 ∨ dt = 14 then 2 else 1
  packElems (Num.widthOf dt) n fun i =>
    Num.convert st dt mode (Num.rshHash r.seed.toNat (idx + i) r.counter.toNat) (fieldOf par 11 11 == 1)
      (elemOf (Num.widthOf st) src i)

/-- tr8 (R280). -/
def tr8Unit (src : List Byte) : List Byte :=
  (upFrom 0 64).flatMap fun k => (src.drop (2 * (8 * (k % 8) + k / 8))).take 2

/-- addland (R280, R281): the element that lands is added to the one that stands there. DEDUCED (log 82). -/
def addUnit (par : Nat) (r : Rsh) (idx : Nat) (src old : List Byte) : List Byte × Nat :=
  let ty := fieldOf par 3 0
  let mode := effMode (fieldOf par 6 4) r.sw
  let f := Num.fmtOf ty
  packElems (Num.widthOf ty) 1 fun i =>
    f.deliver mode (Num.rshHash r.seed.toNat (idx + i) r.counter.toNat) false
      (Num.addVal mode (f.val (leNat old)) (f.val (leNat src)))

/-- One unit of a transform of fixed unit size; `u` is the unit's number in the destination. -/
def unitXf (xf par : Nat) (r : Rsh) (u : Nat) (src old : List Byte) : List Byte × Nat :=
  match xf with
  | 3 => dequantUnit par r (64 * u) src
  | 4 => castUnit par r ((if fieldOf par 3 0 = 14 ∨ fieldOf par 7 4 = 14 then 2 else 1) * u) src
  | 5 => (tr8Unit src, 0)
  | 6 => addUnit par r u src old
  | _ => (src, 0)

/-! ## Coded records (R282–R285) -/

/-- A record at the head of a byte list: header, payload, whole size with its pad; none where it is malformed or cut short. -/
def parseRec (b : List Byte) : Option (Nat × List Byte × Nat) :=
  let h := leNat (b.take 4)
  let size := (4 + recLen h + 7) / 8 * 8
  if b.length < 4 || recBad h || b.length < size then none else some (h, (b.drop 4).take (recLen h), size)

/-- The records that fill a byte list exactly; none where one is malformed. -/
def parseAll : Nat → List Byte → Option (List (Nat × List Byte))
  | 0, b => if b.isEmpty then some [] else none
  | n + 1, b =>
    if b.isEmpty then some []
    else
      match parseRec b with
      | some (h, p, k) => (parseAll n (b.drop k)).map fun l => (h, p) :: l
      | none => none

/-- Indices of a block's halves in the first n entries of a table; none where a half is not found. -/
def indicesIn (t : List Nat) (n : Nat) (b : List Byte) : Option (List Nat) :=
  (upFrom 0 128).foldr (fun i o => o.bind fun l => ((upFrom 0 n).find? fun j => t.getD j 0 == halfAt b i).map (· :: l)) (some [])

/-- Encode (R285): header and payload of a block. `t` is the table of slot `slot`, with generation `gen`. -/
def encodeBlock (te : Bool) (slot gen : Nat) (t : List Nat) (b : List Byte) : Nat × List Byte :=
  let hdr (mode len : Nat) := mode + len * 2 ^ 11
  let thdr (mode len : Nat) := mode + slot * 8 + gen * 2 ^ 7 + len * 2 ^ 11
  let h0 := halfAt b 0
  let w (j : Nat) := leNat ((b.drop (4 * j)).take 4)
  let d8 (i : Nat) := signedOf 16 (truncTo 16 ((halfAt b i : Int) - h0))
  let d16 (j : Nat) := signedOf 32 (truncTo 32 ((w j : Int) - w 0))
  let tab4 := if te then indicesIn t 16 b else none
  let tab8 := if te then indicesIn t 256 b else none
  if b.all (· == 0#8) then (hdr 0 0, [])
  else if (upFrom 0 128).all fun i => halfAt b i == h0 then (hdr 1 2, leBytes 2 h0)
  else
    match tab4 with
    | some l => (thdr 4 64, (upFrom 0 64).map fun j => BitVec.ofNat 8 (l.getD (2 * j) 0 + 16 * l.getD (2 * j + 1) 0))
    | none =>
      match tab8 with
      | some l => (thdr 5 128, l.map (BitVec.ofNat 8))
      | none =>
        if (upFrom 0 128).all fun i => decide (-128 ≤ d8 i) && decide (d8 i ≤ 127) then
          (hdr 2 130, leBytes 2 h0 ++ (upFrom 0 128).flatMap fun i => leBytes 1 (truncTo 8 (d8 i)))
        else if (upFrom 0 64).all fun j => decide (-32768 ≤ d16 j) && decide (d16 j ≤ 32767) then
          (hdr 3 132, leBytes 4 (w 0) ++ (upFrom 0 64).flatMap fun j => leBytes 2 (truncTo 16 (d16 j)))
        else (hdr 6 256, b)

/-- The bytes of a record, with its pad (R282). DESIGN CHOICE (log 16). -/
def recBytes (time place : Nat) (h : Nat) (p : List Byte) : List Byte :=
  leBytes 4 h ++ p ++ (upFrom 0 ((8 - (4 + p.length) % 8) % 8)).map fun i => Config.padByte time (place + i)

/-! ## A landing as a whole (R308) -/

/-- The result of a SENDX's payload with the tables of group g: the bytes that land, or the cause of refusal. -/
def landing (g : Group) (xf par : Nat) (r : Rsh) (src : List Byte) (old : Nat → Nat → List Byte) : Except Cause (List Byte) :=
  if xf = 1 then
    match parseAll src.length src with
    | none => .error .badopnd
    | some l =>
      if l.any fun x => g.stale x.1 then .error .staletbl
      else .ok (l.flatMap fun x => decodeBlock x.1 x.2 (g.table (recSlot x.1)))
  else
    match unitOf xf par with
    | some (s, d) =>
      .ok ((upFrom 0 (src.length / s)).flatMap fun u => (unitXf xf par r u ((src.drop (s * u)).take s) (old (d * u) d)).1)
    | none => .error .badopnd

end Sys2Proof.Machine
end

