-- ==== Sys2Proof/Machine/Message.lean ====
section
/-!
DEFINITION. Messages, handles and handlers (R302–R310, R432–R434, R445, R471), and the arrivals of messages, wake-ups and
migrations (R42, R60, R66, R304–R308).
-/
namespace Sys2Proof.Machine

/-! ## Sending -/

/-- The payload of a message: aligned, in LOCAL, read as local loads (R303). The handle is checked between (R81). -/
def payloadOf (c : Word) (len : Nat) (between : Run Unit) : Run (List Byte) := do
  let a := c.toNat
  Run.stopIf (a % 8 ≠ 0) .misalign a
  between
  Run.stopIf (decide (2 ^ 19 < a + len)) .page a
  let s ← get
  Run.lift (lmLoad s.cid s.cid a len s.super a)

/-- What every packet of the issuing activation carries (R295). -/
def headerOf (s : State) (h : Word) (payload : List Byte) : Packet :=
  let m := s.m
  let mod := bits h 31 16
  let d := if mod = m.modnum.toNat then (m.coreOfVcn (siteOf s.cid) (bits h 15 0)).getD 0
    else 128 * (m.tvxSite mod).getD (siteOf s.cid)
  { kind := .message, dsite := siteOf d, dl := logOf d, ssite := siteOf s.cid, sl := logOf s.cid, pkey := s.core.spec.pk
    svcn := m.vcn s.cid, dvcn := bits h 15 0, gen := bits h 47 32, dmod := mod, smod := m.modnum.toNat, len := payload.length
    seed := s.core.spec.seed, sw := s.sw, entry := leNat (payload.take 8) % 2 ^ 19, payload := payload, aid := s.aid
    actKey := s.key, here := siteOf s.cid }

/-- A unicast message, into a free reply slot (R301). -/
def sendMessage (p : Packet) : Run Unit := do
  releases
  let s ← get
  match s.m.freeReply s.cid with
  | none => Run.stall
  | some k => do
    let (q, m) := s.m.takeSeq s.cid
    let p := { p with seq := q, slot := k }
    Run.onM fun _ =>
      (m.onCore s.cid fun c => { c with ni := { c.ni with slots := Tab.put c.ni.slots k ⟨p, m.time, .none_⟩ } }).post p
    noteWrite

/-- The check of R24 on a handle. -/
def checkHandle (h : Word) : Run Unit := do
  let s ← get
  Run.stopIf (!s.m.handleOk (siteOf s.cid) h) .badhandle h.toNat

/-- SEND (R302, R303, R471). -/
def execSend (f : SendF) (s : State) : Out :=
  run (do
    let l ← operands [⟨f.b, f.kb, .addr⟩, ⟨f.c, f.kc, .addr⟩] none
    let p ← payloadOf (arg l 1) f.len.toNat (checkHandle (arg l 0))
    sendMessage { headerOf (← get) (arg l 0) p with ord := f.ord }) s

/-- XF and PAR keep R279, and LEN − 8 is a whole number of source units (R471). -/
def sendxOk (xf par len : Nat) : Bool :=
  match unitOf xf par with
  | some (u, _) => (len - 8) % u == 0
  | none => false

/-- SENDX (R302, R303, R308, R471): it takes RSHC where its transform rounds under RSH. -/
def execSendx (f : SendxF) (s : State) : Out :=
  run (do
    Run.stopIf (!sendxOk f.xf.toNat f.par.toNat f.len.toNat) .illop
    let l ← operands [⟨f.b, f.kb, .addr⟩, ⟨f.c, f.kc, .addr⟩] none
    let p ← payloadOf (arg l 1) f.len.toNat (checkHandle (arg l 0))
    let h := headerOf (← get) (arg l 0) p
    let _ ← takeCounter (xfRsh f.xf.toNat f.par.toNat h.sw)
    sendMessage { h with ord := f.ord, opc := 1, xf := f.xf.toNat, par := f.par.toNat }) s

/-- A destination set in the layout of R309. -/
def mcastOk (b : Word) : Bool :=
  bits b 63 27 == 0 && bits b 4 0 ≤ bits b 14 10 && bits b 14 10 ≤ 17 && bits b 9 5 ≤ bits b 19 15 && bits b 19 15 ≤ 17

/-- The destinations of a set: the partition's sites in the rectangle whose core is not vacant (R309, R445). -/
def Module.mcastSet (m : Module) (cid : Nat) (b : Word) : List Nat :=
  ((upFrom 0 324).filter fun t =>
    bits b 4 0 ≤ siteX t && siteX t ≤ bits b 14 10 && bits b 9 5 ≤ siteY t && siteY t ≤ bits b 19 15
      && (m.partOf (siteOf cid)).sites.contains t && !m.vacant (128 * t + bits b 26 20)).map fun t => 128 * t + bits b 26 20

/-- MCAST (R309, R310, R445): one packet, which branches at the routers. The ILLOP of its set comes before a fault of C (R81). -/
def execMcast (f : SendF) (s : State) : Out :=
  run (do
    Run.stopIf ((← peek ⟨f.b, f.kb, .addr⟩).any fun b => !mcastOk b) .illop
    let l ← operands [⟨f.b, f.kb, .addr⟩, ⟨f.c, f.kc, .addr⟩] none
    let b := arg l 0
    Run.stopIf (!mcastOk b) .illop
    let ds := (← get).m.mcastSet (← get).cid b
    let p ← payloadOf (arg l 1) f.len.toNat (Run.stopIf ds.isEmpty .noroute b.toNat)
    releases
    let s ← get
    Run.stallIf (4 ≤ s.core.ni.mrecs.length)
    let (q, m) := s.m.takeSeq s.cid
    let m := m.post
      { headerOf s 0 p with
        gen := (m.site (siteOf s.cid)).epoch, dmod := m.modnum.toNat, ord := f.ord, mc := true, seq := q, dests := ds }
    Run.onM fun _ => m.onCore s.cid fun c =>
      { c with ni := { c.ni with mrecs := c.ni.mrecs ++ [⟨q.toNat, s.aid, f.ord, ds⟩] } }
    noteWrite) s

/-! ## Handles (R432–R434) -/

/-- HSELF. -/
def execHself (f : Dest) (s : State) : Out :=
  run (do
    let _ ← operands [] (some (.reg, f.a))
    let s ← get
    writeDst f.a (s.m.selfHandle s.cid)) s

/-- The handle that a shape gives for a position; 0 where it gives none (R434). -/
def Module.shapeHandle (m : Module) (cid : Nat) (lo hi p : Word) : Word :=
  let kind := bits lo 1 0
  let dx : Int := bits lo 47 32; let dy : Int := bits lo 63 48
  let i0 := signedOf 32 (bits p 31 0); let j0 := signedOf 32 (bits p 63 32)
  if !bit lo 15 || dx = 0 || dy = 0 || (kind ≤ 1 && dy ≠ 1) then 0
  else
    let wrap := kind = 1 || kind = 3
    let i := if wrap then i0 % dx else i0
    let j := if wrap then j0 % dy else j0
    if i < 0 || dx ≤ i || j < 0 || dy ≤ j then 0
    else
      let v := (bits lo 31 16 : Int) + i * signedOf 16 (bits hi 15 0) + j * signedOf 16 (bits hi 31 16)
      if v < 0 || (128 * m.nOf (siteOf cid) : Nat) ≤ v then 0
      else if (m.coreOfVcn (siteOf cid) v.toNat).isNone then 0
      else mkHandle v.toNat m.modnum.toNat (m.site (siteOf cid)).epoch

/-- HQRY (R434): the BADOPND of C comes before a dead B (R81). -/
def execHqry (f : Bin) (s : State) : Out :=
  run (do
    Run.stopIf ((← peekReg ⟨f.c, f.kc, .addr⟩).any fun k => bits k 63 4 ≠ 0) .badopnd
    let l ← operands [⟨f.b, f.kb, .addr⟩, ⟨f.c, f.kc, .addr⟩] (some (.reg, f.a))
    let k := arg l 1
    Run.stopIf (bits k 63 4 ≠ 0) .badopnd
    let s ← get
    let (lo, hi) := Tab.get (0, 0) (s.m.site (siteOf s.cid)).shapes (bits k 3 0)
    writeDst f.a (s.m.shapeHandle s.cid lo hi (arg l 0))) s

/-! ## Arrival of messages (R304–R307) -/

/-- LM offset of the handler-table word of a message; none in direct mode (R305). -/
def Module.handlerWord (m : Module) (p : Packet) : Option Nat :=
  if bit (m.core p.dst).spec.hbnd 38 then some (0x7FA40 + 8 * (p.entry % 64)) else none
/-- What the NI's read of the table does: its bank becomes FULL (R85, R86), and its errors are found (R90). -/
def Module.handlerRead (m : Module) (p : Packet) : Module :=
  match m.handlerWord p with
  | some off => (m.touched p.dst off 8).inspect (m.lmAt p.dst off) 8
  | none => m
/-- The handler address of a message under the registers now in force, or the cause that diverts it (R305): BADTGT, and for a table
that cannot be read DEADBANK or UNCORR (R85, R90). DEDUCED (log 152). -/
def Module.handlerAt (m : Module) (p : Packet) : Except Cause Word :=
  let b := (m.core p.dst).spec.hbnd
  match m.handlerWord p with
  | some off =>
    match m.touchLm p.dst off 8 with
    | .off => .error .deadbank
    | .failed => .error .uncorr
    | _ =>
      let e := BitVec.ofNat 64 (m.lmNat p.dst off 8)
      if m.bad (m.lmAt p.dst off) 8 then .error .uncorr
      else if bit e 63 && bits e 62 19 == 0 then .ok (BitVec.ofNat 64 (bits e 18 0)) else .error .badtgt
  | none =>
    let w0 := leNat (p.payload.take 8)
    if w0 / 2 ^ 19 = 0 && w0 % 2 = 0 && decide (bits b 18 0 ≤ w0) && decide (w0 ≤ bits b 37 19) then .ok (BitVec.ofNat 64 w0)
    else .error .badtgt

/-- An arriving SEND or copy: diverted, queued or refused. A copy resent to a core that has become vacant is answered NOROUTE, and
recorded at its sender (R299, R465). -/
def Module.takeMessage (m : Module) (k : Nat) (p : Packet) : Module :=
  if p.mc && p.resend && m.vacant p.dst then (m.dropPkt k).lostCopies p [p.dst]
  else if !m.handleHolds p then (m.ackPkt k p).staleArrival p
  else if !m.keyHolds p then (m.ackPkt k p).containPkt p.dst p .pkey
  else if !bit (m.core p.dst).spec.hbnd 39 then m.refusePkt k p
  else
  let cause := m.handlerAt p
  let m := m.handlerRead p
  match cause with
  | .error c => (m.ackPkt k p).containPkt p.dst p c
  | .ok _ =>
  if 8 ≤ (m.core p.dst).ni.hq.length then m.refusePkt k p
  else
    let m := (m.ackPkt k p).setLat p
    m.onCore p.dst fun c => { c with ni := { c.ni with hq := c.ni.hq ++ [p] } }

/-- ACTIVE_MESSAGE. DEDUCED (log 93). -/
def execActiveMessage (p : Nat) (s : State) : Out :=
  event (fun m => (m.arrives p .message).bind fun x => if x.mc || x.opc = 1 then none else some (m.takeMessage p x)) s
/-- MULTICAST_COPY (R310). -/
def execMulticastCopy (p : Nat) (s : State) : Out :=
  event (fun m => (m.arrives p .message).bind fun x => if x.mc then some (m.takeMessage p x) else none) s

/-- The sender's handle as g8 of a handler (R26, R42). DEDUCED (log 94). -/
def Module.senderHandle (m : Module) (p : Packet) : Word :=
  if p.opc = 2 then 0 else mkHandle p.svcn p.smod (if m.ownPkt p then (m.site p.ssite).epoch else p.gen)

/-- A queued message becomes a handler (R42, R307). DEDUCED (log 94). -/
def Module.startHandler (m : Module) (cid : Nat) : Option Module :=
  let c := m.core cid
  match c.ni.hq with
  | [] => none
  | p :: rest =>
    let popped := m.onCore cid fun c => { c with ni := { c.ni with hq := rest } }
    match m.handlerAt p with
    | .error c => if (m.freeSlot cid true).isNone then none else some ((popped.handlerRead p).containPkt cid p c)
    | .ok pc =>
      match m.freeSlot cid true with
      | none => none
      | some k =>
        let box := if k + 2 = c.desc.wsn then 0x7F840 else 0x7F940
        let long := decide (64 < p.len)
        let m := popped.handlerRead p
        let m := if long then m.putWord cid box p.payload else m
        let w (i : Nat) : Word := BitVec.ofNat 64 (leNat ((p.payload.drop (8 * i)).take 8))
        let g := if long then BitVec.ofNat 64 box :: List.replicate 7 0 else (upFrom 0 8).map w
        some (m.birth cid k (c.desc.wp k)
          { pc := pc, sw := p.sw &&& 0x0000FFFFFFFF0070#64, path := 0, cls := 2, dom := 1, hnd := true
            budget := c.spec.budget, g := g ++ [m.senderHandle p, BitVec.ofNat 64 p.len] })

/-- HANDLER_CREATION. -/
def execHandlerCreation (cid : Nat) (s : State) : Out := event (fun m => if m.mayStart cid then m.startHandler cid else none) s

/-! ## SENDX landings (R308) -/

/-- The NI as the agent of a landing: never the target core itself. -/
def niAgent : Nat := 2 ^ 20

/-- The landing of a SENDX: its bytes and place, or the cause that diverts it; none while a bank wakes.
DEDUCED (log 51); DEDUCED (log 82). -/
def Module.landingOf (m : Module) (p : Packet) : Option (Except Cause (Nat × List Byte)) :=
  let w0 := leNat (p.payload.take 8)
  if 2 ^ 19 ≤ w0 then some (.error .page)
  else if w0 % 8 ≠ 0 then some (.error .misalign)
  else
    match landing (m.group (groupOf p.dst)) p.xf p.par ⟨p.seed, swRshc p.sw, p.sw⟩ (p.payload.drop 8)
        (fun o n => m.lmRead p.dst (w0 + o) n) with
    | .error c => some (.error c)
    | .ok bs =>
      if 2 ^ 19 < w0 + bs.length then some (.error .page)
      else if bs.isEmpty then some (.ok (w0, bs))
      else
        match lmCheck niAgent p.dst w0 bs.length (if p.xf = 6 then .rmw else .write) (swMode p.sw) w0 m with
        | .ok _ => some (.ok (w0, bs))
        | .error (.fault f) => some (.error f.cause)
        | .error _ => none

/-- SENDX_LANDING. DEDUCED (log 24). -/
def execSendxLanding (p : Nat) (s : State) : Out :=
  event (fun m => (m.arrives p .message).bind fun x =>
    if x.mc || x.opc ≠ 1 then none
    else if !m.handleHolds x then some ((m.ackPkt p x).staleArrival x)
    else if !m.keyHolds x then some ((m.ackPkt p x).containPkt x.dst x .pkey)
    else if !bit (m.core x.dst).spec.hbnd 39 then some (m.refusePkt p x)
    else (m.landingOf x).map fun r =>
      match r with
      | .error c => (m.ackPkt p x).containPkt x.dst x c (BitVec.ofNat 64 (leNat (x.payload.take 8)))
      | .ok (o, bs) => (((m.ackPkt p x).setLat x).touched x.dst o bs.length).lmStore x.dst o bs) s

/-! ## Wake-ups (R42, R66) -/

/-- The task record of a wake-up. -/
def wakeRec (p : Packet) : TaskRec :=
  { pc := BitVec.ofNat 64 p.entry, rm := swRm p.sw, rshc := swRshc p.sw
    g := (upFrom 0 4).map fun i => BitVec.ofNat 64 (leNat ((p.payload.drop (8 * i)).take 8)) }

/-- The deque takes a wake-up now. DEDUCED (log 73). -/
def Module.wakeRoom (m : Module) (cid : Nat) : Bool := (m.core cid).poolOk && decide ((m.core cid).desc.n < 64) && m.dqOk cid && m.dqFree cid

/-- WAKE_UP_ARRIVAL. DEDUCED (log 73). -/
def execWakeUpArrival (p : Nat) (s : State) : Out :=
  event (fun m => (m.arrives p .wakeup).map fun x =>
    let m := m.ackPkt p x
    if !m.handleHolds x then m.staleArrival x
    else if !m.keyHolds x then m.containPkt x.dst x .pkey
    else
      let m := m.setLat x
      if m.wakeRoom x.dst && (m.core x.dst).ni.held.isEmpty then m.dqPush x.dst (wakeRec x)
      else m.onCore x.dst fun c => { c with ni := { c.ni with held := c.ni.held ++ [x] } }) s

/-- WAKE_UP_HELD_PUSH. -/
def execWakeUpHeldPush (cid : Nat) (s : State) : Out :=
  event (fun m =>
    match (m.core cid).ni.held with
    | x :: rest =>
      if m.wakeRoom cid then
        some ((m.onCore cid fun c => { c with ni := { c.ni with held := rest } }).dqPush cid (wakeRec x))
      else none
    | [] => none) s

/-! ## Migrations (R59, R60) -/

/-- The birth that a migration payload gives. -/
def migBirth (b : List Byte) : Birth :=
  let x := leNat b
  { pc := BitVec.ofNat 64 (fieldOf x 703 640), sw := BitVec.ofNat 64 (fieldOf x 767 704), path := 2, cls := 3
    dom := fieldOf x 876 874, joina := BitVec.ofNat 64 (fieldOf x 831 768), budget := BitVec.ofNat 32 (fieldOf x 863 832)
    g := (upFrom 0 10).map fun k => BitVec.ofNat 64 (fieldOf x (64 * k + 63) (64 * k)), live := fieldOf x 873 864
    aid := some (fieldOf x 895 880, fieldOf x 927 896) }

/-- A fault reply to a migration; where it is lost, the slot's timer ends the migration (R299). DEDUCED (log 96). -/
def Module.migRefused (m : Module) (p : Packet) (c : Cause) : Module :=
  if m.pathOk p.dsite p.ssite then m.migFault p c else m

/-- MIGRATION_PACKET. A MIGR under SS = 1 has completed, so its STEP is due when the activation enters a context (R360). -/
def execMigrationPacket (p : Nat) (s : State) : Out :=
  event (fun m => (m.arrives p .migration).map fun x =>
    if !m.handleHolds x then ((m.dropPkt p).staleArrival x).migRefused x .badhandle
    else if !m.keyHolds x then ((m.dropPkt p).containPkt x.dst x .pkey).migRefused x .pkey
    else
      match m.create x.dst (migBirth x.payload) with
      | none => m.refusePkt p x
      | some (k, m) =>
        let m := (m.setLat x).onAct x.dst k fun a => { a with stepAt := if swSs (migBirth x.payload).sw then some x.va else none }
        if m.pathOk x.dsite x.ssite then (m.ackPkt p x).release x.src x.actKey else m.ackPkt p x) s

end Sys2Proof.Machine
end

