-- ==== Sys2Proof/Machine/Engine.lean ====
section
/-!
DEFINITION. What the two engines of a tile share (R87, R88, R234, R236, R240, R241, R248): the push of a command, its end, and
its late fault.
-/
namespace Sys2Proof.Machine

/-- What a command takes from its issuer at commit (R87, R94, R148, R236): its job, its ring entry, the counter where it rounds
under RSH. `rm` is its rounding field. DEDUCED (log 130). -/
def pushIssuer (i : Instr) (cp : Bool) (sig : EngSig) (a : Opnd) (rm : Option Nat) (pc : Word) : Run Issuer := do
  releases
  let s ← get
  let w := s.win
  let mode := rm.elim 0 fun r => effMode r s.sw
  let rshc ← takeCounter (rm.isSome && mode = 4)
  let t ← get
  let job := if cp then t.core.jobCp.next else t.core.jobMx.next
  let head := ((encode i).map (·.head)).getD 0
  match t.m.cprPush s.cid s.ctx head job pc w.ctl with
  | none => Run.stall
  | some (seq, m) => do
    Run.onM fun _ => m.onCore s.cid fun c => if cp then { c with jobCp := c.jobCp.push } else { c with jobMx := c.jobMx.push }
    writeDst a (BitVec.ofNat 64 job)
    return { cid := s.cid, key := s.key, aid := s.aid, ctx := s.ctx, seq := seq, job := job, pc := pc, super := s.super
             pk := s.core.spec.pk, seed := s.core.spec.seed, sw := s.sw, rshc := rshc, rm := mode, sig := sig }

/-- The cores and slots of the partition of core `by_` that hold the activation of an identity; VCNs and serials are a partition's own
(R17, R36). -/
def Module.whereIs (m : Module) (by_ aid : Nat) : List (Nat × Nat) :=
  (m.cores.filter fun e => (m.site (siteOf e.1)).part == (m.site (siteOf by_)).part).flatMap fun e =>
    (e.2.acts.filter fun a => (m.ctlOf e.1 a.1).aid == aid).map fun a => (e.1, a.1)
/-- A migration packet of the activation carries the flags on (R59). -/
def Packet.orFlags (p : Packet) (aid fl : Nat) : Packet :=
  if p.kind == .migration && p.aid == aid then
    { p with payload := setAt p.payload 89 ((p.payload.getD 89 0#8) ||| BitVec.ofNat 8 (fl % 32)) }
  else p
/-- Flags that a cycle has ORed so far. -/
def Win.noteFlags (w : Win) (time fl : Nat) : Win := { w with orNow := (time, if w.orNow.1 = time then w.orNow.2 ||| fl else fl) }
/-- Flags ORed into the status word of the activation that issued a command from core `by_`, wherever it is (R157). -/
def Module.orFlagsOf (m : Module) (by_ aid fl : Nat) : Module :=
  if fl = 0 then m
  else
    let m := (m.whereIs by_ aid).foldl
      (fun m p => (m.setCtl p.1 p.2 { m.ctlOf p.1 p.2 with sw := swOr (m.ctlOf p.1 p.2).sw fl }).onAct p.1 p.2 fun a =>
        { a with win := a.win.map fun w => w.noteFlags m.time fl }) m
    { m with pkts := m.pkts.map fun e =>
        (e.1, if (m.site e.2.ssite).part == (m.site (siteOf by_)).part then e.2.orFlags aid fl else e.2) }

/-- The wait of a command's semaphore is over (R234). -/
def Module.sigReady (m : Module) (tile : Nat) (g : EngSig) : Bool :=
  g.wthr = 0#12 || (m.semFinal tile g.wsem.toNat && decide (g.wthr.toNat ≤ ((m.tile tile).sem g.wsem.toNat).toNat))

/-- A command completes: its flags, ring entry, semaphore signal and job state (R87, R157, R234, R236). -/
def Module.engineDone (m : Module) (cp : Bool) (b : Issuer) (fl : Nat) : Module :=
  let m := (m.orFlagsOf b.cid b.aid fl).cprMark b.cid b.ctx b.seq 0
  let m := if b.sig.sinc = 0#8 then m else m.semAdd (tileOf b.cid) b.sig.ssem.toNat b.sig.sinc.toNat
  m.setJob b.cid cp b.job .complete

/-- A command ends FAULTED without a fault of its own: cancelled (R248). DEDUCED (log 40). -/
def Module.engineCancel (m : Module) (cp : Bool) (b : Issuer) : Module :=
  (m.cprMark b.cid b.ctx b.seq 2).setJob b.cid cp b.job .faulted

/-- A late fault of a command in queue q (R88, R248, R263, R274): every command of the queue is cancelled, and every one pushed to it
until the delivery. DEDUCED (log 23). -/
def Module.engineLate (m : Module) (cp : Bool) (q : Nat) (b : Issuer) (c : Cause) (addr : Word) : Module :=
  let m := m.engineCancel cp b
  let m := m.onTile (tileOf b.cid) fun t =>
    if cp then
      { t with cpcancel := q :: t.cpcancel, cpq := Tab.put t.cpq q ((Tab.get [] t.cpq q).map fun c => { c with cancel := true }) }
    else
      { t with mxcancel := q :: t.mxcancel, mxq := Tab.put t.mxq q ((Tab.get [] t.mxq q).map fun c => { c with cancel := true }) }
  m.lateFor b.cid b.key b.aid ⟨b.seq, c, b.job, b.pc, addr, some (cp, q)⟩

/-- A wake-up sent by a command (R42, R295): the entry, g0 and g1; its number in the network. -/
def Module.sendWake (m : Module) (b : Issuer) (to_ entry : Nat) (g0 g1 : Word) : Nat × Module :=
  let k := m.nextPkt
  let pl := leBytes 8 g0.toNat ++ leBytes 8 g1.toNat ++ leBytes 8 b.job ++ leBytes 8 (m.selfHandle b.cid).toNat
  (k, m.postSeq b.cid
    { kind := .wakeup, dsite := siteOf to_, dl := logOf to_, ssite := siteOf b.cid, sl := logOf b.cid, pkey := b.pk
      svcn := m.vcn b.cid, dvcn := m.vcn to_, gen := (m.site (siteOf b.cid)).epoch, dmod := m.modnum.toNat
      smod := m.modnum.toNat, len := 32, seed := b.seed
      sw := setBits b.sw 47 16 ((b.rshc.toNat + (b.rm == 4).toNat) % 2 ^ 32), entry := entry, payload := pl, aid := b.aid
      here := siteOf b.cid })

/-- A wake-up that its receiver has accepted: neither on its way nor held at the NI (R66, R450). -/
def Module.wakeTaken (m : Module) (k to_ : Nat) (b : Issuer) : Bool :=
  (m.pkt k).isNone && !(m.core to_).ni.held.any fun p => p.src == b.cid && p.aid == b.aid &&
    leNat ((p.payload.drop 16).take 8) == b.job

end Sys2Proof.Machine
end

