-- ==== Sys2Proof/Machine/Matrix.lean ====
section
/-!
DEFINITION. The matrix unit (R155–R157, R239–R265, R449–R454): commands at commit, the latches, gangs, native steps and their
arbitration, drains, late faults.
-/
namespace Sys2Proof.Machine

/-! ## Element types (R244, R254, R255) -/

def mxType (t : Nat) : Bool := t == 0 || t == 4 || (10 ≤ t && t ≤ 14)
/-- The SC rule of R244. -/
def mxScaleOk (t : Nat) (sc : Bool) : Bool := if t = 14 then sc else if t = 12 || t = 13 then true else !sc
/-- A and B of one class (R254). -/
def mxClass (t : Nat) : Nat := if t = 0 || t = 4 then 1 else if t = 12 || t = 13 then 2 else t
/-- NK (R255). -/
def mxNk (t : Nat) : Nat := if t = 10 || t = 11 then 128 else if t = 14 then 512 else 256

/-! ## Descriptors (R242–R245) -/

/-- A source descriptor. -/
structure MxSrc where
  off : Nat
  g : Bool
  pitch : Nat
  deriving DecidableEq, Repr
def mxSrc (p : Word) : MxSrc := ⟨bits p 22 0, bit p 23, bits p 36 24⟩
def mxSrcOk (p : Word) : Bool :=
  let s := mxSrc p
  s.off % 8 == 0 && s.pitch % 8 == 0 && bits p 63 37 == 0 && (s.g || decide (s.off < 2 ^ 19))

/-- A region in blocks. -/
structure MxReg where
  row : Nat
  nrow : Nat
  col : Nat
  ncol : Nat
  deriving DecidableEq, Repr
def mxReg (q : Word) : MxReg := ⟨bits q 2 0, bits q 5 3, bits q 9 6, bits q 13 10⟩
def mxRegOk (q : Word) : Bool :=
  let r := mxReg q
  1 ≤ r.nrow && r.row + r.nrow ≤ 6 && 1 ≤ r.ncol && r.col + r.ncol ≤ 12

/-- A latch shape: type, K, NB, scaled, scale offset. -/
structure MxShape where
  ty : Nat
  k : Nat
  nb : Nat
  sc : Bool
  soff : Nat
  deriving DecidableEq, Repr
def mxShape (q : Word) : MxShape := ⟨bits q 3 0, bits q 14 4, bits q 16 15, bit q 17, bits q 40 18⟩
/-- Bytes of a latch image (R244). -/
def MxShape.image (s : MxShape) : Nat := s.k * (32 * s.nb) * Num.widthOf s.ty / 8 + (if s.sc then s.k * (32 * s.nb) / 8 else 0)
def mxShapeOk (q : Word) : Bool :=
  let s := mxShape q
  mxType s.ty && mxScaleOk s.ty s.sc && 8 ≤ s.k && s.k ≤ 1024 && s.k % 8 == 0 && 1 ≤ s.nb && bits q 63 41 == 0
    && s.image ≤ 24576

/-- MXMMA control: type, scaled, scale offset, ACC0. -/
structure MxCtl where
  ty : Nat
  sc : Bool
  soff : Nat
  acc0 : Bool
  deriving DecidableEq, Repr
def mxCtl (q : Word) : MxCtl := ⟨bits q 17 14, bit q 18, bits q 41 19, bit q 42⟩
def mxCtlOk (q : Word) : Bool :=
  let c := mxCtl q
  mxRegOk q && mxType c.ty && mxScaleOk c.ty c.sc && bits q 63 43 == 0

/-- Drain destination and control. -/
structure MxDst where
  off : Nat
  pitch : Nat
  went : Nat
  wk : Bool
  oty : Nat
  rnd : Nat
  sat : Bool
  int : Bool
  clr : Bool
  scope : Nat
  deriving DecidableEq, Repr
def mxDst (p q : Word) : MxDst :=
  ⟨bits p 18 0, bits p 31 19, bits p 50 32, bit p 51, bits q 17 14, bits q 20 18, bit q 21, bit q 22, bit q 23, bits q 27 24⟩
/-- Output element size in bytes. -/
def MxDst.w (d : MxDst) : Nat := Num.widthOf d.oty / 8
def mxDrnOk (p q : Word) : Bool :=
  let d := mxDst p q
  let r := mxReg q
  mxRegOk q && bits p 63 52 == 0 && bits q 63 28 == 0 && d.off % 8 == 0 && d.pitch % 8 == 0 && 8 ≤ d.pitch && d.went % 2 == 0
    && 2 ≤ d.scope && d.scope ≤ 6
    && (if d.int then d.oty ≤ 2 && d.rnd == 0 else 9 ≤ d.oty && d.oty ≤ 13 && (d.rnd ≤ 4 || d.rnd == 7))
    && 32 * r.ncol * d.w ≤ d.pitch && d.off + 32 * r.nrow * d.pitch + 8 ≤ 2 ^ 19

/-! ## Commands at commit (R241, R449) -/

/-- A command of the issuer's queue, pushed behind those that wait. -/
def mxPush (i : Instr) (op : MxOp) (sig : EngSig) (a : Opnd) (rm : Option Nat) (p q h : Word) (pc : Word) : Run After := do
  let s ← get
  let t := tileOf s.cid
  let k := slotOf s.cid
  Run.stallIf (16 ≤ (Tab.get [] (s.m.tile t).mxq k).length)
  let b ← pushIssuer i false sig a rm pc
  Run.onM fun m => m.onTile t fun x =>
    let c : MxCmd := { op := op, p := p, q := q, h := h, by_ := b, ready := m.time + 4, cancel := x.mxcancel.contains k }
    { x with mxq := Tab.put x.mxq k (Tab.get [] x.mxq k ++ [c]) }
  return .step b.seq b.job

/-- MXLD (R452). -/
def execMxld (f : MxPQ) (s : State) : Out :=
  runInstr false (fun pc => do
    let l ← operands [⟨f.p, f.kp, .addr⟩, ⟨f.q, f.kq, .addr⟩] (some (.reg, f.a))
    Run.stopIf (!(mxSrcOk (arg l 0) && mxShapeOk (arg l 1))) .illop
    mxPush (.mxld f) .ld f.sig f.a none (arg l 0) (arg l 1) 0 pc) s

/-- MXMMA (R453). -/
def execMxmma (f : MxPQ) (s : State) : Out :=
  runInstr false (fun pc => do
    let l ← operands [⟨f.p, f.kp, .addr⟩, ⟨f.q, f.kq, .addr⟩] (some (.reg, f.a))
    Run.stopIf (!(mxSrcOk (arg l 0) && mxCtlOk (arg l 1))) .illop
    mxPush (.mxmma f) .mma f.sig f.a none (arg l 0) (arg l 1) 0 pc) s

/-- MXDRN (R450). -/
def execMxdrn (f : MxDrn) (s : State) : Out :=
  runInstr false (fun pc => do
    let l ← operands [⟨f.p, f.kp, .addr⟩, ⟨f.q, f.kq, .addr⟩, ⟨f.h, f.kh, .addr⟩] (some (.reg, f.a))
    Run.stopIf (!mxDrnOk (arg l 0) (arg l 1)) .illop
    checkHandle (arg l 2)
    Run.stopIf (bits (arg l 2) 31 16 ≠ (← get).m.modnum.toNat) .noroute (arg l 2).toNat
    let d := mxDst (arg l 0) (arg l 1)
    mxPush (.mxdrn f) .drn f.sig f.a (if d.int then none else some d.rnd) (arg l 0) (arg l 1) (arg l 2) pc) s

/-- MXROT (R451). -/
def execMxrot (f : MxN) (s : State) : Out :=
  runInstr false (fun pc => do
    let _ ← operands [] (some (.reg, f.a))
    mxPush (.mxrot f) (.rot f.n.toNat) f.sig f.a none 0 0 0 pc) s

/-- MXZERO (R451). -/
def execMxzero (f : MxZero) (s : State) : Out :=
  runInstr false (fun pc => do
    let l ← operands [⟨f.q, f.kq, .addr⟩] (some (.reg, f.a))
    Run.stopIf (!mxRegOk (arg l 0) || bits (arg l 0) 63 14 ≠ 0) .illop
    mxPush (.mxzero f) .zero f.sig f.a none 0 (arg l 0) 0 pc) s

/-- MXGANG (R451). -/
def execMxgang (f : MxN) (s : State) : Out :=
  runInstr false (fun pc => do
    let _ ← operands [] (some (.reg, f.a))
    mxPush (.mxgang f) (.gang (2 ^ f.n.toNat)) f.sig f.a none 0 0 0 pc) s

/-! ## Gangs, accumulators, flags (R157, R251) -/

/-- Leader and size of the gang of a slot. -/
def Tile.gangOf (t : Tile) (k : Nat) : Nat × Nat := Tab.get (k, 1) t.gang k
/-- Partition columns C of a gang. -/
def gangCols (size : Nat) : Nat := if size = 1 then 1 else if size = 8 then 4 else 2
/-- Size code of MXGANG. -/
def gangCode (size : Nat) : Nat := Nat.log2 size
/-- The key of a gang's accumulator word: member slot, row and column in its partition (R251). -/
def accKey (lead size y x : Nat) : Nat :=
  (lead + (y / 96 * gangCols size + x / 96)) * 9216 + (y % 96) * 96 + x % 96
def Tile.accAt (t : Tile) (key : Nat) : BitVec 32 := Tab.get 0 t.acc key
/-- FLAGS of a gang (R259). -/
def Tile.gangFlags (t : Tile) (lead size : Nat) : Nat :=
  ((upFrom 0 size).map fun j => Tab.get 0 t.aflags (lead + j) % 8 * 8 ^ j).foldl (· + ·) 0
/-- The region lies within the gang's shape. -/
def MxReg.inGang (r : MxReg) (size : Nat) : Bool :=
  r.col + r.ncol ≤ 3 * gangCols size && r.row + r.nrow ≤ 3 * (size / gangCols size)

/-- The value of MXSTAT in a core of slot k (R262). -/
def Tile.mxstat (t : Tile) (k : Nat) : Word :=
  let (lead, size) := t.gangOf k
  BitVec.ofNat 64 (t.gangFlags lead size + gangCode size * 2 ^ 24 + (k - lead) * 2 ^ 26)
/-- The trailer of a drain (R262): flags and gang size, the job and the core's VCN. -/
def Module.mxTrailer (m : Module) (tile slot : Nat) (b : Issuer) : List Byte :=
  let (lead, size) := (m.tile tile).gangOf slot
  leBytes 8 ((m.tile tile).gangFlags lead size + gangCode size * 2 ^ 24 + b.job * 2 ^ 32 + m.vcn b.cid * 2 ^ 48)
/-- The flags of a slot's gang cleared. -/
def Tile.clearGang (t : Tile) (k : Nat) : Tile :=
  let parts := upFrom (t.gangOf k).1 (t.gangOf k).2
  { t with aflags := parts.foldl (fun a k => Tab.put a k 0) t.aflags
           zeroAt := t.zeroAt.map fun z => (z.1, parts.foldl Tab.del z.2) }
/-- The flags of some partitions cleared by an MXZERO at a cycle: an MXSTAT of that cycle reads what they held (R465). -/
def Tile.zeroFlags (t : Tile) (time : Nat) (parts : List Nat) : Tile :=
  let held : Tab Nat := (t.zeroAt.filter (·.1 == time)).elim [] (·.2)
  { t with aflags := parts.foldl (fun a k => Tab.put a k 0) t.aflags
           zeroAt := some (time, parts.foldl (fun z k => Tab.put z k (Tab.get 0 z k ||| Tab.get 0 t.aflags k)) held) }
/-- A tile with the flags that an MXSTAT of a cycle reads. -/
def Tile.statAt (t : Tile) (time : Nat) : Tile :=
  match t.zeroAt.filter (·.1 == time) with
  | some z => { t with aflags := z.2.foldl (fun a e => Tab.put a e.1 (Tab.get 0 a e.1 ||| e.2)) t.aflags }
  | none => t

/-! ## Queues -/

def Tile.mxHead (t : Tile) (k : Nat) : Option MxCmd := (Tab.get [] t.mxq k).head?
/-- The running head of a slot's queue. -/
def Tile.mxRun (t : Tile) (k : Nat) : Option MxCmd := (t.mxHead k).filter (·.started)
/-- The head changed, or gone. -/
def Module.mxSet (m : Module) (tile k : Nat) (c : MxCmd) : Module :=
  m.onTile tile fun t => { t with mxq := Tab.put t.mxq k (c :: (Tab.get [] t.mxq k).drop 1) }
/-- The next head starts at the earliest in the cycle after this one. -/
def Module.mxDrop (m : Module) (tile k : Nat) : Module :=
  m.onTile tile fun t =>
    let l := (Tab.get [] t.mxq k).drop 1
    { t with mxq := Tab.put t.mxq k (match l with
      | c :: l => { c with ready := max c.ready (m.time + 1) } :: l
      | [] => []) }
def Module.mxDone (m : Module) (tile k : Nat) (c : MxCmd) (fl : Nat) : Module := (m.mxDrop tile k).engineDone false c.by_ fl
/-- DEDUCED (log 74). -/
def Module.mxLate (m : Module) (tile k : Nat) (c : MxCmd) (x : Cause) (a : Word) : Module :=
  (m.mxDrop tile k).engineLate false k c.by_ x a

/-! ## Reads (R242, R263) -/

/-- n bytes of the group's expanded image, block by block. -/
def groupBytes (gid off : Nat) : Nat → MM (List Byte)
  | 0 => pure []
  | n + 1 => do
    let b ← groupRead gid off 1 (2 ^ 33 + off)
    let bs ← groupBytes gid (off + 1) n
    return b ++ bs

/-- n bytes that a matrix command reads from LM or group memory. DEDUCED (log 74). -/
def mxRead (b : Issuer) (g : Bool) (off n : Nat) : MM (List Byte) :=
  if g then do
    MM.stopIf (decide (2 ^ 23 < off + n)) .page off
    groupBytes (groupOf b.cid) off n
  else do
    MM.stopIf (decide (2 ^ 19 < off + n)) .page off
    lmLoad b.cid b.cid off n b.super off

/-- The packed elements of n bytes. -/
def unpackElems (w : Nat) (bs : List Byte) : List Nat :=
  let x := leNat bs
  (upFrom 0 (8 * bs.length / w)).map fun i => x / 2 ^ (w * i) % 2 ^ w

/-- Rows first, first + 1, …, each of n bytes. -/
def mxRows (b : Issuer) (s : MxSrc) (skip n first : Nat) : Nat → MM (List (List Byte))
  | 0 => pure []
  | r + 1 => do
    let x ← mxRead b s.g (s.off + first * s.pitch + skip) n
    let xs ← mxRows b s skip n (first + 1) r
    return x :: xs

/-- The latch image that an MXLD reads (R249). -/
def mxImage (c : MxCmd) : MM Latch := do
  let s := mxSrc c.p
  let q := mxShape c.q
  let n := 32 * q.nb
  let w := Num.widthOf q.ty
  let rows ← mxRows c.by_ s 0 (n * w / 8) 0 q.k
  let sc ← if q.sc then mxRead c.by_ s.g q.soff (q.k / 8 * n) else pure []
  return ⟨q.ty, q.k, q.nb, q.sc, rows.flatMap (unpackElems w), sc.map BitVec.toNat⟩

/-! ## Starts (R246, R258) -/

/-- The latch of a gang member. -/
def Tile.latchOf (t : Tile) (lead c : Nat) : Option Latch := Tab.find t.latch (lead + c)
/-- K of a command on a region (R254). -/
def Tile.mxK (t : Tile) (lead : Nat) (r : MxReg) : Nat := ((t.latchOf lead (r.col / 3)).map (·.k)).getD 0
/-- The latch of member c serves the columns of the region that it supplies (R258). -/
def Tile.latchFits (t : Tile) (lead : Nat) (r : MxReg) (ty c : Nat) : Bool :=
  match t.latchOf lead c with
  | some l => l.k == t.mxK lead r && mxClass l.ty == mxClass ty && decide (min (r.col + r.ncol) (3 * c + 3) - 3 * c ≤ l.nb)
  | none => false
def Tile.latchesFit (t : Tile) (lead : Nat) (r : MxReg) (ty : Nat) : Bool :=
  (upFrom (r.col / 3) ((r.col + r.ncol - 1) / 3 + 1 - r.col / 3)).all (t.latchFits lead r ty)

/-- The start checks of R258. -/
def Tile.startBad (t : Tile) (k : Nat) (c : MxCmd) : Bool :=
  let (lead, size) := t.gangOf k
  let r := mxReg c.q
  match c.op with
  | .mma => lead ≠ k || !r.inGang size || !t.latchesFit lead r (mxCtl c.q).ty
  | .zero | .drn => lead ≠ k || !r.inGang size
  | _ => false

/-- MATRIX_COMMAND_START: the head of a queue starts, is cancelled, or fails its start checks. -/
def execMatrixCommandStart (tile slot : Nat) (s : State) : Out :=
  event (fun m => ((m.tile tile).mxHead slot).bind fun c =>
    let t := m.tile tile
    if c.started || t.frozen then none
    else if c.cancel then some ((m.mxDrop tile slot).engineCancel false c.by_)
    else if m.time < c.ready || !(c.begun || m.sigReady tile c.by_.sig) then none
    else
      let m := m.setJob c.by_.cid false c.by_.job .running
      if t.startBad slot c then some (m.mxLate tile slot c .illop 0)
      else
        match c.op with
        | .ld =>
          match mxImage c m with
          | .ok (l, m) =>
            let m := m.onTile tile fun t => { t with staging := Tab.put t.staging slot l }
            some (m.mxSet tile slot { c with started := true, ready := m.time + 8 + ((mxShape c.q).image + 63) / 64 })
          | .error (.fault f) => some ((m.sides f.side).mxLate tile slot c f.cause f.addr)
          | .error _ => none
        | .zero =>
          let r := mxReg c.q
          some (m.mxSet tile slot { c with started := true, ready := m.time + 4 * (r.nrow * r.ncol) })
        | .mma =>
          let l := t.latchOf (t.gangOf slot).1 ((mxReg c.q).col / 3)
          some (m.mxSet tile slot { c with started := true, k := (l.map (·.k)).getD 0, cls := (l.map fun l => mxClass l.ty).getD 0 })
        | _ => some (m.mxSet tile slot { c with started := true })) s

/-! ## Latches (R249, R250) -/

/-- No step holds the array. -/
def Module.boundary (m : Module) (tile : Nat) : Bool := decide ((m.tile tile).free ≤ m.time)

/-- Errors of the words that a write covers are gone. -/
def Tile.cleared (t : Tile) (gone : Nat → Bool) : Tile :=
  { t with bad := t.bad.filter fun k => !gone k, hit := t.hit.filter fun k => !gone k }

/-- The keys of a slot's latch words. -/
def inLatch (slot k : Nat) : Bool := decide (latchKey slot 0 ≤ k) && decide (k < latchKey (slot + 1) 0)
/-- LATCH_SWAP. -/
def execLatchSwap (tile slot : Nat) (s : State) : Out :=
  event (fun m => ((m.tile tile).mxRun slot).bind fun c =>
    if c.op ≠ .ld || m.time < c.ready || !m.boundary tile || (m.tile tile).frozen then none
    else
      (Tab.find (m.tile tile).staging slot).map fun l =>
        let m := m.onTile tile fun t =>
          { (t.cleared (inLatch slot)) with latch := Tab.put t.latch slot l, staging := Tab.del t.staging slot }
        m.mxDone tile slot c 0) s

/-- Base and size of the sub-ring of a slot (R250). -/
def subRing (ring slot : Nat) : Nat × Nat :=
  let r := if ring = 0 then 8 else if ring = 1 then 4 else 2
  (slot / r * r, r)

/-- MXROT_RENDEZVOUS. -/
def execMxrotRendezvous (tile slot : Nat) (s : State) : Out :=
  event (fun m => ((m.tile tile).mxRun slot).bind fun c =>
    match c.op with
    | .rot ring =>
      let (base, r) := subRing ring slot
      let t := m.tile tile
      if t.frozen || t.rot.any (fun x => x.1 ≤ slot && slot < x.1 + x.2.1) then none
      else if (upFrom base r).all fun k => (t.mxRun k).any (·.op == .rot ring) then
        some (m.onTile tile fun t => { t with rot := t.rot ++ [(base, r, m.time + 96)] })
      else none
    | _ => none) s

/-- A latch moved to another slot; an empty one leaves the slot empty. -/
def Tab.move {α : Type} (src dst : Tab α) (i j : Nat) : Tab α :=
  match Tab.find src i with
  | some x => Tab.put dst j x
  | none => Tab.del dst j

/-- LATCH_ROTATION_SWAP: the first rotation whose copy is done. An uncorrectable word of a latch raises nothing here and moves with
its tile. DESIGN CHOICE (log 157). -/
def execLatchRotationSwap (tile : Nat) (s : State) : Out :=
  event (fun m =>
    match findIdx (fun x : Nat × Nat × Nat => decide (x.2.2 ≤ m.time)) (m.tile tile).rot with
    | some (i, base, r, _) =>
      if !m.boundary tile || (m.tile tile).frozen then none
      else
        let old := (m.tile tile).latch
        let to_ (k : Nat) : Nat := if base ≤ k && k < base + r then base + (k - base + 1) % r else k
        let key (k : Nat) : Nat :=
          if k < latchKey 0 0 then k else latchKey (to_ ((k - latchKey 0 0) / 6144)) ((k - latchKey 0 0) % 6144)
        let m := m.onTile tile fun t =>
          { t with rot := dropAt t.rot i, bad := t.bad.map key, hit := t.hit.map key
                   latch := (upFrom 0 r).foldl (fun l k => Tab.move old l (base + k) (base + (k + 1) % r)) t.latch }
        some ((upFrom base r).foldl
          (fun m k => match (m.tile tile).mxRun k with
            | some c => m.mxDone tile k c 0
            | none => m) m)
    | none => none) s

/-! ## Gangs (R252, R256) -/

/-- Arbitration weight of a gang: the sum of `c.mxw` over its members. -/
def Module.mxWeight (m : Module) (tile lead size : Nat) : Nat :=
  ((upFrom lead size).map fun k => (m.core (8 * tile + k)).spec.mxw.toNat).foldl (· + ·) 0
/-- A requester's credit; at reset it is the weight, and every `c.mxw` is 1. -/
def Module.mxCredit (m : Module) (tile lead size : Nat) : Nat :=
  (Tab.find (m.tile tile).credit lead).getD size
/-- The requesters: leader and size of every gang. -/
def Tile.requesters (t : Tile) : List (Nat × Nat) := (upFrom 0 8).filterMap fun k =>
  let g := t.gangOf k
  if g.1 = k then some g else none

/-- A leader's command runs; one that waits for a rendezvous does not, but a rotation under way does (R250, R252).
DEDUCED (log 76). -/
def Tile.leaderBusy (t : Tile) (k : Nat) : Bool :=
  match t.mxRun (t.gangOf k).1 with
  | some c => (match c.op with
    | .gang _ => false
    | .rot _ => t.rot.any fun x => x.1 ≤ (t.gangOf k).1 && (t.gangOf k).1 < x.1 + x.2.1
    | _ => true)
  | none => false

/-- GANG_FORMATION. DEDUCED (log 76). -/
def execGangFormation (tile slot : Nat) (s : State) : Out :=
  event (fun m => ((m.tile tile).mxRun slot).bind fun c =>
    match c.op with
    | .gang g =>
      let t := m.tile tile
      let base := slot / g * g
      let set_ := upFrom base g
      if t.frozen || !(set_.all fun k => (t.mxRun k).any (·.op == .gang g)) || set_.any t.leaderBusy then none
      else
        let hit := (upFrom 0 8).filter fun k => set_.any fun j => (t.gangOf j).1 == (t.gangOf k).1
        let gang := hit.foldl (fun a k => Tab.put a k (if base ≤ k ∧ k < base + g then (base, g) else (k, 1))) t.gang
        let lead := hit.filter fun k => (Tab.get (k, 1) gang k).1 == k
        let credit := lead.foldl (fun a k => Tab.put a k (m.mxWeight tile k (Tab.get (k, 1) gang k).2))
          (t.credit.filter fun e => !hit.contains e.1)
        let m := m.onTile tile fun t => { t with gang := gang, credit := credit }
        some (set_.foldl
          (fun m k => match (m.tile tile).mxRun k with
            | some c => m.mxDone tile k c 0
            | none => m) m)
    | _ => none) s

/-! ## Native steps (R155, R156, R254–R257) -/

/-- The value of an element with its scale (R142, R254). -/
def mxVal (ty e : Nat) (sc : Option Nat) : Num.Val :=
  match sc with
  | some s => Num.scaled ((Num.fmtOf ty).val e) s
  | none => (Num.fmtOf ty).val e

/-- One block of 8 products added to an accumulator (R155, R156). DESIGN CHOICE (log 78). -/
def mxAdd8 (ta tb : Nat) (a b : List Nat) (sa sb : Option Nat) (acc : Nat) : Nat × Nat :=
  if Num.isInt ta then
    Num.accAddInt acc ((a.zip b).foldl (fun s p => s + Num.intVal ta p.1 * Num.intVal tb p.2) 0)
  else
    Num.accAdd acc ((a.zip b).foldl (fun (s : Num.Sum) p => s.addEx (Num.mulVal (mxVal ta p.1 sa) (mxVal tb p.2 sb))) {})

/-- The blocks of 8 of one chunk, in increasing k, with their flags. -/
def mxChunk (ta tb : Nat) (sa sb : Nat → Option Nat) : Nat → Nat → List Nat → List Nat → Nat → Nat × Nat
  | 0, _, _, _, acc => (acc, 0)
  | n + 1, j, a, b, acc =>
    let (acc, f) := mxAdd8 ta tb (a.take 8) (b.take 8) (sa j) (sb j) acc
    let (acc, g) := mxChunk ta tb sa sb n (j + 1) (a.drop 8) (b.drop 8) acc
    (acc, f ||| g)

/-- Steps of a command (R255), by the K of its B tile when it started. -/
def MxCmd.steps (c : MxCmd) : Nat :=
  let r := mxReg c.q
  let nk := mxNk (mxCtl c.q).ty
  r.nrow * r.ncol * ((c.k + nk - 1) / nk)

/-- A running MXMMA with a step to start. -/
def Tile.stepReady (t : Tile) (lead : Nat) : Bool :=
  (t.mxRun lead).any fun c => c.op == .mma && c.dead.isNone && decide (c.pos < c.steps)

/-- A latch serves column x of a step of command c: a later MXLD or MXROT may have put a tile of another shape there, or none. -/
def Latch.serves (l : Latch) (c : MxCmd) (x : Nat) : Bool := l.k == c.k && mxClass l.ty == c.cls && decide (x < 32 * l.nb)
/-- Element (kk, x) of a latch as a step of command c reads it (R249). Where the latch does not serve the column, the spec gives no
value: it is free. DESIGN CHOICE (log 78). -/
def Latch.at (l : Latch) (c : MxCmd) (kk x : Nat) : Nat :=
  let free := Config.tileFree (96 * kk + x) % 2 ^ Num.widthOf l.ty
  if l.serves c x then l.elems.getD (kk * (32 * l.nb) + x) free else free
/-- The scale of block q of 8 rows in column x, likewise. -/
def Latch.scaleAt (l : Latch) (c : MxCmd) (q x : Nat) : Nat :=
  let free := Config.tileFree (98304 + 96 * q + x) % 256
  if l.serves c x then l.scales.getD (q * (32 * l.nb) + x) free else free
/-- Word z of a latch's image holds elements or scales that a step reads: rows k0 to k0 + n - 1 of the 32 columns from x (R263). -/
def Latch.reads (l : Latch) (k0 n x z : Nat) : Bool :=
  let nn := 32 * l.nb
  let w := Num.widthOf l.ty
  let hits (first rows i : Nat) : Bool := first ≤ i / nn && i / nn < first + rows && i % nn / 32 == x / 32
  if 32 * z < l.k * nn * w then hits k0 n (32 * z / w) else l.sc && hits (k0 / 8) (n / 8) (4 * z - l.k * nn * w / 8)
/-- A read of the words of the matrix unit that have the given keys: UNCORR where one is uncorrectable (R263). -/
def mxWords (tile : Nat) (key : Nat → Bool) : MM Unit := do
  let t := (← get).tile tile
  let ks := (t.bad ++ t.hit).filter key
  if t.bad.any key then MM.fault { cause := .uncorr, side := [.marks tile ks] }
  MM.upd fun m => m.marksRead tile ks

/-- The next step of the leader's command: its block, and the accumulator words that it makes; the fault of its reads.
DESIGN CHOICE (log 78). -/
def mxStep (tile lead size : Nat) (c : MxCmd) : MM MxStep := do
  let t := (← get).tile tile
  let r := mxReg c.q
  let ctl := mxCtl c.q
  let s := mxSrc c.p
  let k := c.k
  let nk := mxNk ctl.ty
  let chunks := (k + nk - 1) / nk
  let blk := c.pos / chunks
  let ch := c.pos % chunks
  let row := blk / r.ncol
  let col := r.col + blk % r.ncol
  let k0 := ch * nk
  let n := min nk (k - k0)
  let w := Num.widthOf ctl.ty
  let rows ← mxRows c.by_ s (k0 * w / 8) (n * w / 8) (32 * row) 32
  let scales ← if ctl.sc then mxRows c.by_ ⟨ctl.soff, s.g, k / 8⟩ (k0 / 8) (n / 8) (32 * row) 32 else pure []
  let l := (t.latchOf lead (col / 3)).getD ⟨0, 0, 0, false, [], []⟩
  let y0 := 32 * (r.row + row)
  let x0 := 32 * col
  let prev := (t.steps.filter fun p => p.slot == lead && p.row == y0 && p.col == x0).getLast?
  let cells := (upFrom 0 32).flatMap fun i => (upFrom 0 32).map fun j => (i, j)
  let fresh := ctl.acc0 && ch == 0
  mxWords tile fun key =>
    (inLatch (lead + col / 3) key && l.reads k0 n (x0 % 96) (key - latchKey (lead + col / 3) 0))
      || (!(fresh || prev.isSome) && cells.any fun (i, j) => 64 + accKey lead size (y0 + i) (x0 + j) == key)
  let out := cells.map fun (i, j) =>
    let key := accKey lead size (y0 + i) (x0 + j)
    let old := match prev with
      | some p => (Tab.find p.acc key).getD 0
      | none => if fresh then 0 else t.accAt key
    let x := (x0 + j) % 96
    let a := unpackElems w (rows.getD i [])
    let b := (upFrom k0 n).map fun kk => l.at c kk x
    let sa (q : Nat) : Option Nat := if ctl.sc then some ((scales.getD i []).getD q 0#8).toNat else none
    let sb (q : Nat) : Option Nat := if l.sc then some (l.scaleAt c (k0 / 8 + q) x) else none
    let (v, f) := mxChunk ctl.ty l.ty sa sb (n / 8) 0 a b old.toNat
    ((key, BitVec.ofNat 32 v), f)
  return { slot := lead, job := c.by_.job, row := y0, col := x0, chunk := ch, at_ := (← get).time + 40
           part := accKey lead size y0 x0 / 9216, acc := out.map (·.1), flags := out.foldl (fun f o => f ||| o.2) 0 }

/-- Grant (R256): the requester that takes the next step, and the tile's credits and pointer after it. -/
def Module.mxGrant (m : Module) (tile : Nat) : Option ((Nat × Nat) × Tile) :=
  let t := m.tile tile
  let rs := t.requesters
  let e := rs.filter fun g => t.stepReady g.1
  if e.isEmpty then none
  else
    let cr (g : Nat × Nat) : Nat := m.mxCredit tile g.1 g.2
    let reload := !e.any fun g => cr g ≠ 0
    let cr' (g : Nat × Nat) : Nat := if reload then m.mxWeight tile g.1 g.2 else cr g
    let order := (upFrom t.ptr 8).map (· % 8)
    match order.findSome? fun k => e.find? fun g => g.1 == k && cr' g ≠ 0 with
    | none => none
    | some g =>
      let n := cr' g - 1
      let credit := (rs.map fun x => (x.1, cr' x)).foldl (fun a x => Tab.put a x.1 x.2) t.credit
      some (g, { t with credit := Tab.put credit g.1 n, ptr := if n = 0 then (g.1 + g.2) % 8 else g.1 })

/-- MATRIX_STEP_GRANT: one step starts at a step boundary; under a power clamp every other boundary passes (R392).
A step whose reads fault is not granted: it spends no credit. DESIGN CHOICE (log 77). -/
def execMatrixStepGrant (tile : Nat) (s : State) : Out :=
  event (fun m =>
    let t := m.tile tile
    if t.frozen || !m.boundary tile then none
    else if m.clamp && !t.skip then some (m.onTile tile fun t => { t with skip := true, free := m.time + 32 })
    else
      (m.mxGrant tile).bind fun ((lead, size), t') =>
        (t'.mxRun lead).bind fun c =>
          match mxStep tile lead size c (m.setTile tile { t' with skip := false }) with
          | .ok (st, m) =>
            let m := m.onTile tile fun t => { t with steps := t.steps ++ [st], free := m.time + 32 }
            some (m.mxSet tile lead { c with pos := c.pos + 1 })
          | .error (.fault f) => some ((m.sides f.side).mxSet tile lead { c with dead := some (f.cause, f.addr) })
          | .error _ => none) s

/-- The oldest step of a tile takes effect once its cycle has come; the last one completes its MXMMA. -/
def Module.stepEffect (m : Module) (tile : Nat) : Option Module :=
  match (m.tile tile).steps with
  | [] => none
  | st :: rest =>
    if m.time < st.at_ then none
    else
      let m := m.onTile tile fun t =>
        { (t.cleared fun k => st.acc.any fun e => 64 + e.1 == k) with
          steps := rest, acc := st.acc.foldl (fun a e => Tab.put a e.1 e.2) t.acc
          aflags := Tab.put t.aflags st.part (Tab.get 0 t.aflags st.part ||| st.flags) }
      some (match (m.tile tile).mxRun st.slot with
        | some c =>
          if c.op == .mma && c.dead.isNone && c.pos == c.steps && !rest.any (·.slot == st.slot) then m.mxDone tile st.slot c 0
          else m
        | none => m)

/-- MATRIX_STEP_EFFECT. -/
def execMatrixStepEffect (tile : Nat) (s : State) : Out := event (fun m => m.stepEffect tile) s

/-- Every step of a tile whose cycle has come takes effect. -/
def Module.dueSteps (m : Module) (tile : Nat) : Nat → Module
  | 0 => m
  | n + 1 =>
    match m.stepEffect tile with
    | some m => m.dueSteps tile n
    | none => m

/-- MXSTAT (R262): the flags of a step that takes effect in this cycle are ORed first, and those that an MXZERO of this cycle clears are
read before it does (R465). -/
def mxStatus (clr : Bool) (f : Dest) (s : State) : Out :=
  run (do
    let _ ← operands [] (some (.reg, f.a))
    let t := tileOf (← get).cid
    Run.onM fun m => m.dueSteps t (m.tile t).steps.length
    let s ← get
    let v := ((s.m.tile t).statAt s.m.time).mxstat (slotOf s.cid)
    if clr then Run.onM fun m => m.onTile t fun x => x.clearGang (slotOf s.cid)
    writeDst f.a v) s
/-- MXSTAT (R454). -/
def execMxstat (f : Dest) (s : State) : Out := mxStatus false f s
/-- MXSTAT.clr (R454). -/
def execMxstatClr (f : Dest) (s : State) : Out := mxStatus true f s

/-- MATRIX_LATE_FAULT: a command that met a fault ends once its started steps have taken effect (R263). -/
def execMatrixLateFault (tile slot : Nat) (s : State) : Out :=
  event (fun m => ((m.tile tile).mxRun slot).bind fun c =>
    match c.dead with
    | some (x, a) => if (m.tile tile).steps.any (·.slot == slot) then none else some (m.mxLate tile slot c x a)
    | none => none) s

/-! ## MXZERO (R261) -/

/-- The accumulator words of a region become zero. -/
def Tile.zeroRegion (t : Tile) (lead size : Nat) (r : MxReg) : Tile :=
  let inside (key : Nat) : Bool :=
    let j := key / 9216 - lead
    let y := j / gangCols size * 96 + key % 9216 / 96
    let x := j % gangCols size * 96 + key % 96
    decide (lead ≤ key / 9216) && decide (key / 9216 < lead + size) && decide (32 * r.row ≤ y) && decide (y < 32 * (r.row + r.nrow))
      && decide (32 * r.col ≤ x) && decide (x < 32 * (r.col + r.ncol))
  { (t.cleared fun k => 64 ≤ k && inside (k - 64)) with acc := t.acc.filter fun e => !inside e.1 }

/-- The members whose whole partition a region covers. -/
def wholeParts (size : Nat) (r : MxReg) : List Nat :=
  (upFrom 0 size).filter fun j =>
    r.row ≤ 3 * (j / gangCols size) && 3 * (j / gangCols size) + 3 ≤ r.row + r.nrow
      && r.col ≤ 3 * (j % gangCols size) && 3 * (j % gangCols size) + 3 ≤ r.col + r.ncol

/-- MXZERO_COMPLETION. -/
def execMxzeroCompletion (tile slot : Nat) (s : State) : Out :=
  event (fun m => ((m.tile tile).mxRun slot).bind fun c =>
    if c.op ≠ .zero || m.time < c.ready || (m.tile tile).frozen then none
    else
      let (lead, size) := (m.tile tile).gangOf slot
      let r := mxReg c.q
      let m := m.onTile tile fun t =>
        (t.zeroRegion lead size r).zeroFlags m.time ((wholeParts size r).map (lead + ·))
      some (m.mxDone tile slot c 0)) s

/-! ## Drains (R259, R260, R263) -/

/-- The target of a drain: the core that the handle's VCN names now (R263). -/
def Module.drainTarget (m : Module) (c : MxCmd) : Option Nat := m.coreOfVcn (siteOf c.by_.cid) (bits c.h 15 0)

/-- Bytes of a drain written to the target's LM. DEDUCED (log 75). -/
def drainPut (c : MxCmd) (off : Nat) (bs : List Byte) : MM Unit := do
  let m ← get
  match m.drainTarget c with
  | none => MM.raise .noroute off
  | some t =>
    if m.coreHeld t then MM.stall
    else do
      keyLm c.by_.cid t off
      lmSave c.by_.cid t off bs c.by_.super off

/-- One converted element of a drain (R151, R153, R259). -/
def drainElem (d : MxDst) (b : Issuer) (idx acc : Nat) : Nat × Nat :=
  if d.int then Num.convert 2 d.oty 0 0 d.sat acc
  else Num.convert 9 d.oty b.rm (Num.rshHash b.seed.toNat idx b.rshc.toNat) d.sat acc

/-- MATRIX_DRAIN_SEGMENT: the next row segment of 32 elements. DEDUCED (log 75). -/
def execMatrixDrainSegment (tile slot : Nat) (s : State) : Out :=
  event (fun m => ((m.tile tile).mxRun slot).bind fun c =>
    let t := m.tile tile
    let r := mxReg c.q
    let d := mxDst c.p c.q
    let (lead, size) := t.gangOf slot
    if c.op ≠ .drn || t.frozen || 32 * r.nrow * r.ncol ≤ c.pos then none
    else
      let i := c.pos / r.ncol
      let j := 32 * (c.pos % r.ncol)
      let (v, fl) := packElems (8 * d.w) 32 fun e =>
        drainElem d c.by_ (i * (32 * r.ncol) + j + e) (t.accAt (accKey lead size (32 * r.row + i) (32 * r.col + j + e))).toNat
      let words (key : Nat) : Bool := (upFrom 0 32).any fun e => 64 + accKey lead size (32 * r.row + i) (32 * r.col + j + e) == key
      match (do mxWords tile words; drainPut c (d.off + i * d.pitch + j * d.w) v) m with
      | .ok (_, m) => some (m.mxSet tile slot { c with pos := c.pos + 1, flags := c.flags ||| fl })
      | .error (.fault f) => some ((m.sides f.side).mxLate tile slot c f.cause f.addr)
      | .error _ => none) s

/-- DRAIN_COMPLETION: the trailer, then the wake-up, then the completion once both are acknowledged. -/
def execDrainCompletion (tile slot : Nat) (s : State) : Out :=
  event (fun m => ((m.tile tile).mxRun slot).bind fun c =>
    let r := mxReg c.q
    let d := mxDst c.p c.q
    let n := 32 * r.nrow * r.ncol
    let (lead, size) := (m.tile tile).gangOf slot
    let finish (m : Module) : Module :=
      let m := if d.clr then m.onTile tile fun t => t.zeroRegion lead size r else m
      m.mxDone tile slot c c.flags
    if c.op ≠ .drn || c.pos < n || (m.tile tile).frozen then none
    else if c.pos = n then
      match drainPut c (d.off + 32 * r.nrow * d.pitch) (m.mxTrailer tile slot c.by_) m with
      | .ok (_, m) =>
        if !d.wk then some (finish m)
        else
          let (k, m) := m.sendWake c.by_ ((m.drainTarget c).getD 0) d.went (BitVec.ofNat 64 d.off)
            (BitVec.ofNat 64 (32 * r.nrow * d.pitch))
          some (m.mxSet tile slot { c with pos := n + 1, ready := k })
      | .error (.fault f) => some (m.mxLate tile slot c f.cause f.addr)
      | .error _ => none
    else if m.wakeTaken c.ready ((m.drainTarget c).getD 0) c.by_ then some (finish m)
    else none) s

end Sys2Proof.Machine
end

