-- ==== Sys2Proof/Machine/CopyForm.lean ====
section
/-!
DEFINITION. What a copy command must be at its commit (R268–R270, R276, R279, R286, R288), for the copy instructions and for
the COPY nodes of a graph (R325).
-/
namespace Sys2Proof.Machine

/-! ## Runs -/

/-- The runs of a command whose addresses need no index word, as first-level and second-level numbers. -/
def CpDesc.runs (d : CpDesc) : List (Nat × Nat) := (upFrom 0 (d.n1 * d.n2)).map fun r => (r % d.n1, r / d.n1)

/-- An address in GROUP. -/
def atGroup (a : Word) : Bool :=
  match windowOf a.toNat with
  | some (.group, _) => true
  | _ => false
def atSys (a : Word) : Bool :=
  match windowOf a.toNat with
  | some (.sys, _) => true
  | _ => false
/-- An address in ILV or SEG. -/
def atMain (a : Word) : Bool :=
  match windowOf a.toNat with
  | some (.ilv, _) | some (.seg, _) => true
  | _ => false

/-- Some destination run starts in GROUP. -/
def CpCmd.toGroup (c : CpCmd) : Bool := c.d.runs.any fun r => atGroup (c.runDst r.1 r.2 0)

/-- The rules of R288 for a destination in GROUP. -/
def CpCmd.groupOk (c : CpCmd) : Bool :=
  !c.toGroup
    || (c.d.n1 == 1 && c.d.n2 == 1 && c.p.toNat % 256 == 0
        && match c.op, c.d.xf with
          | .cpy, _ | .cp2d, _ | .cpyx, 0 => c.d.len % 256 == 0
          | .cpyx, x => x ≤ 2
          | _, _ => false)

/-- The core in whose LM every destination run lies (R272). The run of an expand or encode is taken at the bound of R276, as its length is
not known at commit: DESIGN CHOICE (log 158). A destination that names a vacant or unbound core lies in no LM: DESIGN CHOICE (log 159). -/
def Module.wakeHome (m : Module) (c : CpCmd) : Option Nat :=
  match m.target c.by_.cid c.p.toNat with
  | .lm t _ =>
    if c.d.runs.all fun r =>
        match m.target c.by_.cid (c.runDst r.1 r.2 0).toNat with
        | .lm u off => u == t && off + c.d.runOut ≤ 2 ^ 19
        | _ => false
    then some t else none
  | _ => none

/-! ## The fields of a descriptor (R269, R270, R279) -/

/-- Element size of addland. -/
def addSize (par : Nat) : Nat := Num.widthOf (fieldOf par 3 0) / 8

/-- The fields keep R269 and R270; `x` is the descriptor as one number. A transform that R279 does not have is left to it. -/
def CpCmd.fieldsOk (c : CpCmd) (x : Nat) : Bool :=
  let d := c.d
  let idx := c.op == .gath || c.op == .scat
  fieldOf x 415 415 == 0 && fieldOf x 447 435 == 0
    && 1 ≤ d.n1 && 1 ≤ d.n2 && d.bar.toNat % 32 == 0 && !atGroup d.bar && !atSys d.bar && 2 ≤ d.scope && d.scope ≤ 6
    && (c.op == .cpyx || d.xf == 0) && d.went % 2 == 0
    && (if idx then d.idx.toNat % 4 == 0 && d.n2 == 1 && d.ss2 == 0#64 && d.ds2 == 0#64 else d.idx == 0#64)
    && (c.op ≠ .cpy || (d.n1 == 1 && d.n2 == 1 && d.ss1 == 0#64 && d.ss2 == 0#64 && d.ds1 == 0#64 && d.ds2 == 0#64))
    && ((unitOf d.xf d.par).all fun u => d.len % u.1 == 0)
    && ((d.xf ≠ 1 && d.xf ≠ 2) || (d.n1 == 1 && d.n2 == 1))

/-- The transform and its place keep R279, and a destination in GROUP keeps R288. -/
def CpCmd.formOk (c : CpCmd) : Bool :=
  let d := c.d
  (unitOf d.xf d.par).isSome
    && (d.xf ≠ 6 || (c.p.toNat % addSize d.par == 0 && (d.n1 == 1 || d.ds1.toNat % addSize d.par == 0)
          && (d.n2 == 1 || d.ds2.toNat % addSize d.par == 0)))
    && c.groupOk

/-- What a copy instruction's command must be at its commit (R269, R270, R272, R279, R288). -/
def Module.descOk (m : Module) (c : CpCmd) (x : Nat) : Bool :=
  c.fieldsOk x && c.formOk && (!c.d.wk || (c.op ≠ .scat && (m.wakeHome c).isSome))

/-! ## Pages of a CPYX (R276) -/

/-- Pages of n bytes from an address, in the windows that a page table serves. -/
def pagesOf (a : Word) (n : Nat) : List Nat :=
  if n = 0 then []
  else (upFrom (a.toNat / 65536) ((a.toNat + n - 1) / 65536 + 1 - a.toNat / 65536)).filter fun v =>
    atMain (BitVec.ofNat 64 (v * 65536)) || atSys (BitVec.ofNat 64 (v * 65536))

/-- Distinct pages added to a list, as far as the limit. -/
def addPages (l : List Nat) (ps : List Nat) : List Nat :=
  ps.foldl (fun l p => if 256 < l.length || l.contains p then l else l ++ [p]) l

/-- Distinct pages of the sources (false) or the destinations (true). A destination of variable length is taken at its bound (R276), and
so pinned. DESIGN CHOICE (log 160). -/
def CpCmd.pages (c : CpCmd) (dst : Bool) (l : List Nat) : List Nat :=
  c.d.runs.foldl
    (fun l r => addPages l (if dst then pagesOf (c.runDst r.1 r.2 0) c.d.runOut else pagesOf (c.runSrc r.1 r.2 0) c.d.len)) l

/-- R276: more than 256 distinct pages. -/
def CpCmd.spans (c : CpCmd) : Bool := 256 < (c.pages true (c.pages false [])).length

end Sys2Proof.Machine
end

