-- ==== Sys2Proof/Machine/Graph.lean ====
section
/-!
DEFINITION. Graphs (R321–R343): the host queue, loading and checking an image, release and retirement, distribution,
admission, the completion stream, the root's own nodes, liveness, cancellation and the end of a launch.
-/
namespace Sys2Proof.Machine

/-! ## Fields (R322, R324) -/

def Launch.at (l : Launch) (hi lo : Nat) : Nat := fieldOf (leNat l.packet) hi lo
def Launch.nnode (l : Launch) : Nat := l.at 28 16
def Launch.gbase (l : Launch) : Word := BitVec.ofNat 64 (l.at 191 128)

def Node.at (n : Node) (hi lo : Nat) : Nat := fieldOf (leNat n.tcb) hi lo
/-- 0 KERNEL, 1 COPY, 2 COND, 3 LOOP, 4 JOIN, 5 HOSTSIG, 6 END. -/
def Node.kind (n : Node) : Nat := n.at 3 0
def Node.npred (n : Node) : Nat := n.at 27 16
def Node.items (n : Node) : Nat := n.at 255 224
def Node.slots (n : Node) : Nat := n.at 287 280
def Node.ntrue (n : Node) : Nat := n.at 235 224
def Node.pred (n : Node) : Word := BitVec.ofNat 64 (n.at 223 160)
def Node.body0 (n : Node) : Nat := n.at 247 236
def Node.body1 (n : Node) : Nat := n.at 259 248
/-- Released without work (R331). -/
def Node.idle (n : Node) : Bool := n.kind == 4 || (n.kind == 0 && n.items == 0)
/-- Inline successors of a TCB. DEDUCED (log 103). -/
def inlineSucc (x : Nat) : List Nat := (upFrom 0 (fieldOf x 30 28)).map fun k => fieldOf x (16 * k + 47) (16 * k + 32)

def SiteGraph.node (g : SiteGraph) (k : Nat) : Node := Tab.get {} g.nodes k
def SiteGraph.setNode (g : SiteGraph) (k : Nat) (n : Node) : SiteGraph := { g with nodes := Tab.put g.nodes k n }
def Module.onGraph (m : Module) (s : Nat) (f : SiteGraph → SiteGraph) : Module :=
  m.onSite s fun x => { x with graph := f x.graph }
def Module.onRun (m : Module) (p : Nat) (f : Launch → Launch) : Module := m.onPart p fun x => { x with run := f x.run }

/-- The graph root of a partition (R323). -/
def Part.root (p : Part) : Option Nat := p.sites.head?

/-! ## The end of a launch (R340) -/

/-- A launch ends with a status: the stop event takes the next place of the stream. DEDUCED (log 101). -/
def Module.endLaunch (m : Module) (p status node : Nat) : Module :=
  let x := m.part p
  if x.run.ended || !(x.hqState == 1 || x.hqState == 2) then m
  else m.setPart p
    { x with hqState := 3, run := { x.run with ended := true, status := status, node := node, stream := x.run.stream ++ [.stop] } }

/-! ## The doorbell and the launch (R321–R323) -/

/-- A write of HQ_TAIL. One that would pass HEAD breaks R321, and R1 then gives the register no value: it is free.
DESIGN CHOICE (log 127). -/
def Module.ringBell (m : Module) (p v : Nat) : Module := m.onPart p fun x =>
  let past : Bool := decide ((x.hqHead + 15 + 16 - x.hqTail % 16) % 16 < (v + 16 - x.hqTail % 16) % 16)
  { x with hqTail := (if past then (Config.hqFree 128 (BitVec.ofNat 64 v)).toNat else v) % 16 }
/-- A write of dword k of the queue's entries. One of an entry between HEAD and TAIL - 1 breaks R321, and R1 then gives it no value: it
is free. DESIGN CHOICE (log 127). -/
def Module.fillEntry (m : Module) (p k : Nat) (v : Word) : Module := m.onPart p fun x =>
  let taken : Bool := decide ((k / 8 + 16 - x.hqHead % 16) % 16 < (x.hqTail + 16 - x.hqHead % 16) % 16)
  { x with hqe := Tab.put x.hqe k (if taken then Config.hqFree k v else v) }

/-- A port serves a partition (R383). -/
def Module.serves (m : Module) (port p : Nat) : Bool := bit (m.part p).pcie 15 && bits (m.part p).pcie 3 0 == port
/-- DOORBELL: the host's write through a port; one that does not serve the partition ignores it (R383). -/
def execDoorbell (at_ : BlockPort) (value : Nat) (s : State) : Out :=
  event (fun m => if m.serves at_.port at_.part then some (m.ringBell at_.part value) else none) s

/-- The packet that queue entry k holds. -/
def Part.entry (x : Part) (k : Nat) : List Byte := (upFrom (8 * k) 8).flatMap fun i => leBytes 8 (Tab.get 0 x.hqe i).toNat

/-- A packet that step 2 lets through. -/
def Launch.packetOk (l : Launch) (p : Nat) : Bool :=
  let g := l.gbase
  l.at 7 0 == 1 && l.at 13 8 == p && l.at 15 14 == 0 && l.at 127 29 == 0 && l.at 319 273 == 0 && l.at 511 384 == 0
    && 1 ≤ l.nnode && l.nnode ≤ 4096 && g.toNat % 64 == 0 && atMain g
    && (windowOf (g.toNat + 64 * l.nnode - 1)).map (·.1) == (windowOf g.toNat).map (·.1)

/-- Cores of the partition that are not vacant, as VCNs, ascending. -/
def Module.liveVcns (m : Module) (x : Part) : List Nat :=
  (upFrom 0 (128 * x.sites.length)).filter fun v =>
    match x.sites[v / 128]? with
    | some s => !m.vacant (128 * s + v % 128)
    | none => false

/-- LAUNCH_START. DEDUCED (log 107). -/
def execLaunchStart (part : Nat) (s : State) : Out :=
  event (fun m =>
    let x := m.part part
    if !m.powered || x.hqState ≠ 0 || x.hqHead = x.hqTail || x.swSt ≠ 0 || x.sites.isEmpty then none
    else
      let n := (x.hqLaunch + 1) % 65536
      let run : Launch := { packet := x.entry x.hqHead, live := m.liveVcns x }
      let m := m.setPart part
        { x with hqHead := (x.hqHead + 1) % 16, hqState := 1, hqLaunch := if n = 0 then 1 else n, run := run }
      let m := x.sites.foldl (fun m t => m.onGraph t fun _ => { live := run.live }) m
      some (if run.packetOk part then m else m.endLaunch part 2 0)) s

/-! ## Reading as a site's graph engine (R178, R271, R323) -/

/-- A walk fault of a site's own unit: reported, with no core waiting. DEDUCED (log 104). -/
def asSite (s : Nat) (f : FInfo) : FInfo :=
  { f with pw := none, side := f.side.map fun x => match x with
    | .trap h perm v _ => .siteTrap h perm v s
    | x => x }

/-- n bytes inside one line, read by a unit of site s from ILV or SEG over links that carry packets (R271, R299). -/
def siteLine (s va n : Nat) : MM (List Byte) := fun m =>
  let r : MM (List Byte) := do
    match m.target (128 * s) va with
    | .dram home => do
      MM.stopIf (!m.reach s home) .noroute va
      let (_, pa) ← xlate home va (128 * s) .load true
      let loc := dramLoc home pa
      homeRead loc n va
    | .noRoute => MM.raise .noroute va
    | _ => MM.raise .page va
  match r m with
  | .error (.fault f) => .error (.fault (asSite s f))
  | x => x

/-- The pieces of a byte range that end at 64-byte lines. -/
def linePieces (a : Nat) : Nat → Nat → List (Nat × Nat)
  | 0, _ => []
  | _ + 1, 0 => []
  | k + 1, n =>
    let c := min n (64 - a % 64)
    (a, c) :: linePieces ((a + c) % 2 ^ 64) k (n - c)

/-- A range read piece by piece. -/
def siteBytes (s : Nat) : List (Nat × Nat) → MM (List Byte)
  | [] => pure []
  | (a, n) :: l => do
    let b ← siteLine s a n
    let bs ← siteBytes s l
    return b ++ bs
/-- DEDUCED (log 104). -/
def siteRead (s va n : Nat) : MM (List Byte) := siteBytes s (linePieces va (n / 64 + 2) n)

/-! ## The image (R324, R325) -/

/-- A node as read: its TCB, successors, and for a COPY its descriptor. A fault names the node. -/
def readNode (s : Nat) (g : Word) (k : Nat) : MM (Except Nat Node) := fun m =>
  let r : MM Node := do
    let tcb ← siteRead s (g.toNat + 64 * k) 64
    let x := leNat tcb
    let ovf ← siteRead s ((g + BitVec.ofNat 64 (fieldOf x 159 128)).toNat) (2 * fieldOf x 107 96)
    let da := BitVec.ofNat 64 (fieldOf x 447 384)
    let desc ← if fieldOf x 3 0 = 1 && da.toNat % 64 == 0 && atMain da then siteRead s da.toNat 64 else pure []
    return { tcb := tcb, succ := inlineSucc x ++ (upFrom 0 (fieldOf x 107 96)).map (halfAt ovf ·), desc := desc }
  match r m with
  | .ok (n, m) => .ok (.ok n, m)
  | .error (.fault f) => .ok (.error k, m.sides f.side)
  | .error e => .error e

/-- Nodes k, k+1, …; the first fault ends it. -/
def readNodes (s : Nat) (g : Word) : List Nat → MM (Except Nat (Tab Node))
  | [] => pure (.ok [])
  | k :: ks => do
    match ← readNode s g k with
    | .error e => return .error e
    | .ok n =>
      match ← readNodes s g ks with
      | .error e => return .error e
      | .ok t => return .ok ((k, n) :: t)

/-- The command of a COPY node, as its site's graph engine pushes it (R331): SCOPE `.part`, WK 0. DEDUCED (log 86). -/
def Module.nodeCmd (m : Module) (site : Nat) (n : Node) : CpCmd :=
  let x := leNat n.desc
  let cid := 128 * site + 8 * n.at 172 169
  { op := match n.at 450 448 with
      | 0 => .cpy | 1 => .cp2d | 2 => .gath | 3 => .scat | _ => .cpyx
    p := BitVec.ofNat 64 (n.at 319 256), q := BitVec.ofNat 64 (n.at 383 320), d := { CpDesc.decode x with scope := 5, wk := false }
    by_ := { cid := cid, super := true, pk := (m.site site).pkey } }

/-- A body range. -/
def Node.inBody (n : Node) (k : Nat) : Bool := n.body0 ≤ k && k ≤ n.body1
/-- Two body ranges that overlap without one containing the other. -/
def crossed (a b : Node) : Bool :=
  a.kind == 3 && b.kind == 3 && a.body0 ≤ b.body1 && b.body0 ≤ a.body1
    && !(a.body0 ≤ b.body0 && b.body1 ≤ a.body1) && !(b.body0 ≤ a.body0 && a.body1 ≤ b.body1)

/-- A node of a valid image (R325), in an image t of nn nodes. DEDUCED (log 103). -/
def Module.nodeOk (m : Module) (x : Part) (nn : Nat) (t : Tab Node) (k : Nat) (n : Node) : Bool :=
  let ns := n.at 30 28
  let zeros (hi lo : Nat) : Bool := n.at hi lo == 0
  n.kind ≤ 6 && zeros 15 4 && zeros 31 31 && zeros 127 108 && zeros 128 128 && ns ≤ 4
    && ((upFrom ns (4 - ns)).all fun j => zeros (16 * j + 47) (16 * j + 32))
    && (n.at 107 96 == 0 || ns == 4) && (n.at 107 96 ≠ 0 || zeros 159 128) && n.succ.length ≤ 4095
    && n.succ.all (· < nn)
    && match n.kind with
      | 0 =>
        zeros 511 448 && n.at 271 256 ≠ 0 && n.at 275 273 ≤ 4 && 11 ≤ n.at 279 276 && n.at 279 276 ≤ 14
          && x.sites.all fun s => (upFrom (128 * s) 128).all fun c => m.vacant c || n.at 279 276 ≤ (m.core c).desc.wssz
      | 1 =>
        let c := m.nodeCmd ((x.sites[n.at 168 160]?).getD 0) n
        zeros 255 173 && zeros 511 451 && n.at 168 160 < x.sites.length && n.at 450 448 ≤ 4 && !n.desc.isEmpty
          && c.fieldsOk (leNat n.desc) && (c.op ≠ .cpyx || !c.spans)
      | 2 => zeros 511 236 && n.ntrue ≤ n.succ.length && n.pred.toNat % 8 == 0 && atMain n.pred
      | 3 =>
        zeros 511 304 && n.ntrue ≤ n.succ.length && n.pred.toNat % 8 == 0 && atMain n.pred && n.body0 ≤ n.body1
          && n.body1 < nn && n.at 303 272 ≠ 0 && !n.inBody k && (n.succ.take n.ntrue).all n.inBody
          && (n.succ.drop n.ntrue).all (fun j => !n.inBody j) && t.all fun e => !crossed n e.2
      | 4 => zeros 511 160
      | 5 => zeros 511 305 && n.at 162 160 == 0 && atSys n.pred
      | _ => zeros 511 160 && n.succ.isEmpty

/-- CRC-32 under the IEEE 802.3 polynomial, reflected. -/
def crcBit (c : Nat) : Nat := if c % 2 = 1 then (c / 2) ^^^ 0xEDB88320 else c / 2
def crcByte (c : Nat) (b : Byte) : Nat := (upFrom 0 8).foldl (fun c _ => crcBit c) (c ^^^ b.toNat)
/-- DEDUCED (log 102). -/
def crc32 (l : List Byte) : Nat := l.foldl crcByte 0xFFFFFFFF ^^^ 0xFFFFFFFF

/-- The bytes of an image: the TCBs, then the overflow lists, in node order. DEDUCED (log 102). -/
def imageBytes (t : Tab Node) : List Byte :=
  t.flatMap (fun e => e.2.tcb) ++ t.flatMap fun e => (e.2.succ.drop (e.2.at 30 28)).flatMap (leBytes 2 ·)

/-- LAUNCH_PACKET: a site that the launch multicast reaches (R516) loads the image and sends its verdict to the root: status, node, CRC. -/
def execLaunchPacket (site : Nat) (s : State) : Out :=
  event (fun m => (m.site site).part.bind fun p =>
    let x := m.part p
    if x.hqState ≠ 1 || (m.site site).graph.loaded || !x.sites.contains site || !m.blockReaches p site then none
    else
      let l := x.run
      match readNodes site l.gbase (upFrom 0 l.nnode) m with
      | .error _ => none
      | .ok (r, m) =>
        let psi := (m.site site).psi
        let m := m.onGraph site fun g => { g with loaded := true }
        some (match r with
          | .error k => m.onRun p fun l => { l with verdicts := Tab.put l.verdicts psi (4, k, 0) }
          | .ok t =>
            let v := match t.find? fun e => !m.nodeOk x l.nnode t e.1 e.2 with
              | some e => (2, e.1, 0)
              | none => (0, 0, crc32 (imageBytes t))
            (m.onGraph site fun g => { g with nodes := t }).onRun p fun l => { l with verdicts := Tab.put l.verdicts psi v })) s

/-- The lowest node that a verdict of a status names. -/
def lowNode (st : Nat) (t : Tab (Nat × Nat × Nat)) : Nat :=
  (t.filter fun e => e.2.1 == st).foldl (fun n e => min n e.2.2.1) 4096

/-- GRAPH_VERDICT. -/
def execGraphVerdict (part : Nat) (s : State) : Out :=
  event (fun m =>
    let x := m.part part
    let v := x.run.verdicts
    if x.hqState ≠ 1 || v.length < x.sites.length || x.sites.isEmpty then none
    else if v.any fun e => e.2.1 == 4 then some (m.endLaunch part 4 (lowNode 4 v))
    else if v.any fun e => e.2.1 == 2 then some (m.endLaunch part 2 (lowNode 2 v))
    else if v.any fun e => some e.2.2.2 ≠ (v.head?.map fun e => e.2.2.2) then some (m.endLaunch part 2 0)
    else some (m.onPart part fun x => { x with hqState := 2, run := { x.run with started := true } })) s

/-! ## Distribution (R326–R328) -/

/-- The live list of a node (R326). DEDUCED (log 100). -/
def liveList (live : List Nat) (n : Node) : List Nat :=
  live.filter fun v => n.slots = 0 || Nat.testBit n.slots (v % 8)

/-- The ranges that list entry i of m owns, as first item and count, ascending (R327). -/
def rangesOf (n : Node) (m i : Nat) : List (Nat × Nat) :=
  let g := n.at 271 256
  let r := (n.items + g - 1) / g
  let js :=
    if n.at 272 272 = 0 then
      let lo := (i * r + m - 1) / m
      upFrom lo (((i + 1) * r + m - 1) / m - lo)
    else (upFrom 0 ((r + m - 1 - i) / m)).map fun k => i + m * k
  js.map fun j => (g * j, min (g * (j + 1)) n.items - g * j)

/-- The node entry of a core, without its ranges (R328). -/
def nodeEnt (x : Part) (k : Nat) (n : Node) : NodeEnt :=
  { launch := x.hqLaunch, node := k, ranges := [], dom := n.at 275 273, entry := BitVec.ofNat 64 (n.at 223 160)
    tcb := x.run.gbase + BitVec.ofNat 64 (64 * k), budget := n.at 319 288, slots := n.slots }

/-- A kernel's ranges join the dispatch queues of a site's cores. -/
def Module.enqueueKernel (m : Module) (s : Nat) (x : Part) (k : Nat) : Module :=
  let g := (m.site s).graph
  let n := g.node k
  let l := liveList g.live n
  let psi := (m.site s).psi
  (upFrom 0 l.length).foldl
    (fun m i =>
      let v := l.getD i 0
      let r := rangesOf n l.length i
      if v / 128 ≠ psi || r.isEmpty then m
      else m.onCore (128 * s + v % 128) fun c => { c with gq := c.gq ++ [{ nodeEnt x k n with ranges := r }] }) m

/-! ## Release and retirement (R331, R335) -/

/-- Admit(s) (R335); with no live core the launch ends (R326). -/
def Module.admitKernel (m : Module) (s p k : Nat) : Module :=
  let g := (m.site s).graph
  if (liveList g.live (g.node k)).isEmpty then m.endLaunch p 4 k
  else if g.admitted.length < 16 then
    (m.onGraph s fun g => { g with admitted := g.admitted ++ [k] }).enqueueKernel s (m.part p) k
  else m.onGraph s fun g => { g with waiting := g.waiting ++ [k] }

/-- COPY nodes that wait enter queue 8, in their order, as far as it has room (R266, R331). DEDUCED (log 86). -/
def Tile.admitNode (t : Tile) : Tile :=
  let l := Tab.get [] t.cpq 8
  let n := 16 - l.length
  if t.cpWait.isEmpty || n = 0 then t
  else { t with cpq := Tab.put t.cpq 8 (l ++ t.cpWait.take n), cpWait := t.cpWait.drop n }

/-- The push of a COPY node at its own site (R331): it waits while queue 8 is full. A command that R279 or R288 forbids is a fault of
the push (R340). DEDUCED (log 86). -/
def Module.pushCopyNode (m : Module) (s p k : Nat) : Module :=
  let n := (m.site s).graph.node k
  if n.at 168 160 ≠ (m.site s).psi then m
  else
    let t := 16 * s + n.at 172 169
    let c := { m.nodeCmd s n with node := some (p, (m.part p).hqLaunch, k), due := m.time + 4
                                  cancel := (m.tile t).cpcancel.contains 8 }
    if !c.formOk then m.endLaunch p 4 k
    else m.onTile t fun x => Tile.admitNode { x with cpWait := x.cpWait ++ [c] }

/-- Release(s) of a node with work of its own. After END nothing is released (R334). -/
def Module.releaseNode (m : Module) (s p k : Nat) : Module :=
  let g := (m.site s).graph
  if g.atEnd || g.stopped then m
  else
    match (g.node k).kind with
    | 0 => m.admitKernel s p k
    | 1 => m.pushCopyNode s p k
    | x =>
      let m := if x = 6 then m.onGraph s fun g => { g with atEnd := true } else m
      if (m.site s).psi = 0 then m.onRun p fun l => { l with todo := l.todo ++ [k] } else m

/-- Retire over a successor list, in order; a nested retirement runs wholly before the list goes on. -/
def Module.retireAll (s p : Nat) : Nat → List Nat → Module → Module
  | 0, _, m => m
  | _ + 1, [], m => m
  | f + 1, k :: rest, m =>
    let n := (m.site s).graph.node k
    let n' := { n with pend := n.pend - 1 }
    let m := m.onGraph s fun g => g.setNode k n'
    Module.retireAll s p f rest
      (if n'.pend ≠ 0 then m
       else if n'.idle then
         if (m.site s).graph.atEnd || (m.site s).graph.stopped then m else Module.retireAll s p f n'.succ m
       else m.releaseNode s p k)

/-- Room for every edge of the graph once. -/
def SiteGraph.fuel (g : SiteGraph) : Nat := g.nodes.foldl (fun a e => a + e.2.succ.length + 1) 4096
def Module.retire (m : Module) (s p : Nat) (l : List Nat) : Module :=
  Module.retireAll s p ((m.site s).graph.fuel + l.length) l m

/-- The events of the stream that some site of a partition has applied (R341). -/
def Module.furthest (m : Module) (x : Part) : Nat := x.sites.foldl (fun a t => max a (m.site t).graph.applied) 0
/-- A site's graph engine goes on: it does until a pre-emption is requested, and from then on only to reach the events that some site
has applied already, so that each is applied everywhere before the save, or nowhere (R341, R343). -/
def Module.catchesUp (m : Module) (s : Nat) (x : Part) : Bool :=
  x.swSt = 0 || (x.swSt = 1 && decide ((m.site s).graph.applied < m.furthest x))

/-- GRAPH_START at a site: counts set, the nodes without predecessors released in ascending order. -/
def execGraphStart (site : Nat) (s : State) : Out :=
  event (fun m => (m.site site).part.bind fun p =>
    let x := m.part p
    let g := (m.site site).graph
    if !x.run.started || g.begun || !g.loaded || !m.catchesUp site x then none
    else
      let nodes := g.nodes.map fun e => (e.1, { e.2 with pend := (e.2.npred : Int), iter := 0 })
      let m := m.onGraph site fun g => { g with begun := true, nodes := nodes }
      some ((nodes.filter fun e => e.2.npred == 0).foldl
        (fun m e =>
          if e.2.idle then
            if (m.site site).graph.atEnd || (m.site site).graph.stopped then m else m.retire site p e.2.succ
          else m.releaseNode site p e.1) m)) s

/-! ## Credits (R330) -/

/-- CREDIT_PARTIAL_SUM: a node's unsent credits reach the root. -/
def execCreditPartialSum (site node : Nat) (s : State) : Out :=
  event (fun m => (m.site site).part.bind fun p =>
    let c := Tab.get 0 (m.site site).graph.credits node
    if c = 0 || (m.part p).swSt ≠ 0 then none
    else
      let m := m.onGraph site fun g => { g with credits := Tab.del g.credits node }
      some (if (m.part p).run.ended then m else m.onRun p fun l => { l with sums := l.sums ++ [(node, c)] })) s

/-- What a node's total must reach. -/
def Node.goal (n : Node) : Nat := if n.kind = 0 then n.items else 1

/-- A node event may take the next place of the stream in a cycle: those of one cycle stand in ascending node order (R330). -/
def Launch.inOrder (l : Launch) (t k : Nat) : Bool := l.last.1 ≠ t || decide (l.last.2 ≤ k)

/-- KERNEL_TOTAL: the sums that have arrived for a node; nodes are taken in ascending order. -/
def execKernelTotal (part node : Nat) (s : State) : Out :=
  event (fun m => (m.part part).root.bind fun r =>
    let x := m.part part
    let mine := x.run.sums.filter (·.1 == node)
    if mine.isEmpty || x.run.sums.any (·.1 < node) || x.swSt ≠ 0 then none
    else
      let total := mine.foldl (fun a e => a + e.2) (Tab.get 0 x.run.totals node)
      let goal := ((m.site r).graph.node node).goal
      let m := m.onRun part fun l =>
        { l with sums := l.sums.filter (·.1 ≠ node), totals := Tab.put l.totals node total }
      if x.hqState ≠ 2 then some m
      else if goal < total then some (m.endLaunch part 3 node)
      else if total ≠ goal then some m
      else if !x.run.inOrder m.time node then none
      else some (m.onRun part fun l => { l with stream := l.stream ++ [.done node], last := (m.time, node) })) s

/-! ## The completion stream (R330–R333, R338, R340) -/

/-- The next event of the stream at a site. -/
def Module.nextEvent (m : Module) (s : Nat) : Option (Nat × GEv) :=
  (m.site s).part.bind fun p =>
    let x := m.part p
    let g := (m.site s).graph
    if !g.begun && !(x.run.ended && !x.run.started) || !m.catchesUp s x then none
    else (x.run.stream[g.applied]?).map fun e => (p, e)

/-- DEDUCED (log 105). -/
def Module.applied (m : Module) (s : Nat) : Module := m.onGraph s fun g => { g with applied := g.applied + 1 }

/-- A kernel's completion frees its place for the oldest waiting kernel (R335). DEDUCED (log 105). -/
def Module.kernelGone (m : Module) (s p k : Nat) : Module :=
  let m := m.onGraph s fun g => { g with admitted := g.admitted.erase k }
  match (m.site s).graph.waiting with
  | w :: rest => (m.onGraph s fun g => { g with waiting := rest }).admitKernel s p w
  | [] => m

/-- A node of a loop's body, armed for the next iteration. -/
def rearm (l : Node) (e : Nat × Node) : Nat × Node :=
  if l.inBody e.1 then (e.1, { e.2 with pend := (e.2.npred : Int), iter := 0 }) else e

/-- LoopDecide at a site (R333). -/
def Module.applyLoop (m : Module) (s p k : Nat) (body : Bool) : Module :=
  let n := (m.site s).graph.node k
  if body then
    let m := m.onGraph s fun g =>
      SiteGraph.setNode { g with nodes := g.nodes.map (rearm n) } k { n with iter := n.iter + 1, pend := (n.at 271 260 : Int) }
    m.retire s p (n.succ.take n.ntrue)
  else
    (m.onGraph s fun g => g.setNode k { n with iter := 0, pend := (n.npred : Int) }).retire s p (n.succ.drop n.ntrue)

/-- COMPLETION_EVENT. -/
def execCompletionEvent (site : Nat) (s : State) : Out :=
  event (fun m => (m.nextEvent site).bind fun (p, e) =>
    let m := m.applied site
    let n (k : Nat) : Node := (m.site site).graph.node k
    if (m.site site).graph.stopped then (match e with
      | .live _ | .stop => none
      | _ => some m)
    else
      match e with
      | .done k =>
        let m := if (n k).kind = 0 then m.kernelGone site p k else m
        some (m.retire site p (n k).succ)
      | .cond k taken => some (m.retire site p (if taken then (n k).succ.take (n k).ntrue else (n k).succ.drop (n k).ntrue))
      | .loop k body => some (m.applyLoop site p k body)
      | .hostsig k => some (m.retire site p (n k).succ)
      | .live _ => none
      | .stop => none) s

/-- The node entry that ranges join: after the matching entry's own ranges, or in a new entry in its place by admission. -/
def joinEnt (adm : List Nat) (e : NodeEnt) : List NodeEnt → List NodeEnt
  | [] => [e]
  | x :: l =>
    if x.launch = e.launch && x.node = e.node then { x with ranges := x.ranges ++ e.ranges } :: l
    else if adm.idxOf e.node < adm.idxOf x.node then e :: x :: l
    else x :: joinEnt adm e l

/-- The unstarted ranges of a vacated VCN move (R338). -/
def Module.moveRanges (m : Module) (s p v : Nat) : Module :=
  let g := (m.site s).graph
  let c := 128 * s + v % 128
  (m.core c).gq.foldl
    (fun m e =>
      let ok (w : Nat) : Bool := w / 128 == v / 128 && !m.vacant (128 * s + w % 128) && (e.slots = 0 || Nat.testBit e.slots (w % 8))
      match ((g.live.filter ok).find? fun w => w % 128 / 8 == v % 128 / 8).orElse fun _ => (g.live.filter ok).head? with
      | some w => m.onCore (128 * s + w % 128) fun c => { c with gq := joinEnt g.admitted e c.gq }
      | none => m.endLaunch p 4 e.node) (m.onCore c fun x => { x with gq := [] })

/-- LIVENESS_EVENT: a site applies a liveness event. -/
def execLivenessEvent (site : Nat) (s : State) : Out :=
  event (fun m => (m.nextEvent site).bind fun (p, e) =>
    match e with
    | .live v =>
      let m := (m.applied site).onGraph site fun g => { g with live := g.live.filter (· ≠ v) }
      some (if v / 128 = (m.site site).psi && !(m.site site).graph.stopped then m.moveRanges site p v else m)
    | _ => none) s

/-- The report of a core that has become vacant, in the stream of a launch under way; its unstarted ranges move where the site applies the
event (R338). -/
def Module.reportVacant (m : Module) (cid : Nat) : Module :=
  match (m.site (siteOf cid)).part with
  | some p =>
    if (m.part p).hqState = 1 || (m.part p).hqState = 2 then
      m.onRun p fun l => { l with stream := l.stream ++ [.live (m.vcn cid)] }
    else m
  | none => m

/-- STOP_EVENT: from here a site releases nothing and queues nothing. DEDUCED (log 101). -/
def execStopEvent (site : Nat) (s : State) : Out :=
  event (fun m => (m.nextEvent site).bind fun (p, e) =>
    match e with
    | .stop =>
      let n := (m.part p).hqLaunch
      let m := (m.applied site).onGraph site fun g => { g with stopped := true, waiting := [] }
      let m := (upFrom (128 * site) 128).foldl
        (fun m c =>
          if (m.core c).gq.isEmpty then m else m.onCore c fun x => { x with gq := x.gq.filter (·.launch ≠ n) }) m
      some (if (m.site site).psi = 0 then m.onRun p fun l => { l with todo := [] } else m)
    | _ => none) s

/-- A write of CANCEL = 1 (R340). -/
def Module.cancelLaunch (m : Module) (p : Nat) : Module := m.endLaunch p 1 0

/-- HQ_CANCEL: the host's write through a port (R383). -/
def execHqCancel (at_ : BlockPort) (s : State) : Out :=
  event (fun m => if m.serves at_.port at_.part then some (m.cancelLaunch at_.part) else none) s

/-! ## The root's own nodes (R331–R334) -/

/-- A node of a kind that the root has to act on, with the root's site. -/
def Module.rootNode (m : Module) (p k kind : Nat) : Option (Nat × Node) :=
  let x := m.part p
  x.root.bind fun r =>
    let n := (m.site r).graph.node k
    if x.hqState = 2 && x.run.todo.contains k && n.kind == kind && x.swSt = 0 && x.run.inOrder m.time k then some (r, n) else none

/-- The node is acted on: its event takes the next place of the stream. -/
def Module.rootDone (m : Module) (p k : Nat) (e : GEv) : Module :=
  m.onRun p fun l => { l with todo := l.todo.erase k, stream := l.stream ++ [e], last := (m.time, k) }

/-- The predicate of a COND or LOOP node, and what follows from it; a fault ends the launch. -/
def Module.decideNode (m : Module) (p k r : Nat) (n : Node) (f : Bool → Module → Module) : Option Module :=
  match siteLine r n.pred.toNat 8 m with
  | .ok (b, m) => some (f (leNat b ≠ 0) m)
  | .error (.fault e) => some ((m.sides e.side).endLaunch p 4 k)
  | .error _ => none

/-- COND_DECISION. -/
def execCondDecision (part node : Nat) (s : State) : Out :=
  event (fun m => (m.rootNode part node 2).bind fun (r, n) =>
    m.decideNode part node r n fun t m => m.rootDone part node (.cond node t)) s

/-- LOOP_DECISION. An iteration counts the body's items afresh. -/
def execLoopDecision (part node : Nat) (s : State) : Out :=
  event (fun m => (m.rootNode part node 3).bind fun (r, n) =>
    m.decideNode part node r n fun t m =>
      let body := t && decide (n.iter < n.at 303 272)
      let m := if body then m.onRun part fun l => { l with totals := l.totals.filter fun e => !n.inBody e.1 } else m
      m.rootDone part node (.loop node body)) s

/-- A store in SYS by the graph root, as a supervisor access of its site (R323, R385, R386). -/
def rootStore (r va : Nat) (bs : List Byte) : MM Unit := fun m =>
  let c := (m.siteCore r).getD (128 * r)
  let x : MM Unit := do
    match ← sysAt c va .store true with
    | .host loc => MM.upd fun m => m.putBytes loc bs
    | .peer i off => do
      let _ ← peerAsk c { m.peerReq c 63 .write i off bs.length true with payload := bs }
  match x m with
  | .error (.fault f) => .error (.fault (asSite r f))
  | y => y

/-- MSI-X vector v of the 2,048 of the partition's serving port (R383). DEDUCED (log 108). -/
def Module.raiseMsi (m : Module) (p v : Nat) : Module :=
  if bit (m.part p).pcie 15 && decide (v < 2048) then { m with msi := (bits (m.part p).pcie 3 0, v) :: m.msi } else m

/-- HOSTSIG_STORE: it completes once its store is acknowledged. DEDUCED (log 108). -/
def execHostsigStore (part node : Nat) (s : State) : Out :=
  event (fun m => (m.rootNode part node 5).bind fun (r, n) =>
    match rootStore r n.pred.toNat (leBytes 8 (n.at 287 224)) m with
    | .ok (_, m) =>
      some ((if n.at 304 304 = 1 then m.raiseMsi part (n.at 303 288) else m).rootDone part node (.hostsig node))
    | .error (.fault e) => some ((m.sides e.side).endLaunch part 4 node)
    | .error (.ask c a) => some (m.putAsk c a)
    | .error .stall => none) s

/-- An activation that carries a completion tag of a launch. -/
def tagged (n : Nat) (c : Ctl) : Bool := bit c.joina 63 && bits c.joina 62 47 == n

/-- No activation, range or COPY command of a partition's launch is left. DEDUCED (log 107). -/
def Module.launchIdle (m : Module) (x : Part) : Bool :=
  let n := x.hqLaunch
  let core (c : Nat) : Bool :=
    let k := m.core c
    !(k.acts.any fun e => tagged n (m.ctlOf c e.1)) && !(k.gq.any (·.launch == n))
      && match k.thief.busy with
        | some b => (match b.loot with
            | some (.range e _ _) => e.launch ≠ n
            | _ => true)
        | none => true
  x.sites.all fun s =>
    ((m.cores.filter fun e => siteOf e.1 == s).all fun e => core e.1)
      && (upFrom (16 * s) 16).all fun t => ((m.tile t).cpWait ++ (m.tile t).cpq.flatMap (·.2)).all fun c =>
        match c.node with
        | some (_, l, _) => l ≠ n
        | none => true

/-- The completion record (R334). DEDUCED (log 106). -/
def completionRec (x : Part) (tend : Nat) : List Byte :=
  leBytes 64 (x.run.at 383 320 + x.hqLaunch * 2 ^ 64 + x.run.status * 2 ^ 80 + x.run.node % 4096 * 2 ^ 84
    + x.run.stream.length % 2 ^ 32 * 2 ^ 96 + tend % 2 ^ 48 * 2 ^ 128)

/-- The launch is over: its sites forget it. DEDUCED (log 106). -/
def Module.closeLaunch (m : Module) (p : Nat) : Module :=
  let x := m.part p
  x.sites.foldl (fun m t => m.onGraph t fun _ => {}) (m.setPart p { x with hqState := 0, run := {} })

/-- GRAPH_END: every event has been applied everywhere, and no work is left. -/
def execGraphEnd (part : Nat) (s : State) : Out :=
  event (fun m =>
    let x := m.part part
    x.root.bind fun r =>
      let done := x.run.todo.any fun k => ((m.site r).graph.node k).kind == 6
      let all := x.sites.all fun t => (m.site t).graph.applied == x.run.stream.length
      if !(x.hqState == 3 || (x.hqState == 2 && done)) || !all || !m.launchIdle x || x.swSt ≠ 0 then none
      else
        match rootStore r (x.run.at 255 192) (completionRec x m.fabNow) m with
        | .ok (_, m) => some ((if x.run.at 272 272 = 1 then m.raiseMsi part (x.run.at 271 256) else m).closeLaunch part)
        | .error (.fault e) => some ((m.sides e.side).closeLaunch part)
        | .error (.ask c a) => some (m.putAsk c a)
        | .error .stall => none) s

end Sys2Proof.Machine
end

