-- ==== Sys2Proof/Machine/Copy.lean ====
section
/-!
DEFINITION. The copy engine (R266–R291, R407, R408, R418, R431): commands at commit, their pieces, stalls and late faults,
chunks, pins, table loads and completion.
-/
namespace Sys2Proof.Machine

/-! ## Commands at commit (R268) -/

/-- The commit of a copy command in its queue. -/
def cpPush (i : Instr) (sig : EngSig) (a : Opnd) (sq : Nat) (rm : Option Nat) (c : CpCmd) (pc : Word) : Run After := do
  let s ← get
  let t := tileOf s.cid
  let q := if sq = 0 then slotOf s.cid else 7 + sq
  Run.stallIf (16 ≤ (Tab.get [] (s.m.tile t).cpq q).length)
  let b ← pushIssuer i true sig a rm pc
  Run.onM fun m => m.onTile t fun x =>
    { x with cpq := Tab.put x.cpq q (Tab.get [] x.cpq q ++ [{ c with by_ := b, due := m.time + 4, cancel := x.cpcancel.contains q }]) }
  return .step b.seq b.job

/-- The descriptor at an LM offset, as one number. -/
def readDesc (h : Word) : Run Nat := do
  Run.stopIf (h.toNat % 64 ≠ 0) .misalign h.toNat
  Run.stopIf (decide (0x80000 ≤ h.toNat)) .page h.toNat
  let s ← get
  return leNat (← Run.lift (lmLoad s.cid s.cid h.toNat 64 s.super h.toNat))

/-- A copy command of one of the forms of R407. -/
def copyBody (i : Instr) (op : CpOp) (f : CpF) (pc : Word) : Run After := do
  Run.stopIf (f.sq ≠ 0#2 && !(← get).super) .priv
  let l ← operands [⟨f.p, f.kp, .addr⟩, ⟨f.q, f.kq, .addr⟩, ⟨f.h, f.kh, .addr⟩] (some (.reg, f.a))
  let h := arg l 2
  let s ← get
  let c : CpCmd := { op := op, p := arg l 0, q := arg l 1, h := h, by_ := { cid := s.cid, super := s.super } }
  if op = .cpy && !f.dsc then do
    let c := { c with d := { len := bits h 31 0 } }
    Run.stopIf (bits h 63 32 ≠ 0 || !c.groupOk) .illop
    cpPush i f.sig f.a f.sq.toNat none c pc
  else do
    let x ← readDesc h
    let c := { c with d := CpDesc.decode x }
    Run.stopIf (!s.m.descOk c x) .illop
    Run.stopIf (op = .cpyx && c.spans) .span
    cpPush i f.sig f.a f.sq.toNat (if op = .cpyx then xfRm c.d.xf c.d.par else none) c pc

/-- CPY, and CPY.ds. -/
def execCpy (f : CpF) (s : State) : Out := runInstr false (copyBody (.cpy f) .cpy f) s
/-- CP2D. -/
def execCp2d (f : CpF) (s : State) : Out := runInstr false (copyBody (.cp2d f) .cp2d f) s
/-- GATH (R431). -/
def execGath (f : CpF) (s : State) : Out := runInstr false (copyBody (.gath f) .gath f) s
/-- SCAT (R431). -/
def execScat (f : CpF) (s : State) : Out := runInstr false (copyBody (.scat f) .scat f) s
/-- CPYX (R408). -/
def execCpyx (f : CpF) (s : State) : Out := runInstr false (copyBody (.cpyx f) .cpyx f) s

/-- DTLD (R286, R418). -/
def execDtld (f : DtldF) (s : State) : Out :=
  runInstr false (fun pc => do
    Run.stopIf (f.sq ≠ 0#2 && !(← get).super) .priv
    let l ← operands [⟨f.q, f.kq, .addr⟩, ⟨f.h, f.kh, .addr⟩] (some (.reg, f.a))
    let q := arg l 0; let h := arg l 1
    let n := bits h 12 4
    Run.stopIf (q.toNat % 8 ≠ 0 || n = 0 || decide (256 < n) || bits h 63 13 ≠ 0) .illop
    cpPush (.dtld f) f.sig f.a f.sq.toNat none { op := .dtld, q := q, h := h, d := { len := n } } pc) s

/-! ## Queues (R266) -/

def Tile.cpHead (t : Tile) (q : Nat) : Option CpCmd := (Tab.get [] t.cpq q).head?
/-- The running head of a queue. -/
def Tile.cpRun (t : Tile) (q : Nat) : Option CpCmd := (t.cpHead q).filter (·.started)
def Module.cpSet (m : Module) (tile q : Nat) (c : CpCmd) : Module :=
  m.onTile tile fun t => { t with cpq := Tab.put t.cpq q (c :: (Tab.get [] t.cpq q).drop 1) }

/-- A binding of the core names a job. -/
def Core.bindsJob (c : Core) (job : Nat) : Bool := c.ports.binds.any (·.job == job)

/-- The head is gone: kept while it is among the core's 16 latest jobs or a binding names it (R277, R278), and without its pins; the
next starts at the earliest in the next cycle. -/
def Module.cpDrop (m : Module) (tile q : Nat) (c : CpCmd) : Module :=
  let m := m.onTile tile fun t =>
    let l := (Tab.get [] t.cpq q).drop 1
    Tile.admitNode { t with cpq := Tab.put t.cpq q (match l with
      | n :: l => { n with due := max n.due (m.time + 1) } :: l
      | [] => []) }
  if c.node.isSome then m
  else m.onCore c.by_.cid fun x =>
    let t := Tab.put x.cpLog c.by_.job { c with pins := [] }
    { x with cpLog := t.filter fun e => decide ((((x.jobCp.last : Int) - e.1) % 65535).toNat < 16) || x.bindsJob e.1 }

/-- The bindings that name pieces beyond a command's last have ended with its last piece (R277). -/
def Module.endBinds (m : Module) (c : CpCmd) : Module :=
  m.onCore c.by_.cid fun x =>
    { x with ports := { x.ports with binds := x.ports.binds.filter fun b => !(b.job == c.by_.job && decide (c.pieces ≤ b.next)) } }

/-- The end of a command in a late fault; a COPY node's ends its launch (R274, R331). -/
def Module.cpLate (m : Module) (tile q : Nat) (c : CpCmd) (x : Cause) (a : Word) : Module :=
  let m := m.cpDrop tile q c
  match c.node with
  | some (p, _, k) => m.endLaunch p 4 k
  | none => m.engineLate true q c.by_ x a

/-- A byte range that meets GROUP. -/
def meetsGroup (a : Word) (n : Nat) : Bool := n ≠ 0 && (atGroup a || atGroup (a + BitVec.ofNat 64 (n - 1)))
/-- A command that a GROUP read or a table decode depends on (R286): some run, element or index of it lies in GROUP, or it is coded.
An index that cannot be read yet counts as 0. DEDUCED (log 84). -/
def Module.usesTable (m : Module) (q : Nat) (c : CpCmd) : Bool :=
  c.op ≠ .dtld && ((c.op == .cpyx && (c.d.xf == 1 || c.d.xf == 2))
    || ((c.op == .gath || c.op == .scat) && meetsGroup c.d.idx (4 * c.d.n1))
    || c.d.runs.any fun r =>
      let i := match c.idxAt q r.1 m with
        | .ok (i, _) => i
        | .error _ => 0
      meetsGroup (c.runSrc r.1 r.2 i) c.d.len || meetsGroup (c.runDst r.1 r.2 i) c.d.runOut)
/-- A matrix command with G = 1. -/
def MxCmd.usesTable (c : MxCmd) : Bool :=
  match c.op with
  | .ld | .mma => (mxSrc c.p).g
  | _ => false

/-- The users of a group's tables at the start of a DTLD in queue q of a tile (R286): unit, core, job. Commands behind the
DTLD in its own queue cannot end before it and are not waited for. DEDUCED (log 84). -/
def Module.tableUsers (m : Module) (tile q : Nat) : List (Bool × Nat × Nat) :=
  (upFrom (tile / 4 * 4) 4).flatMap fun t =>
    let x := m.tile t
    ((x.cpq.filter fun e => !(t == tile && e.1 == q)).flatMap fun e =>
        (e.2.filter fun c => m.usesTable e.1 c && c.node.isNone).map fun c => (true, c.by_.cid, c.by_.job))
      ++ x.mxq.flatMap fun e => (e.2.filter MxCmd.usesTable).map fun c => (false, c.by_.cid, c.by_.job)

/-- A user that has not ended. DEDUCED (log 84). -/
def Module.stillUses (m : Module) (u : Bool × Nat × Nat) : Bool :=
  let x := m.tile (tileOf u.2.1)
  if u.1 then x.cpq.any fun e => e.2.any fun c => c.node.isNone && c.by_.cid == u.2.1 && c.by_.job == u.2.2
  else x.mxq.any fun e => e.2.any fun c => c.by_.cid == u.2.1 && c.by_.job == u.2.2

/-- COPY_COMMAND_START: the head of a queue starts, or is cancelled behind a late fault (R248). -/
def execCopyCommandStart (tile q : Nat) (s : State) : Out :=
  event (fun m =>
    let t := m.tile tile
    (t.cpHead q).bind fun c =>
      if c.started || t.frozen then none
      else if c.cancel then
        let m := m.cpDrop tile q c
        some (match c.node with
          | some (p, _, k) => m.endLaunch p 4 k
          | none => m.engineCancel true c.by_)
      else if m.time < c.due || !m.sigReady tile c.by_.sig then none
      else
        let c := { c with started := true, users := if c.op = .dtld then m.tableUsers tile q else [] }
        let m := m.cpSet tile q c
        some (if c.node.isSome then m else m.setJob c.by_.cid true c.by_.job .running)) s

/-! ## Reads and writes of a command (R271) -/

/-- Source bytes, split at 64-byte lines. -/
def cpRead (c : CpCmd) (q : Nat) : List (Nat × Nat) → MM (List Byte)
  | [] => pure []
  | (a, n) :: l => do
    let b ← loadAt c.by_.cid (cpWho q) a n c.by_.super false
    let bs ← cpRead c q l
    return b ++ bs
def cpSource (c : CpCmd) (q a n : Nat) : MM (List Byte) := cpRead c q (linePieces (a % 2 ^ 64) (n / 64 + 2) n)

/-- Destination bytes, split likewise. -/
def cpWrite (c : CpCmd) (q : Nat) (bs : List Byte) : List (Nat × Nat) → MM Unit
  | [] => pure ()
  | (a, n) :: l => do
    storeAt c.by_.cid (cpWho q) a (bs.take n) c.by_.super false
    cpWrite c q (bs.drop n) l
def cpStore (c : CpCmd) (q a : Nat) (bs : List Byte) : MM Unit :=
  cpWrite c q bs (linePieces (a % 2 ^ 64) (bs.length / 64 + 2) bs.length)

/-- The bytes that stand at a destination in the module, for addland: an access that writes (R271, R281). -/
def oldAt (c : CpCmd) (va n : Nat) : MM (List Byte) := do
  let cid := c.by_.cid
  let m ← get
  match m.target cid va with
  | .lm t off => do
    keyLm cid t va
    lmCheck cid t off n .write c.by_.super va
    readWords (m.lmAt t off) n va
    return (← get).lmRead t off n
  | .dram home => do
    let (_, loc) ← dramAt cid home va .store c.by_.super
    homeRead loc n va
  | .sys => do
    match ← sysAt cid va .store c.by_.super with
    | .host loc => return (← get).rd loc n
    | .peer _ _ => MM.raise .noroute va
  | .nowhere => MM.raise .page va
  | .noRoute => MM.raise .noroute va
  | _ => MM.raise .perm va

/-- The peer and offset of a SYS address, where it names one. -/
def peerAt (c : CpCmd) (va : Nat) : MM (Option (Nat × Nat)) := do
  let m ← get
  match m.target c.by_.cid va with
  | .sys => do
    match ← sysAt c.by_.cid va .store c.by_.super with
    | .host _ => return none
    | .peer i off => return some (i, off)
  | _ => return none

/-- The request by which a peer's home updates one addland element (R281): the element, the unit's number and what rounding
takes. The reply carries the old element. DEDUCED (log 124). -/
def CpCmd.addReq (c : CpCmd) (m : Module) (q i off n u : Nat) (src : List Byte) : Packet :=
  { m.peerReq c.by_.cid (cpWho q) .atomic i off n c.by_.super with
    xf := 6, par := c.d.par, seed := c.by_.seed, sw := setBits c.by_.sw 47 16 c.by_.rshc.toNat
    c := BitVec.ofNat 64 (leNat src), d := BitVec.ofNat 64 u }

/-- A block of group memory replaced whole, with its buffer invalidated (R171, R288). -/
def putBlock (gid : Nat) (va : Word) (h : Nat) (p : List Byte) : MM Unit :=
  match windowOf va.toNat with
  | some (.group, o) => MM.upd fun m => m.onGroup gid fun g =>
      { g with blocks := Tab.put g.blocks (o / 256) (h, p), bufs := g.bufs.filter (·.1 ≠ o / 256)
               bad := g.bad.filter (· ≠ o / 256), hit := g.hit.filter (· ≠ o / 256) }
  | _ => MM.raise .page va.toNat

/-! ## One piece (R266, R279, R288) -/

/-- What rounding under RSH takes from the commit (R148). DEDUCED (log 81). -/
def CpCmd.rsh (c : CpCmd) : Rsh := ⟨c.by_.seed, c.by_.rshc, c.by_.sw⟩

/-- The next n source bytes of a run, from address a, of `left` that the run still has. They are read by whole aligned 8-byte pieces:
what such a piece holds beyond them stays ahead (R199, R271). -/
def cpTake (c : CpCmd) (q a n left : Nat) : MM (List Byte × CpCmd) := do
  let k := c.ahead.length
  let upto := min left ((a + n + 7) / 8 * 8 - a)
  let b ← if n ≤ k then pure [] else cpSource c q (a + k) (upto - k)
  return ((c.ahead ++ b).take n, { c with ahead := (c.ahead ++ b).drop n })

/-- The first n of the destination bytes that wait are written, from the destination of the byte at the command's offset on. -/
def cpFlush (c : CpCmd) (q dst n : Nat) : MM CpCmd := do
  cpStore c q dst (c.tail.take n)
  return { c with off := c.off + n, tail := c.tail.drop n }

/-- An action, or another where it faults. -/
def orElseFault {α : Type} (a b : MM α) : MM α := fun m =>
  match a m with
  | .error (.fault _) => b m
  | r => r

/-- One 64-byte piece of destination (R266): `need` says how many bytes complete it, and `make k` computes about k further units from
the source. Where a fault stops them, one unit is tried, and then the bytes that wait are written as they are, so that every byte
below the offset of a stall is performed (R273). -/
def cpAdvance (c : CpCmd) (q dst : Nat) (need : CpCmd → Nat) (k : Nat) (make : Nat → MM CpCmd) : MM CpCmd :=
  let out (c : CpCmd) : MM CpCmd := if need c ≤ c.tail.length then cpFlush c q dst (need c) else pure c
  if need c ≤ c.tail.length then cpFlush c q dst (need c)
  else
    orElseFault (do out (← make k))
      (if c.tail.isEmpty then do out (← make 1) else orElseFault (do out (← make 1)) (cpFlush c q dst c.tail.length))

/-- The next record of a coded source (R280, R283): header, payload, and its size. DEDUCED (log 80). -/
def cpRecord (c : CpCmd) (q : Nat) : MM (Nat × List Byte × Nat × CpCmd) := do
  let a := c.q.toNat + c.soff
  let left := c.d.len - c.soff
  MM.stopIf (left < 8) .badopnd a
  let (head, c) ← cpTake c q a 8 left
  let size := (4 + recLen (leNat (head.take 4)) + 7) / 8 * 8
  MM.stopIf (recBad (leNat (head.take 4)) || decide (left < size)) .badopnd a
  let (b, c) ← cpTake c q (a + 8) (size - 8) (left - 8)
  return (leNat (head.take 4), ((head ++ b).drop 4).take (recLen (leNat (head.take 4))), size, c)

/-- The next block of a record-coded copy whose destination is not GROUP: a record expanded, or a block encoded, behind the bytes that
wait. DEDUCED (log 80). -/
def cpBlock (c : CpCmd) (q : Nat) : MM CpCmd := do
  let gid := groupOf c.by_.cid
  if c.d.xf = 1 then do
    let (h, p, size, c') ← cpRecord c q
    let g := (← get).group gid
    MM.stopIf (g.stale h) .staletbl (c.q.toNat + c.soff)
    return { c' with soff := c.soff + size, tail := c.tail ++ decodeBlock h p (g.table (recSlot h)) }
  else do
    let (b, c') ← cpTake c q (c.q.toNat + c.soff) 256 (c.d.len - c.soff)
    let m ← get
    let g := m.group gid
    let slot := fieldOf c.d.par 3 0
    let (h, p) := encodeBlock (fieldOf c.d.par 4 4 == 1) slot (g.gen slot) (g.table slot) b
    return { c' with soff := c.soff + 256, tail := c.tail ++ recBytes m.time (c.off + c.tail.length) h p }

/-- A block written to GROUP (R288): a source block as it stands, encoded, or a record installed. -/
def cpInstall (c : CpCmd) (q src left : Nat) : MM CpCmd := do
  let gid := groupOf c.by_.cid
  let dst := c.p + BitVec.ofNat 64 c.off
  if c.op = .cpyx ∧ c.d.xf = 1 then do
    let (h, p, size, c') ← cpRecord c q
    putBlock gid dst h p
    return { c' with soff := c.soff + size, off := c.off + 256 }
  else do
    let (b, c') ← cpTake c q src 256 left
    if c.op = .cpyx ∧ c.d.xf = 2 then do
      let g := (← get).group gid
      let slot := fieldOf c.d.par 3 0
      let (h, p) := encodeBlock (fieldOf c.d.par 4 4 == 1) slot (g.gen slot) (g.table slot) b
      putBlock gid dst h p
      return { c' with soff := c.soff + 256, off := c.off + 256 }
    else do
      putBlock gid dst (6 + 256 * 2 ^ 11) b
      return { c' with off := c.off + 256 }

/-- A piece of a record-coded copy. -/
def cpCoded (c : CpCmd) (q : Nat) : MM CpCmd :=
  if atGroup c.p then cpInstall c q (c.q.toNat + c.soff) (c.d.len - c.soff)
  else
    let dst := (c.p + BitVec.ofNat 64 c.off).toNat
    let need (x : CpCmd) : Nat := if x.d.len ≤ x.soff then min (64 - dst % 64) x.tail.length else 64 - dst % 64
    cpAdvance c q dst need 1 fun _ => cpBlock c q

/-- k further units of a run, behind the bytes that wait: `src` is the source of the unit that follows those bytes, `left` what the run
still has there. -/
def cpUnits (c : CpCmd) (q src left su du k : Nat) : MM CpCmd := do
  let (b, c) ← cpTake c q src (k * su) left
  let u0 := (c.off + c.tail.length) / du
  let out := (upFrom 0 k).map fun u => unitXf c.d.xf c.d.par c.rsh (u0 + u) ((b.drop (u * su)).take su) []
  return { c with tail := c.tail ++ (if c.d.xf = 0 then b else out.flatMap (·.1))
                  flags := if c.d.xf = 0 then c.flags else out.foldl (fun a e => a ||| e.2) c.flags }

/-- k elements of an addland, each read and written at its place in one event (R281). -/
def cpAdd (c : CpCmd) (q dst src left su du k : Nat) : MM CpCmd := do
  let (b, c) ← cpTake c q src (k * su) left
  let old ← oldAt c dst (k * du)
  let out := (upFrom 0 k).map fun u =>
    unitXf c.d.xf c.d.par c.rsh (c.off / du + u) ((b.drop (u * su)).take su) ((old.drop (u * du)).take du)
  cpStore c q dst (out.flatMap (·.1))
  return { c with off := c.off + k * du, flags := out.foldl (fun a e => a ||| e.2) c.flags }

/-- An element of an addland at a peer module: its source is read once, before it is asked for (R281). -/
def cpAddPeer (c : CpCmd) (q peer off src left su du : Nat) : MM CpCmd := do
  if c.ahead.length < su then do
    let (b, c) ← cpTake c q src su left
    return { c with ahead := b ++ c.ahead }
  else do
    let b := c.ahead.take su
    let old ← peerAsk c.by_.cid (c.addReq (← get) q peer off du (c.off / du) b)
    let (_, fl) := unitXf c.d.xf c.d.par c.rsh (c.off / du) b old
    return { c with off := c.off + du, ahead := c.ahead.drop su, flags := c.flags ||| fl }

/-- A piece of any other copy. -/
def cpPlain (c : CpCmd) (q : Nat) : MM CpCmd := do
  let (su, du) := (unitOf c.d.xf c.d.par).getD (1, 1)
  let w := c.d.runOut
  let r := c.off / w
  let i1 := r % c.d.n1; let i2 := r / c.d.n1
  let idx ← c.idxAt q i1
  let c := if c.op = .gath || c.op = .scat then { c with idxs := Tab.put c.idxs i1 idx } else c
  let o := c.off % w
  let at_ := (o + c.tail.length) / du
  let dst := (c.runDst i1 i2 idx + BitVec.ofNat 64 o).toNat
  let src := (c.runSrc i1 i2 idx + BitVec.ofNat 64 (at_ * su)).toNat
  let left := (w / du - at_) * su
  let room := min (64 - dst % 64) (w - o)
  if atGroup c.p && c.op ≠ .scat then cpInstall c q src left
  else if c.d.xf = 6 then do
    match ← peerAt c dst with
    | some (peer, off) => cpAddPeer c q peer off src left su du
    | none => orElseFault (cpAdd c q dst src left su du (max 1 (room / du))) (cpAdd c q dst src left su du 1)
  else cpAdvance c q dst (fun _ => room) ((room - c.tail.length + du - 1) / du) (cpUnits c q src left su du)

/-- The entries of a DTLD, by 64-byte lines. -/
def cpEntries (c : CpCmd) (q : Nat) : MM CpCmd := do
  let a := (c.q + BitVec.ofNat 64 c.off).toNat
  let n := min (2 * c.d.len - c.off) (64 - a % 64)
  let b ← cpSource c q a n
  return { c with off := c.off + n, entries := c.entries ++ (upFrom 0 (n / 2)).map (halfAt b ·) }

def cpPiece (c : CpCmd) (q : Nat) : MM CpCmd :=
  match c.op, c.d.xf with
  | .dtld, _ => cpEntries c q
  | .cpyx, 1 | .cpyx, 2 => cpCoded c q
  | _, _ => cpPlain c q

/-! ## Chunks (R272) -/

/-- The end of the chunk that holds offset o, as far as the run goes. -/
def CpCmd.chunkEnd (c : CpCmd) (q o : Nat) : MM Nat := do
  let w := if c.op = .cpyx && (c.d.xf = 1 || c.d.xf = 2) then c.total else c.d.runOut
  let a ← c.dstAt q o
  return min (o + 256 - a % 256) (o / w * w + w)

/-- The offset lies at a chunk's end. -/
def Module.atChunk (m : Module) (c : CpCmd) (q : Nat) : Bool :=
  c.op == .dtld || c.moved || c.off == 0 ||
    match c.chunkEnd q (c.off - 1) m with
    | .ok (e, _) => e == c.off
    | .error _ => true

/-- The next chunk to be decremented: its size. -/
def Module.dueChunk (m : Module) (c : CpCmd) (q : Nat) : Option Nat :=
  if c.d.bar = 0#64 || c.op = .dtld || c.off ≤ c.dec then none
  else
    match c.chunkEnd q c.dec m with
    | .ok (e, _) => if e ≤ c.off then some (e - c.dec) else if c.moved then some (c.off - c.dec) else none
    | .error _ => none

/-- PENDING_BYTE_DECREMENT (R227, R272): a decrement whose object faults is discarded and contained. -/
def execPendingByteDecrement (tile q : Nat) (s : State) : Out :=
  event (fun m => ((m.tile tile).cpRun q).bind fun c => (m.dueChunk c q).bind fun n =>
    let c' := { c with dec := c.dec + n }
    let b := c.by_
    let r : MM Unit := do
      let (loc, dram) ← barAt b.cid c.d.bar.toNat b.super
      MM.home fun m => m.barSub loc dram n
    match r m with
    | .ok (_, m) => some (m.cpSet tile q c')
    | .error (.fault f) =>
      some ((m.sides f.side).homeContain (m.servedAt b.cid c.d.bar.toNat) b.cid { cause := f.cause.code, addr := f.addr, aidv := b.aid / 2 ^ 32, aids := b.aid % 2 ^ 32 }
        |>.cpSet tile q c')
    | .error (.ask k a) => some (m.putAsk k a)
    | .error .stall => none) s

/-! ## Pins (R275) -/

/-- A command runs under the translations that it holds: its pins stand in the TLBs while it moves. -/
def Module.withPins (m : Module) (c : CpCmd) : Module :=
  c.pins.foldl (fun m e => m.onSite e.1 fun x => { x with tlb := e.2 :: x.tlb }) m
/-- The TLBs as they were. -/
def Module.oldTlbs (m old : Module) (c : CpCmd) : Module :=
  c.pins.foldl (fun m e => m.onSite e.1 fun x => { x with tlb := (old.site e.1).tlb }) m

/-- The pin of one page for an access. -/
def pinPage (c : CpCmd) (a : Acc) (vpn : Nat) : MM (Nat × TlbEnt) := do
  let cid := c.by_.cid
  let va := vpn * 65536
  let m ← get
  let home ← match m.target cid va with
    | .dram h => do
      keyHome cid h va
      pure h
    | .sys => pure (siteOf cid)
    | .noRoute => MM.raise .noroute va
    | _ => MM.raise .page va
  let (leaf, _) ← xlate home va cid a c.by_.super
  return (home, ⟨vpn, pteType leaf == 2 && leafIsBlock (← get) home va, leaf⟩)
where
  /-- The translation in force is a 512 MiB block. -/
  leafIsBlock (m : Module) (home va : Nat) : Bool := ((tlbFind (m.site home).tlb va).map (·.block)).getD false

/-- DESIGN CHOICE (log 85). -/
def pinAll (c : CpCmd) (a : Acc) : List Nat → MM (List (Nat × TlbEnt))
  | [] => pure []
  | v :: vs => do
    let p ← pinPage c a v
    let ps ← pinAll c a vs
    return p :: ps

/-! ## Progress (R273, R274) -/

/-- A stall's report in place of the home's fault report. -/
def CpCmd.stallSide (c : CpCmd) (f : FInfo) : List Side :=
  f.side.map fun x => match x with
    | .trap h perm _ cid => .copyTrap h perm cid c.by_.job c.off f.addr
    | x => x

/-- How a command's next action ends. -/
inductive CpNext where
  | moved (c : CpCmd) (m : Module)
  /-- Refused by a walk: stalled, and reported. -/
  | stall (c : CpCmd) (m : Module)
  | late (x : Cause) (a : Word) (m : Module)
  /-- It waits: for room, for an answer, or for a bank. -/
  | wait (m : Module)
  deriving DecidableEq, Repr

/-- An action of a command that is not stalled. -/
def CpCmd.act (c : CpCmd) (r : MM CpCmd) (m : Module) : CpNext :=
  match r (m.withPins c) with
  | .ok (c', m') => .moved c' (m'.oldTlbs m c)
  | .error (.fault f) =>
    if f.pw.isSome then .stall { c with stall := some (f.addr, f.cause == .perm) } (m.sides (c.stallSide f))
    else .late f.cause f.addr (m.sides f.side)
  | .error (.ask cid a) => .wait (m.putAsk cid a)
  | .error .stall => .wait m

/-- The pins of a home that copies hold. -/
def Module.pinsAt (m : Module) (site : Nat) : Nat :=
  m.tiles.foldl (fun a t => a + (t.2.cpq.flatMap fun e => e.2.flatMap fun c => c.pins.filter (·.1 == site)).length) 0

/-- Every home has the capacity for a command's pins beside those it holds (R275). DESIGN CHOICE (log 85). -/
def Module.pinsFit (m : Module) (l : List (Nat × TlbEnt)) : Bool :=
  (l.map (·.1)).all fun s => decide (m.pinsAt s + (l.filter (·.1 == s)).length ≤ Config.pinCapacity)

/-- The pinning of a CPYX; where a home is short of capacity it answers RETRY, and the engine waits as R60 says. -/
def CpCmd.pin (c : CpCmd) : MM CpCmd := do
  let a ← pinAll c .load (c.pages false [])
  let b ← pinAll c .store (c.pages true [])
  let m ← get
  if m.pinsFit (a ++ b) then return { c with pins := a ++ b, pinned := true, tries := 0 }
  else return { c with due := m.time + 64 * 2 ^ min c.tries 6, tries := c.tries + 1 }

/-- A new run's first byte waits until the chunks of the run before it have been decremented. -/
def CpCmd.runBlocked (c : CpCmd) : Bool := c.d.bar ≠ 0#64 && c.op ≠ .dtld && c.dec < c.off && c.d.runOut ≠ 0 && c.off % c.d.runOut == 0

/-- The head of a queue and its next action: pinning (true) or a piece. A frozen engine stops at a chunk boundary (R290).
DESIGN CHOICE (log 79). -/
def Module.cpTurn (m : Module) (tile q : Nat) (pin : Bool) : Option (CpCmd × CpNext) :=
  let t := m.tile tile
  (t.cpRun q).bind fun c =>
    let pins := c.op == .cpyx && !c.pinned
    if c.stall.isSome || c.moved && !pins || pins ≠ pin || (pins && m.time < c.due) || c.runBlocked || (t.frozen && m.atChunk c q) then none
    else some (c, if pin then c.act c.pin m else c.act (cpPiece c q) m)

/-- A running head that a RETRY or a want of space holds at its offset (R273): it waits, and no answer to a request of its own is on its
way but one that will be sent again. -/
def Module.cpHeld (m : Module) (tile q : Nat) : Bool :=
  match m.cpTurn tile q false with
  | some (c, .wait _) => (m.core c.by_.cid).ni.slots.all fun e =>
      e.2.req.actKey ≠ cpWho q || e.2.ans ≠ .none_
        || m.pkts.any fun p => p.2.src == c.by_.cid && p.2.slot == e.1 && p.2.kind == e.2.req.kind && p.2.seq == e.2.req.seq && p.2.phase == 3
  | _ => false

/-- A queue whose head can move, so that the engine serves it before those behind it. -/
def Module.cpReady (m : Module) (tile q : Nat) : Bool :=
  match (m.cpTurn tile q true).orElse fun _ => m.cpTurn tile q false with
  | some (_, .wait _) | none => false
  | _ => true

/-- The queues that the engine serves before queue q: of the system queues 8 before 9, and both before the others, which are taken
round robin (R266). -/
def Tile.cpBefore (t : Tile) (q : Nat) : List Nat :=
  if q = 8 then []
  else if q = 9 then [8]
  else [8, 9] ++ ((upFrom 1 8).map fun k => (t.cpLast + k) % 8).takeWhile (· ≠ q)

/-- The action of a queue that the engine serves now. -/
def Module.cpAction (m : Module) (tile q : Nat) (pin : Bool) : Option (CpCmd × CpNext) :=
  if ((m.tile tile).cpBefore q).any (m.cpReady tile) then none else m.cpTurn tile q pin

/-- Queue q has been served. -/
def Module.cpServed (m : Module) (tile q : Nat) (c : CpCmd) : Module :=
  (m.cpSet tile q c).onTile tile fun t => { t with cpLast := if q < 8 then q else t.cpLast }

/-- CPYX_PINNING. DESIGN CHOICE (log 85). -/
def execCpyxPinning (tile q : Nat) (s : State) : Out :=
  event (fun m => (m.cpAction tile q true).bind fun (_, n) =>
    match n with
    | .moved c m => some (m.cpServed tile q c)
    | .wait m => some m
    | _ => none) s

/-- COPY_PIECE. DESIGN CHOICE (log 79). -/
def execCopyPiece (tile q : Nat) (s : State) : Out :=
  event (fun m => (m.cpAction tile q false).bind fun (_, n) =>
    match n with
    | .moved c m => some (m.cpServed tile q c)
    | .wait m => some m
    | _ => none) s

/-- Either action of a queue's head. -/
def Module.cpEither (m : Module) (tile q : Nat) : Option (CpCmd × CpNext) :=
  (m.cpAction tile q true).orElse fun _ => m.cpAction tile q false

/-- COPY_STALL. -/
def execCopyStall (tile q : Nat) (s : State) : Out :=
  event (fun m => (m.cpEither tile q).bind fun (_, n) =>
    match n with
    | .stall c m => some (m.cpSet tile q c)
    | _ => none) s

/-- COPY_LATE_FAULT. -/
def execCopyLateFault (tile q : Nat) (s : State) : Out :=
  event (fun m => (m.cpEither tile q).bind fun (c, n) =>
    match n with
    | .late x a m => some (m.cpLate tile q c x a)
    | _ => none) s

/-! ## Table loads and completion (R272, R286) -/

/-- DTLD_TABLE_CHANGE. -/
def execDtldTableChange (tile q : Nat) (s : State) : Out :=
  event (fun m => ((m.tile tile).cpRun q).bind fun c =>
    if c.op ≠ .dtld || !c.moved || c.pinned || c.users.any m.stillUses then none
    else
      let slot := bits c.h 3 0
      let ents := c.entries.take c.d.len
      let m := m.onGroup (tile / 4) fun g =>
        let mine (b : Nat) : Bool :=
          let h := (Tab.get (0, []) g.blocks b).1
          (recMode h == 4 || recMode h == 5) && recSlot h == slot
        { g with tables := Tab.put g.tables slot (ents ++ List.replicate (256 - ents.length) 0)
                 gens := Tab.put g.gens slot ((g.gen slot + 1) % 16), bufs := g.bufs.filter fun e => !mine e.1 }
      some (m.cpSet tile q { c with pinned := true })) s

/-- The wake-up that closes a command with WK = 1. -/
def Module.closeWake (m : Module) (c : CpCmd) : Module :=
  match m.target c.by_.cid c.p.toNat with
  | .lm t off => (m.sendWake c.by_ t c.d.went (BitVec.ofNat 64 off) (BitVec.ofNat 64 c.off)).2
  | _ => m.contain c.by_.cid { cause := Cause.noroute.code, addr := c.p }

/-- COPY_COMMAND_COMPLETION. A COPY node's is the credit of its node at its site (R331). -/
def execCopyCommandCompletion (tile q : Nat) (s : State) : Out :=
  event (fun m => ((m.tile tile).cpRun q).bind fun c =>
    let ready := if c.op = .dtld then c.pinned else c.moved && (c.op ≠ .cpyx || c.pinned) && (c.d.bar = 0#64 || c.off ≤ c.dec)
    if !ready || c.stall.isSome then none
    else
      let m := (m.endBinds c).cpDrop tile q c
      some (match c.node with
        | some (p, l, k) =>
          if (m.part p).hqLaunch = l && !(m.site (tile / 16)).graph.stopped then
            m.onGraph (tile / 16) fun g => { g with credits := Tab.put g.credits k (Tab.get 0 g.credits k + 1) }
          else m
        | none => (if c.d.wk then m.closeWake c else m).engineDone true c.by_ c.flags)) s

end Sys2Proof.Machine
end

