-- ==== Sys2Proof/Machine/Csr.lean ====
section
/-!
DEFINITION. The special registers (R92–R95, R166, R183, R188, R257, R304, R305, R315, R346, R410–R412).
-/
namespace Sys2Proof.Machine

/-! ## Numbers and access (R92) -/

/-- What a mode may do with a register. -/
inductive CsrAcc where
  | none_ | ro | rw
  deriving DecidableEq, Repr

/-- Access in user and in supervisor mode; none for a number that names no register. -/
def csrAcc (n : Nat) : Option (CsrAcc × CsrAcc) :=
  match n with
  | 0x000 | 0x001 | 0x005 | 0x013 => some (.ro, .rw)
  | 0x002 => some (.rw, .rw)
  | 0x003 | 0x004 | 0x006 | 0x007 => some (.ro, .ro)
  | 0x010 | 0x011 | 0x012 | 0x014 | 0x015 | 0x016 | 0x017 | 0x018 | 0x019 => some (.none_, .rw)
  | _ => if 0x020 ≤ n ∧ n ≤ 0x027 then some (.none_, .rw) else none

/-- The fault of an access, if any (R92). -/
def csrFault (n : Nat) (super write : Bool) : Option Cause :=
  match csrAcc n with
  | none => some .illop
  | some (u, s) =>
    if super then (if write && s ≠ .rw then some .illop else none)
    else if u = .none_ || (write && u ≠ .rw) then some .priv
    else none

/-! ## Reads -/

/-- LM bank states as `c.lmst` shows them (R95). -/
def Phys.lmst (p : Phys) : Nat := (upFrom 0 16).foldl (fun x b => x + p.bank b * 4 ^ b) 0

/-- CsrRead (R411): the value at the commit of an instruction in context k, whose activation has status word sw.
DEDUCED (log 131). -/
def Module.csrRead (m : Module) (cid k : Nat) (sw : Word) (n : Nat) : Word :=
  let c := m.core cid
  let p := c.spec
  match n with
  | 0x000 => p.cycV + BitVec.ofNat 64 (m.time - max p.cycT (m.site (siteOf cid)).ready)
  | 0x001 => p.inst
  | 0x002 => sw
  | 0x003 => m.selfHandle cid
  | 0x004 => p.lat
  | 0x005 => p.seed
  | 0x006 => BitVec.ofNat 64 (m.phy (m.pid cid)).lmst
  | 0x007 => (c.ctx k).seq.zeroExtend 64
  | 0x010 => BitVec.ofNat 64 ((c.ctx k).wp.toNat * 64)
  | 0x011 => p.pk.zeroExtend 64
  | 0x012 => p.hbnd
  | 0x013 => p.budget.zeroExtend 64
  | 0x014 => p.upvec
  | 0x015 => p.trvec
  | 0x016 => p.cpr
  | 0x017 => p.frec
  | 0x018 => p.stash
  | 0x019 => p.mxw.zeroExtend 64
  | _ => Tab.get 0 p.guards (n - 0x020)

/-! ## Writes -/

/-- A word without the bits outside a mask: reserved bits are not written (R4). -/
def keepBits (v : Word) (mask : Nat) : Word := v &&& BitVec.ofNat 64 mask

/-- StealInit (R56). -/
def stealSeed (seed : Word) (vcn : Nat) : BitVec 32 :=
  let s := seed.extractLsb' 0 32 ^^^ BitVec.ofNat 32 (vcn * 0x9E3779B9)
  if s = 0#32 then 1#32 else s
/-- DEDUCED (log 99). -/
def Module.stealInit (m : Module) (cid : Nat) : Module :=
  let v := m.vcn cid
  m.onCore cid fun c => { c with thief := { c.thief with s := stealSeed c.spec.seed v } }

/-- Every line written back and dropped, dirty data reaching its home (R186, R188). -/
def Module.flushLines (m : Module) (cid : Nat) (ls : List Nat) : HomeRes Unit :=
  HomeRes.each (fun l m => m.writeBack cid l 0) ls m
def Core.allLines (c : Core) : List Nat := Tab.keys c.stash ++ Tab.keys c.atom

/-- The zeros of a whole bank at a location, without what they wake. -/
def Module.blank (m : Module) (a : Nat) : Module :=
  { m with mem := Mem.zero m.mem a 0x8000, quar := m.quar.filter fun q => !(a ≤ q && q < a + 0x8000)
           upsets := clearUpset m.upsets a 0x8000 }
/-- The zeros of a bank are writes (R222, R224, R228, R417). DEDUCED (log 59). -/
def Module.noteBank (m : Module) (a : Nat) : Module := (m.noteLines a 0x8000).noteBars a 0x8000

/-- The new stash configuration: its banks that leave are zeroed (R188). Whether those zeros end reservations, fire monitors and wake
barrier waiters as the zeros of WAKE do is open: here they do. DESIGN CHOICE (log 156). -/
def Module.setStash (m : Module) (cid : Nat) (v : Word) : Module :=
  let c := m.core cid
  let out := (upFrom c.stashFirst c.stashNb).filter fun b => !(bits v 7 4 ≤ b && b < bits v 7 4 + bits v 3 0)
  let m := out.foldl (fun m b => (m.blank (m.lmAt cid (b * 0x8000))).noteBank (m.lmAt cid (b * 0x8000))) m
  m.onCore cid fun c => { c with spec := { c.spec with stash := v }, flushes := [], prefs := [] }

/-- A CPR entry of the core is outstanding (R412). -/
def Module.cprBusy (m : Module) (cid : Nat) : Bool :=
  (upFrom 0 4).any fun k => (upFrom 0 64).any fun s => m.cprSt cid k s == 1

/-- The register alone: the entries of the rings are what LM holds at the new place (R87, R412). DEDUCED (log 39). -/
def Module.moveCpr (m : Module) (cid : Nat) (v : Word) : Module :=
  m.onCore cid fun c => { c with spec := { c.spec with cpr := v } }

/-- A write of `c.cpr`; but where the area would meet the CSA the register takes a free value and nothing else is
written (R1, R89). DESIGN CHOICE (log 127). -/
def Module.setCpr (m : Module) (cid : Nat) (v : Word) : Module :=
  if bits v 18 13 = 0x3F then m.onCore cid fun c => { c with spec := { c.spec with cpr := keepBits (Config.cprFree v) 0x7E000 } }
  else m.moveCpr cid (keepBits v 0x7E000)

/-- The upcall record area may not lie over the CSA, the CPR area or the stash banks (R346). -/
def Core.frecBad (c : Core) (v : Word) : Bool :=
  let a := bits v 18 12 * 4096
  meet a 4096 0x7E000 0x2000 || meet a 4096 c.cprBase 0x2000
    || (c.stashNb ≠ 0 && meet a 4096 (c.stashFirst * 0x8000) (c.stashNb * 0x8000))

/-- A stash configuration that R183 refuses. -/
def Core.stashBad (c : Core) (v : Word) : Bool :=
  let nb := bits v 3 0; let f := bits v 7 4
  decide (8 < nb) || (nb ≠ 0 && (decide (15 < f + nb) || meet (f * 0x8000) (nb * 0x8000) c.cprBase 0x2000))

/-- User mode changes neither MODE, UPC nor SS (R94). -/
def State.swDenied (s : State) (v : Word) : Bool := !s.super && bits v 2 0 ≠ bits s.sw 2 0
/-- A write of `c.sw` (R94): VE 1 → 0 makes v0–v15 dead; flags that an engine command has ORed in this cycle are ORed after it (R411). -/
def writeSw (v : Word) : Run Unit := do
  let s ← get
  Run.stopIf (s.swDenied v) .priv
  Run.stopIf (decide (5 ≤ swRm v)) .badopnd
  Run.onWin fun w =>
    { w with ctl := { w.ctl with sw := swOr (v &&& swMask) (if w.orNow.1 = s.m.time then w.orNow.2 else 0)
                                 livev := if swVe s.sw && !swVe v then 0 else w.ctl.livev } }

/-- A change of the core's own special registers. -/
def onSpec (f : Spec → Spec) : Run Unit := Run.onCore fun c => { c with spec := f c.spec }

/-- CsrWrite (R412). -/
def csrWrite (n : Nat) (v : Word) : Run Unit := do
  let s ← get
  match n with
  | 0x000 => onSpec fun p => { p with cycV := v, cycT := s.m.time }
  | 0x001 => onSpec fun p => { p with inst := v - 1#64 }
  | 0x002 => writeSw v
  | 0x005 => do
    onSpec fun p => { p with seed := v }
    Run.onM fun m => m.stealInit s.cid
  | 0x010 =>
    let wp := v.extractLsb' 6 13
    if bit v 63 then Run.onCore fun c => (upFrom 0 4).foldl (fun c k => c.onCtx k fun x => { x with wp := wp }) c
    else Run.onCore fun c => c.onCtx s.ctx fun x => { x with wp := wp }
  | 0x011 => onSpec fun p => { p with pk := v.extractLsb' 0 32 }
  | 0x012 => onSpec fun p => { p with hbnd := keepBits v 0xFFFFFFFFFF }
  | 0x013 => onSpec fun p => { p with budget := v.extractLsb' 0 32 }
  | 0x014 => onSpec fun p => { p with upvec := v }
  | 0x015 => onSpec fun p => { p with trvec := v }
  | 0x016 => do
    Run.stallIf (s.m.cprBusy s.cid)
    Run.onM fun m => m.setCpr s.cid v
  | 0x017 => do
    Run.stopIf (s.core.frecBad v) .badopnd
    onSpec fun p => { p with frec := keepBits v 0x800000000007F000 }
  | 0x018 => do
    Run.stopIf (s.core.stashBad v) .badopnd
    Run.stallIf (s.core.allLines.any fun l => s.core.defers s.m.time l (some s.ctx))
    Run.lift (MM.home fun m => m.flushLines s.cid s.core.allLines)
    Run.onM fun m => m.setStash s.cid (keepBits v 0xFF)
  | 0x019 => do
    Run.stopIf (bits v 3 0 = 0) .badopnd
    onSpec fun p => { p with mxw := v.extractLsb' 0 4 }
  | _ => onSpec fun p => { p with guards := Tab.put p.guards (n - 0x020) (keepBits v 0x003F1FFF0007FFC0) }

/-- The access check of R92, before the operands (R81). -/
def csrCheck (n : Nat) (write : Bool) : Run Unit := do
  match csrFault n (← get).super write with
  | some c => Run.raise c
  | none => pure ()

/-! ## Instructions (R411) -/

/-- The value of a register at this instruction. -/
def csrValue (n : Nat) : Run Word := do
  let s ← get
  return s.m.csrRead s.cid s.ctx s.sw n

/-- CSRR. -/
def execCsrr (f : CsrrF) (s : State) : Out :=
  run (do
    csrCheck f.n.toNat false
    let _ ← operands [] (some (.exec, f.a))
    writeDst f.a (← csrValue f.n.toNat)) s
/-- CSRW. -/
def execCsrw (f : CsrwF) (s : State) : Out :=
  run (do
    csrCheck f.n.toNat true
    let l ← operands [⟨f.a, f.ka, .exec⟩] none
    csrWrite f.n.toNat (arg l 0)) s
/-- CSRX: the old value is read before the write. The PRIV of a write to `c.sw` comes before a fault of the destination (R81). -/
def execCsrx (f : CsrxF) (s : State) : Out :=
  run (do
    csrCheck f.n.toNat true
    let v ← peek ⟨f.b, f.kb, .exec⟩
    Run.stopIf (f.n.toNat == 0x002 && v.any (← get).swDenied) .priv
    let l ← operands [⟨f.b, f.kb, .exec⟩] (some (.exec, f.a))
    let old ← csrValue f.n.toNat
    csrWrite f.n.toNat (arg l 0)
    writeDst f.a old) s

end Sys2Proof.Machine
end

