-- ==== Sys2Proof/Machine/Cache.lean ====
section
/-!
DEFINITION. The stash instructions (R183–R188, R456–R458), instruction-cache maintenance (R189–R191, R428, R429) and the power
state of LM banks (R85, R415–R417).
-/
namespace Sys2Proof.Machine

/-! ## Ranges of lines (R187, R456) -/

/-- The line at `line` overlaps the c bytes from b upward, modulo 2^64. -/
def overlaps (b c line : Nat) : Bool :=
  c ≠ 0 && (decide ((line + 2 ^ 64 - b) % 2 ^ 64 < c) || decide ((b + 2 ^ 64 - line) % 2 ^ 64 < 64))

/-- The lines that a range meets: their number, from the line of b upward. -/
def lineCount (b c : Nat) : Nat := if c = 0 then 0 else (b % 64 + c + 63) / 64

/-- Some byte of the range lies in GROUP (R169). -/
def inGroup (b c : Nat) : Bool :=
  c ≠ 0 && (decide ((2 ^ 33 + 2 ^ 64 - b) % 2 ^ 64 < c) || (decide (2 ^ 33 ≤ b) && decide (b < 2 ^ 33 + 2 ^ 23)))
/-- Some byte of the range lies in CFG, where these instructions raise PERM (R31). -/
def inCfg (b c : Nat) : Bool :=
  c ≠ 0 && (decide ((2 ^ 35 + 2 ^ 64 - b) % 2 ^ 64 < c) || (decide (2 ^ 35 ≤ b) && decide (b < 2 ^ 35 + 2 ^ 33)))

/-- The home's page of an address is stashable (R176). -/
def Module.stPage (m : Module) (home va : Nat) : Bool :=
  match if bit (m.site home).ptroot 0 then tlbFind (m.site home).tlb va else none with
  | some x => leafST x.leaf
  | none =>
    match m.walk home va with
    | .leaf e _ => leafST e
    | _ => false

/-- A PREF fill put off. -/
def Module.putPref (m : Module) (cid who va : Nat) (super : Bool) : Module :=
  m.onCore cid fun c => { c with prefs := c.prefs.filter (·.1 ≠ va) ++ [(va, who, super)] }

/-- One line of PREF: whether it counts, for it lies in an ST page (R456). It is filled, dropped where anything refuses it, and put off
while a reservation delays its fill (R223, R457). DEDUCED (log 47). -/
def prefLine (cid who va : Nat) (super : Bool) (m : Module) : Bool × Module :=
  match m.target cid va with
  | .dram home =>
    match dramAt cid home va .load super m with
    | .ok ((e, loc), m1) =>
      if !leafST e then (false, m)
      else if (m1.core cid).held (lineOf loc) = none && m1.fillBlocked cid va then (true, m1.putPref cid who va super)
      else
        match fillLine cid who loc va false false m1 with
        | .ok (_, m2) => (true, m2)
        | .error (.ask _ (.recall l c w)) => (true, (m1.deferRecall l c w).putPref cid who va super)
        | .error _ => (true, m1)
    | .error _ => (m.stPage home va, m)
  | _ => (false, m)

/-- PREF: the first 64 lines of the range that lie in ST pages. -/
def prefFrom (cid who : Nat) (super : Bool) : Nat → Nat → Nat → Module → Module
  | 0, _, _, m => m
  | _ + 1, _, 0, m => m
  | n + 1, line, left + 1, m =>
    match prefLine cid who line super m with
    | (true, m) => prefFrom cid who super n ((line + 64) % 2 ^ 64) left m
    | (false, m) => prefFrom cid who super n ((line + 64) % 2 ^ 64) (left + 1) m

/-- The address and length of a range. -/
def rangeOperands (f : RangeOp) : Run (Nat × Nat) := do
  let l ← operands [⟨f.b, f.kb, .addr⟩, ⟨f.c, f.kc, .addr⟩] none
  return ((arg l 0).toNat, (arg l 1).toNat)

/-- PREF. -/
def execPref (f : RangeOp) (s : State) : Out :=
  run (do
    let (b, c) ← rangeOperands f
    let s ← get
    if s.core.stashNb ≠ 0 then Run.onM fun m => prefFrom s.cid s.ctx s.super (lineCount b c) (b / 64 * 64) 64 m) s

/-- SMAP: with NB = 0 it acts on no line, and a byte of the range in GROUP or CFG still raises PERM (R31, R169, R456). -/
def execSmap (f : RangeOp) (s : State) : Out :=
  run (do
    let (b, c) ← rangeOperands f
    let s ← get
    if s.core.stashNb ≠ 0 then Run.lift (smapFrom s.cid s.ctx s.super (lineCount b c) (b / 64 * 64) 0)
    else do
      Run.stopIf (inGroup b c) .perm (if windowOf b |>.any (·.1 == .group) then b / 64 * 64 else 2 ^ 33)
      Run.stopIf (inCfg b c) .perm (if windowOf b |>.any (·.1 == .cfg) then b / 64 * 64 else 2 ^ 35)) s

/-- The held lines that a range meets, by location. -/
def Core.linesIn (c : Core) (b n : Nat) : List Nat :=
  ((c.stash ++ c.atom).filter fun e => overlaps b n e.2.va.toNat).map (·.1)

/-- One line of SFLUSH, or (`drop`) of SINV, for a requester (R187): whether it is done. It is put off while its home has no room (R380),
and a SINV while another context holds the line reserved (R223). -/
def Module.flushOne (m : Module) (cid who line : Nat) (drop : Bool) : Bool × Module :=
  match (m.core cid).held line with
  | none => (true, m)
  | some x =>
    if drop && (m.core cid).defers m.time line (some who) then (false, m)
    else if drop || x.st = 3 then
      match m.writeBack cid line (if drop then 0 else 2) with
      | .ok _ m => (true, m)
      | _ => (false, m.noRoom line)
    else (true, m)

/-- The lines of an SFLUSH or SINV of an activation in context `who`; those put off are done later (R458). -/
def Module.flushHeld (m : Module) (cid who aid : Nat) (drop : Bool) (ls : List Nat) : Module :=
  ls.foldl
    (fun m l =>
      match m.flushOne cid who l drop with
      | (true, m) => m
      | (false, m) => m.onCore cid fun c => { c with flushes := c.flushes ++ [(aid, l, drop)] }) m

/-- SFLUSH and SINV (R187, R458): they commit at issue; `drop` invalidates, and fills of the range that PREF has asked for are
discarded (R465). -/
def flushRange (f : RangeOp) (drop : Bool) : Run Unit := do
  let (b, c) ← rangeOperands f
  Run.stopIf (inGroup b c || inCfg b c) .perm b
  let s ← get
  if drop then Run.onCore fun x => { x with prefs := x.prefs.filter fun p => !overlaps b c p.1 }
  Run.onM fun m => m.flushHeld s.cid s.ctx s.aid drop (s.core.linesIn b c)

/-- SFLUSH. DESIGN CHOICE (log 49). -/
def execSflush (f : RangeOp) (s : State) : Out := run (flushRange f false) s
/-- SINV. DESIGN CHOICE (log 49). -/
def execSinv (f : RangeOp) (s : State) : Out := run (flushRange f true) s

/-- ICINV (R428). -/
def execIcinv (f : RangeOp) (s : State) : Out :=
  run (do
    let (b, c) ← rangeOperands f
    Run.onCore fun x => { x with icache := if 2 ^ 15 ≤ c then [] else x.icache.filter fun e => !overlaps b c e.1 }) s

/-- FBAR (R429): it waits for the stash maintenance of the activation (R458); the line buffer is filled afresh at the next address. -/
def execFbar (s : State) : Out :=
  run (do
    Run.stallIf ((← get).m.unflushed (← get).cid (← get).aid)
    let k := (← get).ctx
    Run.onCore fun c => c.onCtx k fun x => { x with line := none }) s

/-! ## Power (R85, R415, R416) -/

/-- A protected bank (R416). -/
def Module.bankHeld (m : Module) (cid b : Nat) : Bool :=
  let c := m.core cid
  let on (off n : Nat) : Bool := meet off n (b * 0x8000) 0x8000
  (c.stashFirst ≤ b && b < c.stashFirst + c.stashNb) || on c.cprBase 0x2000 || (c.frecEn && on c.frecBase 4096)
    || ((upFrom 0 64).any fun k => bit c.desc.held k && on (c.desc.wp k) (2 ^ c.desc.wssz))
    || (c.ctxs.any fun e => e.2.act == some 64 && on (e.2.wp.toNat * 64) 1344)
    || (b == 15 && (c.desc.n ≠ 0 || bit c.spec.hbnd 39 || (upFrom 0 15).any fun i => (m.supEntry cid i).v))

/-- The bytes of an LM bank, gone. The scheduler descriptor, the device's own registers seen in bank 15, keeps its fields: the spec
does not say. DESIGN CHOICE (log 134). -/
def Module.blankBank (m : Module) (cid b : Nat) : Module :=
  m.blank (m.lmAt cid (b * 0x8000))

/-- DROP.ret of one bank. -/
def Module.dropRetBank (m : Module) (cid b : Nat) : Module :=
  let c := m.core cid
  if c.stashFirst ≤ b && b < c.stashFirst + c.stashNb then m
  else m.onPhy (m.pid cid) fun p =>
    match p.bank b with
    | 0 => p.setBank b 1
    | 3 => { p with after := Tab.put p.after b (if Tab.get 0 p.after b = 2 then 2 else 1) }
    | _ => p

/-- DROP.off of one bank. -/
def Module.dropOffBank (m : Module) (cid b : Nat) : Module :=
  if m.bankHeld cid b then m
  else
    let p := m.phy (m.pid cid)
    match p.bank b with
    | 3 => m.setPhy (m.pid cid) { p with after := Tab.put p.after b 2 }
    | _ => (m.setPhy (m.pid cid) (p.setBank b 2)).blankBank cid b

/-- WAKE of one bank: FULL and zeroed after 24 cycles. DEDUCED (log 50). -/
def Module.wakeBank (m : Module) (cid b : Nat) : Module :=
  if m.bankHeld cid b then m
  else
    let p := m.phy (m.pid cid)
    match p.bank b with
    | 1 | 2 =>
      let p := { p.setBank b 3 with wake := Tab.put p.wake b (m.time + 24), after := Tab.del p.after b }
      (m.setPhy (m.pid cid) p).blankBank cid b
    | _ => m

/-- A change of every bank that a mask names. -/
def onBanks (f : BankMask) (g : Module → Nat → Nat → Module) : Run Unit := do
  let cid := (← get).cid
  Run.onM fun m => ((upFrom 0 16).filter fun b => bit f.mask b).foldl (fun m b => g m cid b) m

/-- DROP.ret. -/
def execDropRet (f : BankMask) (s : State) : Out := run (onBanks f Module.dropRetBank) s
/-- DROP.off. -/
def execDropOff (f : BankMask) (s : State) : Out := run (onBanks f Module.dropOffBank) s
/-- WAKE. -/
def execWake (f : BankMask) (s : State) : Out := run (onBanks f Module.wakeBank) s

/-- LM_BANK_WAKE_COMPLETE: the bank is FULL, or what a DROP has named since; its zeros are writes, performed now (R417).
DEDUCED (log 50). -/
def execLmBankWakeComplete (pid bank : Nat) (s : State) : Out :=
  event (fun m =>
    let p := m.phy pid
    if p.bank bank = 3 && decide (Tab.get 0 p.wake bank ≤ m.time) then
      some ((m.setPhy pid
        { p.setBank bank (Tab.get 0 p.after bank) with wake := Tab.del p.wake bank, after := Tab.del p.after bank }).noteBank
          (lmLoc pid (bank * 0x8000)))
    else none) s

end Sys2Proof.Machine
end

