-- ==== Sys2Proof/Machine/Turn.lean ====
section
/-!
DEFINITION. A context's turn (R48, R62, R64, R354, R360): what is due at a commit point before the next instruction, the
instruction at its address, and what a program placed at reset needs to be fetched.
-/
namespace Sys2Proof.Machine

/-- A STEP that waited for its activation to enter a context (R360). DEDUCED (log 21). -/
def Module.stepOwed (m : Module) (cid key : Nat) : Option Module :=
  (m.act cid key).stepAt.map fun pc =>
    (m.onAct cid key fun a => { a with stepAt := none }).afterTrap cid key { cause := .stepped } pc

/-- A budget at zero delivers BUDGET, once, and starts the grace period; upcall code takes no new upcall (R64). -/
def Module.budgetOut (m : Module) (cid key : Nat) : Option Module :=
  let m := m.onAct cid key (·.count m.time)
  let a := m.act cid key
  match a.win, a.ctx? with
  | some w, some _ =>
    if w.ctl.path ≠ 5#3 && !w.ctl.hnd && w.ctl.budget == 0#32 && a.grace.isNone then
      let m := m.onAct cid key fun a => { a with grace := some 4096 }
      some (if swUpc w.ctl.sw then m else m.takeFault cid key { cause := .budget } w.ctl.pc)
    else none
  | _, _ => none

/-- Forced suspension at the end of the grace period (R44, R64). -/
def Module.forceOut (m : Module) (cid key : Nat) : Option Module :=
  let m := m.onAct cid key (·.count m.time)
  let a := m.act cid key
  match a.win, a.ctx? with
  | some w, some _ =>
    if a.grace = some 0 then
      let c := { w.ctl with waitk := 9#4, cls := 4#3, budget := (m.core cid).spec.budget }
      let m := m.onAct cid key fun a => { a with win := some { w with ctl := c }, grace := none }
      some (m.parkOrTrap cid key .ready)
    else none
  | _, _ => none

/-- A handler past its 4,096 issuing cycles (R48, R49). -/
def Module.handlerOut (m : Module) (cid key : Nat) : Option Module :=
  let m := m.onAct cid key (·.count m.time)
  let a := m.act cid key
  match a.win, a.ctx? with
  | some w, some _ =>
    if w.ctl.hnd && decide (4096 ≤ a.hcyc) then some (m.takeFault cid key { cause := .budget } w.ctl.pc) else none
  | _, _ => none

/-- Something due for an activation once its vector instructions have retired (R487). -/
def Module.drained (m : Module) (cid key : Nat) (f : Module → Option Module) : Option Module :=
  let (ready, d) := m.drain cid key
  if ready then f d else none

/-- What is due at a commit point before the next instruction of an activation. -/
def Module.dueNow (m : Module) (cid key : Nat) : Option Module :=
  (m.stepOwed cid key).orElse fun _ => (m.forceOut cid key).orElse fun _ => (m.budgetOut cid key).orElse fun _ =>
    m.handlerOut cid key

/-- The same, once the activation's vector instructions have retired; until then a cycle passes (R487). -/
def Module.preflight (m : Module) (cid key : Nat) : Option Module :=
  let (ready, d) := m.drain cid key
  if ready then d.dueNow cid key
  else if (d.dueNow cid key).isSome then some { d with time := d.time + 1 } else none

/-- A cycle passes. -/
def State.tick (s : State) (n : Nat) : State := { s with m := { s.m with time := s.m.time + n } }

/-! ## The rotation (R68) -/

/-- The turn of context k, tried from a state with no open group: it dispatches an instruction, or takes what is due before one. -/
def State.dispatches (turn : State → Out) (s : State) (k : Nat) : Bool :=
  match ({ s with ctx := k } : State).core.ctx k |>.act with
  | none => false
  | some key =>
    let pcOf (m : Module) : Word := ((m.act s.cid key).win.getD {}).ctl.pc
    match turn { s with ctx := k } with
    | .next t => t.open_.isSome || ((t.core.ctx k).act ≠ some key) || pcOf t.m ≠ pcOf s.m || t.core.spec.inst ≠ s.core.spec.inst
    | _ => false

/-- The focus moved by the rotation 0, 1, 2, 3, 0 of R68: the turn passes from the context that dispatched last to the next one that is
not skipped, or at the latest to the focused context. A context is skipped that is empty or whose next instruction waits; which
of the others wait on the scoreboard in a cycle is a matter of latencies, which the model leaves free. DESIGN CHOICE (log 3). -/
def State.rotated (turn : State → Out) (s : State) : State :=
  let order := ((upFrom (s.core.turn + 1) 4).map (· % 4)).takeWhile (· ≠ s.ctx)
  match order.find? fun k => s.dispatches turn k && !Config.scoreboard s.m.time s.cid k with
  | some k => { s with ctx := k }
  | none => s

/-- What the focused context finds at its PC. -/
inductive Fetched where
  | instr (i : Instr) (m : Module)
  /-- No instruction there (R132), or the fetch faults or waits. -/
  | stop (e : Stop)
  deriving DecidableEq, Repr

/-- The instruction at the focused context's PC (R104–R106, R132, R189, R190). -/
def State.fetched (s : State) : Fetched :=
  match codeAt s.cid s.ctx s.win.ctl.pc s.super s.m with
  | .ok (c, m) =>
    match decode c with
    | some i => .instr i m
    | none => .stop (.fault { cause := .illop })
  | .error e => .stop e

/-! ## A program placed from outside -/

/-- One instruction in a line of its own at LM 0x1_0000 of core 0, whose partition has its one site. -/
def Module.withCode (m : Module) (b : List Byte) : Module :=
  let m := { m with powered := true }
  let m := m.onSite 0 fun x =>
    { x with state := 6, part := some 0, psi := 0, epoch := 1, lpct := Tab.put x.lpct 0 ⟨0, true, 0⟩
             vacant := x.vacant.filter (· ≠ 0) }
  let m := m.onPart 0 fun p => { p with sites := [0] }
  let m := m.onPhy 0 fun p => { (p.setBank 2 0) with failed := setBits p.failed 2 2 0 }
  let m := { m with mem := Mem.write (Mem.zero m.mem (lmLoc 0 0x10000) 64) (lmLoc 0 0x10000) b
                    quar := clearQuar m.quar (lmLoc 0 0x10000) 64 }
  let w : Win := { ctl := { pc := 0x10002#64, sw := 1#64, liveg := 0xFFFFFFFF#32, path := 1#3, cls := 5#3
                            budget := 4194304#32 } }
  m.onCore 0 fun c =>
    { c with quiet := false, sup := { c.sup with stopped := false }, vq := c.vq.filter (·.key ≠ 0)
             desc := { c.desc with held := setBits c.desc.held 0 0 1 }
             ctxs := Tab.put c.ctxs 0 { c.ctx 0 with act := some 0, line := none, resv := none }
             idle := if (c.act 0).win.isSome then c.idle else c.idle.drop 1
             acts := Tab.put c.acts 0
               { wp := c.desc.wp 0, st := .issuing 0, win := some w, since := m.time, aged := m.time, entered := m.time
                 counted := m.time } }

end Sys2Proof.Machine
end

