-- ==== Sys2Proof/Machine/Sched.lean ====
section
/-!
DEFINITION. The core scheduler (R44–R49, R62–R66, R328, R352) and work stealing (R54–R57): the events that start, bind, enter,
displace, age and stop activations.
-/
namespace Sys2Proof.Machine

/-! ## Candidates (R62) -/

/-- An activation that waits for a context. DEDUCED (log 28). -/
def Act.waits (a : Act) : Bool := a.st == .ready || a.st == .bound
def Module.clsOf (m : Module) (cid key : Nat) : Nat := (m.ctlOf cid key).cls.toNat

/-- The first of some activations: lowest class, then longest READY. -/
def Module.firstOf (m : Module) (cid : Nat) (l : List (Nat × Act)) : Option (Nat × Act) :=
  l.foldl
    (fun (b : Option (Nat × Act)) e =>
      match b with
      | some x =>
        if m.clsOf cid e.1 < m.clsOf cid x.1 || (m.clsOf cid e.1 == m.clsOf cid x.1 && e.2.since < x.2.since) then some e
        else some x
      | none => some e) none
/-- The first activation that waits. DEDUCED (log 28). -/
def Module.firstWaiting (m : Module) (cid : Nat) : Option (Nat × Act) := m.firstOf cid ((m.core cid).acts.filter fun e => e.2.waits)

/-- The lowest free context. -/
def Core.freeContext (c : Core) : Option Nat := (upFrom 0 4).find? fun k => (c.ctx k).act.isNone
/-- A deque record can start now, but for a context. -/
def Module.taskReady (m : Module) (cid : Nat) : Bool := (m.dqPop cid).isSome && (m.freeSlot cid false).isSome
/-- A work range can start now, but for a context. -/
def Module.rangeReady (m : Module) (cid : Nat) : Bool := !(m.core cid).gq.isEmpty && (m.freeSlot cid false).isSome
/-- A trap activation is due: some context has a supervisor workspace for it (R41, R515). DEDUCED (log 141). -/
def Module.trapDue (m : Module) (cid : Nat) : Bool :=
  let q := (m.core cid).sup
  q.serving.isNone && !q.stopped && (m.oldestSup cid).isSome && (upFrom 0 4).any (m.trapRoom cid)
/-- Context k goes to the trap activation first. -/
def Module.trapFirst (m : Module) (cid k : Nat) : Bool := m.trapDue cid && m.trapRoom cid k
/-- The lowest free context, where no trap activation goes first. -/
def Module.openContext (m : Module) (cid : Nat) : Option Nat := (m.core cid).freeContext.filter fun k => !m.trapFirst cid k
/-- Some activation of class at most n waits. -/
def Module.waitsBelow (m : Module) (cid n : Nat) : Bool := (m.firstWaiting cid).any fun e => m.clsOf cid e.1 ≤ n
def Core.bounds (c : Core) : List (Nat × Act) := c.acts.filter fun e => e.2.st == .bound

/-! ## Binding and entering (R38, R44) -/

/-- Binding; a bank or word that cannot be read makes it a supervisor trap (R85, R90). -/
def Module.bindAct (m : Module) (cid key : Nat) : Module :=
  let (w, c) := m.bindWin cid (m.act cid key).wp
  match c with
  | some x => m.trapAct cid key (m.recOf cid w { cause := x } w.ctl.pc 1)
  | none => ((m.bindReads cid (m.act cid key).wp w).onCore cid Core.takeWin).onAct cid key fun a => { a with st := .bound, win := some w }

/-- Into context k, bound first where it is not. -/
def Module.enterFrom (m : Module) (cid key k : Nat) : Module :=
  let m := if (m.act cid key).st = .bound then m else m.bindAct cid key
  if (m.act cid key).st = .bound then m.enter cid key k else m

/-- ACTIVATION_BINDING. -/
def execActivationBinding (cid key : Nat) (s : State) : Out :=
  event (fun m =>
    let c := m.core cid
    let first := m.firstOf cid (c.acts.filter fun e => e.2.st == .ready)
    if m.mayStart cid && c.bounds.length < 4 && (first.any fun e => e.1 == key) then some (m.bindAct cid key) else none) s

/-- CONTEXT_ENTRY. -/
def execContextEntry (cid ctx : Nat) (s : State) : Out :=
  event (fun m => (m.firstWaiting cid).bind fun e =>
    let n := m.clsOf cid e.1
    if !m.mayStart cid || 4 ≤ ctx || ((m.core cid).ctx ctx).act.isSome || m.trapFirst cid ctx || (5 < n && m.taskReady cid)
        || (6 < n && m.rangeReady cid) then none
    else some (m.enterFrom cid e.1 ctx)) s

/-- A new activation starts in the lowest free context. -/
def Module.startNew (m : Module) (cid : Nat) (b : Birth) : Option Module :=
  (m.openContext cid).bind fun k => (m.create cid b).map fun r => r.2.enterFrom cid r.1 k

/-- TASK_START. -/
def execTaskStart (cid : Nat) (s : State) : Out :=
  event (fun m =>
    if !m.mayStart cid || (m.openContext cid).isNone || m.waitsBelow cid 5 || !m.dqFree cid then none
    else
      match m.dqPop cid with
      | some r => r.2.startNew cid (r.1.birth 5 (m.core cid).spec.budget)
      | none => m.dqFinds cid ((m.core cid).desc.lifo + 63)) s

/-! ## Work ranges (R328, R329) -/

/-- The completion tag of a range. -/
def rangeTag (e : NodeEnt) (count : Nat) : Word := BitVec.ofNat 64 (e.node * 8 + count * 2 ^ 15 + e.launch * 2 ^ 47 + 2 ^ 63)
def NodeEnt.birth (e : NodeEnt) (first count cls : Nat) (budget : BitVec 32) : Birth :=
  { pc := e.entry, sw := BitVec.ofNat 64 (first % 2 ^ 32 * 2 ^ 16), path := 3, cls := cls, dom := e.dom
    joina := rangeTag e count, budget := if e.budget = 0 then budget else BitVec.ofNat 32 e.budget
    g := [BitVec.ofNat 64 first, BitVec.ofNat 64 count, e.tcb] }

/-- The range of a list that stands first by a test. -/
def pickRange (better : Nat → Nat → Bool) : List (Nat × Nat) → Option (Nat × Nat)
  | [] => none
  | x :: l =>
    match pickRange better l with
    | some y => if better x.1 y.1 then some x else some y
    | none => some x
/-- A queue without one range of its entry i; an empty entry goes. -/
def takeRange (l : List NodeEnt) (i : Nat) (r : Nat × Nat) : List NodeEnt :=
  match l[i]? with
  | some e =>
    let e' := { e with ranges := e.ranges.erase r }
    if e'.ranges.isEmpty then dropAt l i else setAt l i e'
  | none => l

/-- WORK_RANGE_START. -/
def execWorkRangeStart (cid : Nat) (s : State) : Out :=
  event (fun m =>
    let c := m.core cid
    match c.gq with
    | [] => none
    | e :: _ =>
      if !m.mayStart cid || m.waitsBelow cid 6 || m.taskReady cid then none
      else (pickRange (fun a b => decide (a < b)) e.ranges).bind fun r =>
        (m.onCore cid fun c => { c with gq := takeRange c.gq 0 r }).startNew cid (e.birth r.1 r.2 6 c.spec.budget)) s

/-! ## The supervisor path (R352) -/

/-- TRAP_ACTIVATION_CREATION in a free context. -/
def execTrapActivationCreation (cid ctx : Nat) (s : State) : Out :=
  event (fun m =>
    if m.mayStart cid && m.trapDue cid && decide (ctx < 4) && ((m.core cid).ctx ctx).act.isNone && m.trapRoom cid ctx then
      some (m.trapEnter cid ctx)
    else none) s

/-- DEFERRED_TRAP_ENTRY. DEDUCED (log 42). -/
def execDeferredTrapEntry (cid : Nat) (s : State) : Out :=
  event (fun m =>
    if ((m.core cid).acts.any fun e => e.2.defer.isSome) && !(m.supEntry cid (m.core cid).sup.next).v then some (m.deferred cid)
    else none) s

/-! ## Displacement and aging (R46, R63) -/

/-- The activation that gives way: the highest class above 2, and of those the longest in its context; for a trap activation, of those in
a context that it can take. -/
def Module.victim (m : Module) (cid : Nat) (trap : Bool) : Option (Nat × Act) :=
  ((m.core cid).acts.filter fun e => e.2.ctx?.any (fun k => !trap || m.trapRoom cid k) && 2 < m.clsOf cid e.1).foldl
    (fun (b : Option (Nat × Act)) e =>
      match b with
      | some x =>
        if m.clsOf cid x.1 < m.clsOf cid e.1 || (m.clsOf cid e.1 == m.clsOf cid x.1 && e.2.entered < x.2.entered) then some e
        else some x
      | none => some e) none
/-- The BOUND activation that is furthest from a context. DEDUCED (log 26). -/
def Module.lastBound (m : Module) (cid : Nat) : Option (Nat × Act) :=
  (m.core cid).bounds.foldl
    (fun (b : Option (Nat × Act)) e =>
      match b with
      | some x =>
        if m.clsOf cid x.1 < m.clsOf cid e.1 || (m.clsOf cid e.1 == m.clsOf cid x.1 && x.2.since < e.2.since) then some e
        else some x
      | none => some e) none

/-- The activation leaves its context for a window: class, budget, pending grace and the cycle since which it counts as READY stay.
DEDUCED (log 26). -/
def Module.displace (m : Module) (cid key : Nat) : Module :=
  let a := (m.act cid key).count m.time
  let m := match a.ctx? with
    | some k => m.freeCtx cid k
    | none => m
  m.onCore cid fun c => c.setAct key { a with st := .bound, aged := m.time }

/-- DISPLACEMENT: a class 1 or 2 activation waits and no context is free that it can take. -/
def execDisplacement (cid : Nat) (s : State) : Out :=
  event (fun m =>
    let open_ (k : Nat) : Bool := ((m.core cid).ctx k).act.isNone
    let trap := m.trapDue cid && !(upFrom 0 4).any fun k => open_ k && m.trapRoom cid k
    if !m.mayStart cid || !(trap || ((m.core cid).freeContext.isNone && m.waitsBelow cid 2)) then none
    else (m.victim cid trap).bind fun v => m.drained cid v.1 fun m => some <|
      let m := if (m.core cid).bounds.length < 4 then m
        else match m.lastBound cid with
          | some b => (m.parkOrTrap cid b.1 .ready).onAct cid b.1 fun a => { a with since := b.2.since, aged := b.2.aged }
          | none => m
      m.displace cid v.1) s

/-- AGING. -/
def execAging (cid key : Nat) (s : State) : Out :=
  event (fun m =>
    let a := m.act cid key
    let n := m.clsOf cid key
    if a.waits && 2 < n && decide (a.aged + 65536 ≤ m.time) then
      let m := m.setCtl cid key { m.ctlOf cid key with cls := BitVec.ofNat 3 (n - 1) }
      some (m.onAct cid key fun a => { a with aged := a.aged + 65536 })
    else none) s

/-! ## Budgets and late faults (R48, R64, R88) -/

/-- Something due for the activation of a context at a commit point. -/
def ctxEvent (f : Module → Nat → Nat → Option Module) (cid ctx : Nat) (s : State) : Out :=
  event (fun m => if m.mayIssue cid then ((m.core cid).ctx ctx).act.bind fun key => m.drained cid key fun m => f m cid key else none) s

/-- BUDGET_EXPIRY. -/
def execBudgetExpiry (cid ctx : Nat) (s : State) : Out := ctxEvent Module.budgetOut cid ctx s
/-- FORCED_SUSPENSION. -/
def execForcedSuspension (cid ctx : Nat) (s : State) : Out := ctxEvent Module.forceOut cid ctx s
/-- HANDLER_BUDGET_EXPIRY. -/
def execHandlerBudgetExpiry (cid ctx : Nat) (s : State) : Out := ctxEvent Module.handlerOut cid ctx s
/-- The instruction at the commit point goes before a pending late fault: FENCE (R214), TRAP and SVC (R483). -/
def Module.lateLast (m : Module) (cid ctx key : Nat) : Bool :=
  let w := (m.act cid key).win.getD {}
  match codeAt cid ctx w.ctl.pc (swMode w.ctl.sw) m with
  | .ok (c, _) => (match decode c with
    | some (.fence _) | some (.trap _) | some (.svc _) => true
    | _ => false)
  | .error _ => false
/-- LATE_FAULT_DELIVERY. -/
def execLateFaultDelivery (cid ctx : Nat) (s : State) : Out :=
  ctxEvent (fun m c key => if m.lateLast c ctx key then none else m.deliverLate c ctx key) cid ctx s

/-! ## Stealing (R54–R57) -/

/-- The thief lies in a domain around the owner of a record (R57). -/
def domAllows (dom owner thief : Nat) (same : Bool) : Bool :=
  match dom with
  | 0 => false
  | 1 => owner / 8 == thief / 8
  | 2 => owner / 32 == thief / 32
  | 3 => owner / 128 == thief / 128
  | 4 => same
  | _ => false

/-- StealNext (R56). -/
def stealNext (s : BitVec 32) : BitVec 32 :=
  let s := s ^^^ (s <<< 13)
  let s := s ^^^ (s >>> 17)
  s ^^^ (s <<< 5)

/-- Victims of the tile, group and chip rings. -/
def Module.ringList (m : Module) (cid ring : Nat) : List Nat :=
  let l := match ring with
    | 0 => upFrom (cid / 8 * 8) 8
    | 1 => (upFrom (cid / 32 * 32) 32).filter fun c => c / 8 ≠ cid / 8
    | _ => (upFrom (cid / 128 * 128) 128).filter fun c => c / 32 ≠ cid / 32
  l.filter fun c => c ≠ cid && !m.vacant c
/-- The other sites of the partition, by PSI. -/
def Module.otherSites (m : Module) (cid : Nat) : List Nat := (m.partOf (siteOf cid)).sites.filter (· ≠ siteOf cid)

/-- The next victim in the rings from the thief's present place, and the thief's state after the draw; none ends the round. A round
that stops because the core may no longer steal goes on later at the ring and try where it stopped: the spec does not say.
DEDUCED (log 98). -/
def Module.nextVictim (m : Module) (cid : Nat) : Nat → Thief → Option Nat × Thief
  | 0, t => (none, t)
  | f + 1, t =>
    let wider := m.nextVictim cid f { t with ring := t.ring + 1, tries := 0 }
    let tried := { t with tries := t.tries + 1 }
    if t.ring = 0 then
      let l := m.ringList cid 0
      if l.length ≤ t.tries then wider
      else if t.tries = 0 then
        let s := stealNext t.s
        let i := s.toNat * l.length / 2 ^ 32
        (l[i]?, { tried with s := s, first := i })
      else (l[(t.first + t.tries) % l.length]?, tried)
    else if t.ring ≤ 2 then
      let l := m.ringList cid t.ring
      if l.isEmpty || 3 ≤ t.tries then wider
      else
        let s := stealNext t.s
        (l[s.toNat * l.length / 2 ^ 32]?, { tried with s := s })
    else
      let l := m.otherSites cid
      if l.isEmpty || 3 ≤ t.tries then (none, t)
      else
        let s := stealNext t.s
        let s2 := stealNext s
        ((l[s.toNat * l.length / 2 ^ 32]?).map fun x => 128 * x + s2.toNat * 128 / 2 ^ 32, { tried with s := s2 })

/-- A core that may steal (R55). -/
def Module.maySteal (m : Module) (cid : Nat) : Bool :=
  let c := m.core cid
  m.mayStart cid && c.freeContext.isSome && (m.freeSlot cid false).isSome && !m.trapDue cid && !m.waitsBelow cid 6
    && c.desc.n == 0 && c.gq.isEmpty && c.ni.hq.isEmpty

/-- A round without a record: the next starts 256 cycles later. -/
def Module.endRound (m : Module) (cid : Nat) (t : Thief) : Module :=
  m.onCore cid fun c => { c with thief := { t with ring := 0, tries := 0, wake := m.time + 256, busy := none } }

/-- An attempt on a victim: at another site the request goes as a packet and reserves a reply slot (R55, R301). A steal takes no SEQ: R319
does not number it. -/
def Module.askVictim (m : Module) (cid v : Nat) (t : Thief) : Option Module :=
  let put (m : Module) (k : Option (Nat × Nat)) : Module :=
    m.onCore cid fun c => { c with thief := { t with busy := some ⟨v, false, none, m.time, k⟩ } }
  if siteOf v = siteOf cid then some (put m none)
  else
    (m.freeReply cid).map fun k =>
      let p : Packet :=
        { kind := .steal, dsite := siteOf v, dl := logOf v, ssite := siteOf cid, sl := logOf cid, svcn := m.vcn cid
          dvcn := m.vcn v, gen := (m.site (siteOf cid)).epoch, dmod := m.modnum.toNat, smod := m.modnum.toNat
          pkey := (m.core cid).spec.pk, slot := k, here := siteOf cid }
      let n := m.onCore cid fun c => { c with ni := { c.ni with slots := Tab.put c.ni.slots k ⟨p, m.time, .none_⟩ } }
      (put n (some (m.nextPkt, k))).post p

/-- STEAL_ATTEMPT. -/
def execStealAttempt (cid : Nat) (s : State) : Out :=
  event (fun m =>
    let t := (m.core cid).thief
    if !m.maySteal cid || t.busy.isSome || t.wake ≠ 0 then none
    else
      match m.nextVictim cid 5 t with
      | (some v, t) => m.askVictim cid v t
      | (none, t) => some (m.endRound cid t)) s

/-- STEAL_ROUND_RESTART. -/
def execStealRoundRestart (cid : Nat) (s : State) : Out :=
  event (fun m =>
    let t := (m.core cid).thief
    if t.wake = 0 || m.time < t.wake then none
    else some (m.onCore cid fun c => { c with thief := { t with ring := 0, tries := 0, wake := 0 } })) s

/-- The oldest node entry whose domain allows the thief. -/
def allowedEnt (owner thief : Nat) (same : Bool) (l : List NodeEnt) : Option (Nat × NodeEnt) :=
  findIdx (fun e => domAllows e.dom owner thief same) l

/-- What the victim gives to a thief, and the module without it (R54, R55, R328). DEDUCED (log 98). -/
def Module.serveSteal (m : Module) (v thief : Nat) : Option Loot × Module :=
  let c := m.core v
  let same := (m.site (siteOf v)).part == (m.site (siteOf thief)).part
  if m.vacant v then (none, m)
  else if c.desc.n ≠ 0 then
    match m.dqTake v with
    | some (r, m') => if domAllows r.dom v thief same then (some (.record r.encode), m') else (none, m.dqServed v)
    | none => (none, (m.dqRead v c.desc.fifo).dqServed v)
  else
    let m := m.dqServed v
    match allowedEnt v thief same c.gq with
    | some (i, e) =>
      match pickRange (fun a b => decide (b < a)) e.ranges with
      | some r => (some (.range { e with ranges := [] } r.1 r.2), m.onCore v fun c => { c with gq := takeRange c.gq i r })
      | none => (none, m)
    | none => (none, m)

/-- The owner takes a record of its deque, or the last range of the entry that the thief would take from, in this cycle: it goes first
(R54, R66, R328, R343). -/
def Module.ownerFirst (m : Module) (v thief : Nat) : Bool :=
  let c := m.core v
  let same := (m.site (siteOf v)).part == (m.site (siteOf thief)).part
  m.mayStart v && (m.openContext v).isSome &&
    ((m.taskReady v && !m.waitsBelow v 5)
      || (c.desc.n == 0 && m.rangeReady v && !m.waitsBelow v 6
        && (allowedEnt v thief same c.gq).any fun e => e.1 == 0 && e.2.ranges.length == 1))

/-- The cycle in which a steal has come to its victim: a request on its way has not. -/
def Module.stealAt (m : Module) (b : Steal) : Option Nat :=
  match b.pkt with
  | some (k, _) => (m.pktAt k 2 .steal).map (·.due)
  | none => some b.since

/-- Another thief's request stands at the victim that came before, or in the same cycle from a lower VCN (R54, R66). -/
def Module.earlierThief (m : Module) (thief : Nat) (b : Steal) : Bool :=
  (m.stealAt b).any fun t => m.cores.any fun e => match e.2.thief.busy with
    | some x => x.victim == b.victim && !x.served
        && (m.stealAt x).any fun t' => decide (t' < t) || (t' == t && decide (m.vcn e.1 < m.vcn thief))
    | none => false

/-- The reply to a steal has come to its slot, where it is held until the thief takes it (R21, R55). -/
def Module.landReply (m : Module) (cid k : Nat) : Module :=
  m.onCore cid fun c =>
    match Tab.find c.ni.slots k with
    | some r => { c with ni := { c.ni with slots := Tab.put c.ni.slots k { r with ans := .ok 0 } } }
    | none => c

/-- STEAL_REQUEST: the victim of a thief answers, one request in a cycle; an attempt whose reply no route carries takes nothing
(R55, R299). -/
def execStealRequest (thief : Nat) (s : State) : Out :=
  event (fun m => (m.core thief).thief.busy.bind fun b =>
    if b.served || m.coreHeld b.victim || (m.stealAt b).isNone || m.ownerFirst b.victim thief || m.earlierThief thief b || !m.dqFree b.victim
    then none
    else
      let m := match b.pkt with
        | some (k, _) => m.dropPkt k
        | none => m
      if !m.pathOk (siteOf b.victim) (siteOf thief) then some m
      else
        let (loot, m) := m.serveSteal b.victim thief
        let m := match b.pkt with
          | some (_, k) => m.landReply thief k
          | none => m
        some (m.onCore thief fun c => { c with thief := { c.thief with busy := some { b with served := true, loot := loot } } })) s

/-- The thief is done with a steal. -/
def Module.stealOver (m : Module) (cid : Nat) (won : Bool) : Module :=
  let m := match (m.core cid).thief.busy.bind (·.pkt) with
    | some (_, k) => m.dropSlot cid k
    | none => m
  m.onCore cid fun c =>
    let t := { c.thief with busy := none }
    { c with thief := if won then { t with ring := 0, tries := 0 } else t }

/-- A stolen item starts with class 7 in the free context, once nothing of a lower class waits for it (R55, R62, R336). -/
def Module.startLoot (m : Module) (cid : Nat) (b : Birth) : Option Module :=
  if m.waitsBelow cid 7 || m.taskReady cid || m.rangeReady cid then none else m.startNew cid b

/-- A stolen range can no longer be started: its launch has stopped, or is over (R340). -/
def Module.rangeOver (m : Module) (cid : Nat) (e : NodeEnt) : Bool :=
  (m.site (siteOf cid)).graph.stopped || (m.partOf (siteOf cid)).hqLaunch ≠ e.launch

/-- STEAL_REPLY: under a pre-emption request a record goes to the thief's FIFO end (R66), and a range stays in the reply until it can
start with class 7 (R336). -/
def execStealReply (thief : Nat) (s : State) : Out :=
  event (fun m => (m.core thief).thief.busy.bind fun b =>
    let c := m.core thief
    let held := (m.partOf (siteOf thief)).swSt ≠ 0
    if !b.served || m.coreHeld thief then none
    else
      match b.loot with
      | none => some (m.stealOver thief false)
      | some (.record bs) =>
        if held then
          if c.desc.n < 64 && m.dqFree thief then some ((m.dqUnshift thief (TaskRec.decode bs)).stealOver thief true) else none
        else (m.startLoot thief ((TaskRec.decode bs).birth 7 c.spec.budget)).map (·.stealOver thief true)
      | some (.range e first count) =>
        if m.rangeOver thief e then some (m.stealOver thief true)
        else if held then none
        else (m.startLoot thief (e.birth first count 7 c.spec.budget)).map (·.stealOver thief true)) s

end Sys2Proof.Machine
end

