-- ==== Sys2Proof/Machine/Waits.lean ====
section
/-!
DEFINITION. Events of a core: waits that end or look again (R224, R228, R237), writes of special registers that waited (R94, R188,
R412), the vector unit (R487, R488), ring words (R71), register banks (R84), the groomer (R90, R91, R368) and line fills (R189).
-/
namespace Sys2Proof.Machine

/-! ## Waits -/

/-- A suspended activation with what it waits for. -/
def Module.waitOf (m : Module) (cid key : Nat) : Option WaitOn :=
  (Tab.find (m.core cid).acts key).bind fun a => if a.st = .suspended then some a.wait else none

/-- The activation goes back to the instruction at `pc`, its wait and monitor over (R224). -/
def Module.sendBack (m : Module) (cid key : Nat) (pc : Word) : Module :=
  ((m.onCore cid (·.dropMon key)).setCtl cid key { m.ctlOf cid key with pc := pc }).wake cid key none

/-- JOIN_REREAD: every 256 cycles where no monitor watches the word, and once the monitor has fired. It is a load of the JOIN; a
fault sends the activation back to its JOIN. DEDUCED (log 32). -/
def execJoinReread (cid key : Nat) (s : State) : Out :=
  event (fun m => (m.waitOf cid key).bind fun w =>
    match w with
    | .join va pc mon (some next) =>
      if m.time < next then none
      else
        match joinRead cid (100 + key) va.toNat (swMode (m.ctlOf cid key).sw) m with
        | .ok ((v, _), m) =>
          some (if v.toInt ≤ 0 then (m.onCore cid (·.dropMon key)).wake cid key (some v)
            else m.onAct cid key fun a => { a with wait := .join va pc mon (if mon then none else some (m.time + 256)) })
        | .error (.fault _) => some (m.sendBack cid key pc)
        | .error (.ask c a) => some (m.putAsk c a)
        | .error .stall => none
    | _ => none) s

/-- WAIT_EXPIRY. -/
def execWaitExpiry (cid key : Nat) (s : State) : Out :=
  event (fun m => (m.waitOf cid key).bind fun w =>
    match w with
    | .cycles t => if m.time < t then none else some (m.wake cid key (some 0))
    | _ => none) s

/-- WAITRS_TIMEOUT: once its cycle is over, so that a monitor that fires in it goes first (R238). -/
def execWaitrsTimeout (cid key : Nat) (s : State) : Out :=
  event (fun m => (m.waitOf cid key).bind fun w =>
    match w with
    | .resv (some t) =>
      if m.time ≤ t then none
      else some ((m.onCore cid (·.dropMon key)).wake cid key (some 1))
    | _ => none) s

/-- BARW_REGISTRATION_RETRY: the object is looked at again, as BARW looks at it, under the back-off of R60 (R228). -/
def execBarwRegistrationRetry (cid key : Nat) (s : State) : Out :=
  event (fun m => (m.waitOf cid key).bind fun w =>
    match w with
    | .bar loc false next tries =>
      if m.time < next then none
      else
        let o := m.barObj loc
        if !o.v then some (m.wake cid key (some 2))
        else if o.phase ≠ bit (m.ctlOf cid key).waitv 0 then some (m.wake cid key (some 0))
        else
          let room := (m.bwait.filter fun w => placeOf w.loc == placeOf loc).length < Config.barRoom
          let m := if room then { m with bwait := m.bwait ++ [⟨loc, cid, key⟩] } else m
          some (m.onAct cid key fun a => { a with wait := .bar loc room (m.time + 64 * 2 ^ min (tries + 1) 6) (tries + 1) })
    | _ => none) s

/-! ## Special-register writes that waited -/

/-- The special register that a CSR instruction names. -/
def csrNumber : Instr → Option Nat
  | .csrr f => some f.n.toNat
  | .csrw f => some f.n.toNat
  | .csrx f => some f.n.toNat
  | _ => none
/-- The CSR instructions. -/
def runCsr (i : Instr) (s : State) : Out :=
  match i with
  | .csrr f => execCsrr f s
  | .csrw f => execCsrw f s
  | .csrx f => execCsrx f s
  | _ => .next s

/-- The focus returned to where it was. -/
def refocus (old : State) : Out → Out
  | .next t => .next { t with cid := old.cid, ctx := old.ctx }
  | o => o

/-- The CSR instruction at which a context waits, taken again. -/
def csrEvent (n cid ctx : Nat) (s : State) : Out :=
  let t := { s with m := s.settled, cid := cid, ctx := ctx, open_ := none }
  if !t.m.mayIssue cid || (t.core.ctx ctx).act.isNone || t.act.win.isNone then .next s
  else
    match t.fetched with
    | .instr i m => if csrNumber i = some n then refocus s (runCsr i { t with m := m }) else .next s
    | .stop _ => .next s

/-- C_STASH_WRITE. -/
def execCStashWrite (cid ctx : Nat) (s : State) : Out := csrEvent 0x018 cid ctx s
/-- C_CPR_WRITE. DEDUCED (log 39). -/
def execCCprWrite (cid ctx : Nat) (s : State) : Out := csrEvent 0x016 cid ctx s
/-- C_SW_WRITE. -/
def execCSwWrite (cid ctx : Nat) (s : State) : Out := csrEvent 0x002 cid ctx s

/-! ## The vector unit -/

/-- VECTOR_INSTRUCTION_START: the next one in commit order. -/
def execVectorInstructionStart (cid : Nat) (s : State) : Out :=
  event (fun m => (findIdx (fun o : VOp => !o.started) (m.core cid).vq).map fun (i, o) =>
    m.onCore cid fun c => { c with vq := setAt c.vq i { o with started := true } }) s

/-- The oldest started instruction of the unit faults in its turn. DEDUCED (log 38). -/
def Module.vecFaults (m : Module) (cid : Nat) : Bool :=
  match (m.core cid).vq with
  | [] => false
  | o :: _ =>
    !(m.core cid).vcancel.contains o.key && match (o.run cid m).2 with
      | .fault _ => true
      | _ => false
/-- The turn of the oldest started instruction. -/
def vecEvent (fault : Bool) (cid : Nat) (s : State) : Out :=
  event (fun m => (m.core cid).vq.head?.bind fun o =>
    if o.started && m.vecFaults cid == fault then some (m.vecTurn cid).2 else none) s
/-- VECTOR_RETIREMENT. -/
def execVectorRetirement (cid : Nat) (s : State) : Out := vecEvent false cid s
/-- VECTOR_LATE_FAULT. -/
def execVectorLateFault (cid : Nat) (s : State) : Out := vecEvent true cid s

/-! ## Links and register banks -/

/-- NEIGHBOUR_WORD_ARRIVAL on the left link (true) or the right: no pop of this cycle sees the word (R73, R96). -/
def execNeighbourWordArrival (cid : Nat) (left : Bool) (s : State) : Out :=
  event (fun m =>
    let p := (m.core cid).ports
    let put (q : Ports) : Module := (m.onCore cid fun c => { c with ports := q }).landed cid
    if left then
      match p.flyL with
      | v :: vs => if p.nbl.length < 4 then some (put { p with flyL := vs, nbl := p.nbl ++ [v] }) else none
      | [] => none
    else
      match p.flyR with
      | v :: vs => if p.nbr.length < 4 then some (put { p with flyR := vs, nbr := p.nbr ++ [v] }) else none
      | [] => none) s

/-- REGISTER_BANK_IDLE: 256 cycles without an access. -/
def execRegisterBankIdle (cid key bank : Nat) (s : State) : Out :=
  event (fun m => (m.act cid key).win.bind fun w =>
    if 8 ≤ bank || !w.bankLive bank || bit w.ret bank || !w.idle m.time bank then none
    else some (m.setWin cid key { w with ret := setBits w.ret bank bank 1 })) s

/-! ## Errors of coded words (R90, R263) -/

/-- k put into a list of marks. -/
def mark (l : List Nat) (k : Nat) : List Nat := if l.contains k then l else l ++ [k]
/-- An error strikes a word; a read has still to find it. DESIGN CHOICE (log 147). -/
def Module.strike (m : Module) (x : Struck) (hard : Bool) : Module :=
  let worse (l : List Nat) (k : Nat) : List Nat := if hard then mark l k else l
  match x with
  | .word loc =>
    if loc % 4 ≠ 0 || m.quar.contains loc || m.upsets.any (fun u => u.1 == loc && u.2) then m
    else { m with upsets := m.upsets.filter (fun u => u.1 ≠ loc) ++ [(loc, hard)] }
  | .reg cid key k =>
    match (m.act cid key).win with
    | some w => if w.bad.contains k then m
        else m.onAct cid key fun a => { a with win := some { w with hit := mark w.hit k, bad := worse w.bad k } }
    | none => m
  | .block gid b => if (m.group gid).bad.contains b then m
      else m.onGroup gid fun g => { g with hit := mark g.hit b, bad := worse g.bad b }
  | .latch t k i => if 6144 ≤ i || (m.tile t).bad.contains (latchKey k i) then m
      else m.onTile t fun y => { y with hit := mark y.hit (latchKey k i), bad := worse y.bad (latchKey k i) }
  | .acc t i => if (m.tile t).bad.contains (64 + i) then m
      else m.onTile t fun y => { y with hit := mark y.hit (64 + i), bad := worse y.bad (64 + i) }

/-! ## The groomer -/

/-- A word of LM is corrected: three visits in a row that correct it make the core a retirement candidate (R368). -/
def Module.wordMended (m : Module) (pid off : Nat) : Module :=
  let m := m.onSite (pid / 144) fun x => { x with errC := x.errC + 1 }
  m.onPhy pid fun p =>
    let n := Tab.get 0 p.corr off + 1
    { p with corr := Tab.put p.corr off n, cand := p.cand || decide (3 ≤ n) }

/-- GROOMER_VISIT to a word: it finds the error that has struck the word, if any; `err` is one that strikes it in this visit: 0
none, 1 a single-bit error, any other number an uncorrectable one. DEDUCED (log 44). -/
def execGroomerVisit (pid off err : Nat) (s : State) : Out :=
  event (fun m =>
    let p := m.phy pid
    let st := p.bank (off / 0x8000)
    let loc := lmLoc pid off
    if 46656 ≤ pid || 2 ^ 19 ≤ off || off % 4 ≠ 0 || 2 ≤ st || bit p.failed (off / 0x8000) then none
    else if m.quar.contains loc then some m
    else
      let struck (hard : Bool) : Bool := m.upsets.any fun u => u.1 == loc && u.2 == hard
      let m := { m with upsets := m.upsets.filter fun u => u.1 ≠ loc }
      if 2 ≤ err || struck true then some (m.wordLost loc)
      else if err = 1 || struck false then some (m.wordMended pid off)
      else some (m.setPhy pid { p with corr := Tab.del p.corr off })) s

/-! ## Instruction lines -/

/-- ICACHE_FILL: the line that a context needs arrives. -/
def execIcacheFill (cid ctx : Nat) (s : State) : Out :=
  event (fun m => ((m.core cid).ctx ctx).act.bind fun key => (m.act cid key).win.bind fun w =>
    let base := w.ctl.pc.toNat / 64 * 64
    if !m.mayIssue cid || (((m.core cid).ctx ctx).line.any fun l => l.base == base) then none
    else
      match lineFor cid ctx w.ctl.pc (swMode w.ctl.sw) m with
      | .ok (_, m) => some m
      | .error _ => none) s

end Sys2Proof.Machine
end

