-- ==== Sys2Proof/Machine/Home.lean ====
section
/-!
DEFINITION. Events of a site: requests of peer modules and of the host at a home (R173, R216, R385–R387), walks, TLB invalidation
(R177, R182), recalls and write-backs of stash lines (R186, R223), the collective unit (R231), trap reports and their delivery
(R316–R318, R355, R357).
-/
namespace Sys2Proof.Machine

/-! ## Requests of peers (R386, R387) -/

/-- The home's work on a request from outside the partition: key, translation, and the access. DEDUCED (log 55). -/
def homeServe (home va : Nat) (pkey : Option (BitVec 32)) (a : Acc) (super : Bool) (n : Nat) : MM Nat := fun m =>
  let r : MM Nat := do
    MM.stopIf (pkey.any fun k => k ≠ (m.site home).pkey) .pkey va
    let (_, pa) ← xlate home va (128 * home) a super
    let loc := dramLoc home pa
    if a ≠ .store then readWords loc n va
    return loc
  match r m with
  | .error (.fault f) => .error (.fault (asSite home f))
  | x => x

/-- The access itself, after its checks: the value that the reply carries. An atomic with XF 6 updates an addland element (R281):
C is the element and D the number of its unit. -/
def homeAct (kind : PKind) (p : Packet) (loc : Nat) : MM Nat := do
  match kind with
  | .read => do
    let bs ← MM.home fun m => m.dramRead loc p.size
    return leNat bs
  | .write => do
    engineWrite loc p.payload
    return 0
  | .atomic => do
    let bs ← MM.home fun m => m.dramRead loc p.size
    let w := 8 * p.size
    if p.xf = 6 then do
      readWords loc p.size p.va.toNat
      engineWrite loc (unitXf 6 p.par ⟨p.seed, swRshc p.sw, p.sw⟩ p.d.toNat (leBytes p.size p.c.toNat) bs).1
    else MM.home fun m => m.perform loc (.rmw p.opc p.size (p.c.toNat % 2 ^ w) (p.d.toNat % 2 ^ w))
    return leNat bs
  | _ => return 0

/-- A request at its home, answered with its result, a fault, or RETRY. DEDUCED (log 55). -/
def Module.serveRequest (m : Module) (k : Nat) (p : Packet) (a : Acc) : Module :=
  let r : MM Nat := do
    let loc ← homeServe p.dsite p.va.toNat (some p.pkey) a p.super p.size
    homeAct p.kind p loc
  match r m with
  | .ok (v, m) => (m.dropPkt k).replyPeer p.dsite p .reply (.ok v)
  | .error (.fault f) => ((m.sides f.side).dropPkt k).replyPeer p.dsite p .reply (.bad f.cause f.addr)
  | .error (.ask c a) => ((m.putAsk c a).dropPkt k).replyPeer p.dsite p .retry .none_
  | .error _ => (m.dropPkt k).replyPeer p.dsite p .retry .none_

/-- A request packet that has reached its home. -/
def requestEvent (kind : PKind) (a : Packet → Acc) (p : Nat) (s : State) : Out :=
  event (fun m => (m.pktAt p 2 kind).map fun x => m.serveRequest p x (a x)) s

/-- READ_REQUEST. -/
def execReadRequest (p : Nat) (s : State) : Out := requestEvent .read (fun _ => .load) p s
/-- CHECK_REQUEST: `opc` names the access that will follow, 0 a store, else an atomic. -/
def execCheckRequest (p : Nat) (s : State) : Out := requestEvent .check (fun x => if x.opc = 0 then .store else .atomic) p s
/-- ATOMIC_REQUEST: an addland element is the write of a copy's destination, which needs W alone (R178, R271). -/
def execAtomicRequest (p : Nat) (s : State) : Out := requestEvent .atomic (fun x => if x.xf = 6 then .store else .atomic) p s

/-- What an access that a write needs, checked afresh, is. -/
def WOp.acc : WOp → Acc
  | .store _ => .store
  | .rmw _ _ _ _ => .atomic
  | .redx _ _ => .redx

/-- An `.o` operation is the one that its home expects (R220). -/
def Module.expected (m : Module) (w : LateW) : Bool :=
  match w.num with
  | some n => Tab.find (m.site (siteOfLoc w.loc)).ord w.aid == some n
  | none => true

/-- The home has done with an `.o` operation: performed or dropped, it expects the next. -/
def Module.ordDone (m : Module) (w : LateW) : Module :=
  match w.num with
  | some n => m.stepOrd w.cid w.aid w.loc n
  | none => m

/-- Two stores of one activation that meet one aligned 8-byte piece (R199). -/
def LateW.joins (w e : LateW) : Bool :=
  e.cid == w.cid && e.aid == w.aid && e.super == w.super && e.num.isNone && e.loc / 8 == w.loc / 8 && match w.op, e.op with
    | .store _, .store _ => true
    | _, _ => false

/-- The waiting writes without those that are performed with the one that stood at position i: the stores that directly follow it at its
line and lie in its aligned 8-byte piece; and those stores. -/
def Module.latePiece (m : Module) (i : Nat) (w : LateW) : List LateW × List LateW :=
  let mine := (m.late.drop (i + 1)).filter fun e => e.cid == w.cid && e.aid == w.aid && lineOf e.loc == lineOf w.loc
  let n := (mine.takeWhile w.joins).length
  let r := (m.late.drop (i + 1)).foldl
    (fun (r : List LateW × List LateW) e => if decide (r.2.length < n) && w.joins e then (r.1, r.2 ++ [e]) else (r.1 ++ [e], r.2)) ([], [])
  (m.late.take i ++ r.1, r.2)

/-- A committed write ends without an acknowledgement, or is dropped: a containment record of its core (R173, R299). -/
def LateW.record (w : LateW) (c : Cause) (addr : Word) : FaultRec :=
  { cause := c.code, addr := addr, aidv := w.aid / 2 ^ 32, aids := w.aid % 2 ^ 32 }

/-- A committed write performed at a place, with the stores of its 8-byte piece that wait behind it; or refused, with the back-off of R60;
or held behind a deferred recall. Where no route carries the acknowledgement, the request ends as NOROUTE (R299). -/
def Module.latePut (m : Module) (i : Nat) (w : LateW) (loc : Nat) : Module :=
  let (rest, with_) := m.latePiece i w
  match HomeRes.each (fun (e : LateW) m => m.perform (loc + e.loc - w.loc) e.op) (w :: with_) { m with late := rest } with
  | .ok _ m =>
    let m := m.ordDone w
    if m.pathOk (siteOfLoc w.loc) (siteOf w.cid) then m else m.contain w.cid (w.record .noroute (BitVec.ofNat 64 w.va))
  | .full l =>
    let m := m.noRoom l
    { m with late := setAt m.late i { w with due := m.time + 64 * 2 ^ min w.tries 6, tries := w.tries + 1, held := false } }
  | .defer l c x => m.deferRecall l c x

/-- A committed write sent again (R173, R380): it ends as NOROUTE where its way is cut (R299); its key and its address are checked
afresh; then it is performed, dropped with a containment record, or refused. One that its activation has read since is performed
all the same, for a read returns the value of a write (R212). DEDUCED (log 56); DEDUCED (log 155). -/
def Module.lateTurn (m : Module) (i : Nat) (w : LateW) : Module :=
  let home := siteOfLoc w.loc
  let gone (m : Module) : Module := ({ m with late := dropAt m.late i }).ordDone w
  if !m.pathOk (siteOf w.cid) home then (gone m).contain w.cid (w.record .noroute (BitVec.ofNat 64 w.va))
  else if w.seen then m.latePut i w w.loc
  else if (m.core w.cid).spec.pk ≠ (m.site home).pkey then
    (gone m).homeContain home w.cid (w.record .pkey (BitVec.ofNat 64 w.va))
  else
    match xlate home w.va w.cid w.op.acc w.super m with
    | .ok ((_, pa), m) => m.latePut i w (dramLoc home pa)
    | .error (.fault f) => (gone (m.sides f.side)).homeContain home w.cid (w.record f.cause f.addr)
    | .error _ => m

/-- The k-th waiting write is due: its time has come or it stands in the reorder buffer, no earlier write of its activation to its
line waits, its core's home expects it, and no recall that it needs is deferred (R198, R220). -/
def Module.lateDue (m : Module) (k : Nat) (w : LateW) : Bool :=
  (w.held || decide (w.due ≤ m.time)) && m.expected w && !m.recalls.any (fun r => r.1 == lineOf w.loc)
    && !(m.late.take k).any fun e => e.cid == w.cid && e.aid == w.aid && lineOf e.loc == lineOf w.loc

/-- WRITE_REQUEST: a peer's packet, or (late) the k-th committed write that waits for its home. -/
def execWriteRequest (late : Bool) (k : Nat) (s : State) : Out :=
  if late then event (fun m => (m.late[k]?).bind fun w => if m.lateDue k w then some (m.lateTurn k w) else none) s
  else requestEvent .write (fun _ => .store) k s

/-- The partition that a host port serves (R383). DEDUCED (log 54). -/
def Module.portPart (m : Module) (port : Nat) : Option Nat :=
  (m.parts.find? fun e => bit e.2.pcie 15 && bits e.2.pcie 3 0 == port).map (·.1)

/-- HOST_CXL_MEM_ACCESS: n bytes at HDM offset o of a port trained as CXL, inside one line (R384, R385). It enters the mesh at the
edge site of its port; where a link on its way carries nothing it reaches no home (R299).
DESIGN CHOICE (log 12); DEDUCED (log 54). -/
def execHostCxlMemAccess (port o n : Nat) (write : Bool) (value : Nat) (s : State) : Out :=
  event (fun m => (m.portPart port).bind fun p =>
    let va := 2 ^ 54 + o
    (((m.part p).sites[o / 2 ^ 40]?)).bind fun home =>
      if Tab.get 0 m.pcie port ≠ 1 || 2 ≤ (m.part p).swSt || n = 0 || 64 < o % 64 + n || !m.live home
          || !(m.portSite port).any (fun e => m.pathOk e home) then none
      else
        let r : MM Nat := do
          let loc ← homeServe home va none (if write then .store else .load) true n
          homeAct (if write then .write else .read) { size := n, payload := leBytes n value } loc
        match r m with
        | .ok (_, m) => some m
        | .error (.fault f) => some (m.sides f.side)
        | .error (.ask c a) => some (m.putAsk c a)
        | .error .stall => none) s

/-- A packet of the wire as the edge site of its port takes it: addressed by VCN in the port's partition, or to the home of
its address. A VCN beyond the partition goes to its first site, whose check of R25 it fails. DEDUCED (log 124). -/
def Module.fromWire (m : Module) (edge part : Nat) (w : WirePacket) : Packet :=
  let x := m.part part
  let kind : PKind := match w.kind with
    | 0 => .read | 1 => .write | 2 => .check | 3 => .atomic | 4 => .reply | 5 => .retry | 6 => .message | 7 => .migration
    | 8 => .wakeup | 9 => .steal | 10 => .streamOpen | 11 => .streamClose | 12 => .collective | 13 => .trapReport
    | _ => .nack
  let home := (m.ilvHome (x.sites.headD edge) (w.va.toNat % 2 ^ 53)).getD edge
  let byAddr := w.kind ≤ 3
  { kind := kind, dsite := if byAddr then home else (x.sites[w.dvcn / 128]?).getD (x.sites.headD edge), dl := if byAddr then 0 else w.dvcn % 128
    ssite := edge, sl := w.sl, ord := w.ord, pkey := w.pkey, seq := w.seq, svcn := w.svcn, dvcn := w.dvcn, gen := w.gen
    dmod := m.modnum.toNat, smod := w.smod, len := w.payload.length, xf := w.xf, par := w.par, seed := w.seed, sw := w.sw
    entry := leNat (w.payload.take 8) % 2 ^ 19, payload := w.payload, va := BitVec.ofNat 64 (2 ^ 53 + w.va.toNat % 2 ^ 53)
    size := w.size, opc := if w.kind = 6 then w.sendx.toNat else w.opc, c := w.c, d := w.d, super := w.super
    ans := match w.fault with
      | some 0x0B => .bad .perm w.va | some 0x0A => .bad .page w.va | some 0x0D => .bad .pkey w.va
      | some 0x0E => .bad .uncorr w.va | some _ => .bad .noroute w.va | none => .ok w.value
    slot := w.slot, phase := 1, here := edge }

/-- TAMVEX_PACKET: a port whose link is disabled, or that serves a partition without sites, discards it (R387). Kinds that do not leave a
module are discarded. An address that the partition's map gives no home is answered NOROUTE (R29). DEDUCED (log 124). -/
def execTamvexPacket (port : Nat) (w : WirePacket) (s : State) : Out :=
  event (fun m =>
    let c := Tab.get 0 m.tvx port
    match (edgeSites (port / 2)).find? m.live with
    | none => none
    | some edge =>
      let x := m.part (tvxPart c)
      let p := m.fromWire edge (tvxPart c) w
      if !tvxEn c || w.smod ≠ tvxMod c || 7 ≤ w.kind || 2 ≤ x.swSt || x.sites.isEmpty then none
      else if w.kind ≤ 3 && (m.ilvHome (x.sites.headD edge) (w.va.toNat % 2 ^ 53)).isNone then
        some (m.replyPeer edge p .reply (.bad .noroute w.va))
      else some (m.post p)) s

/-! ## Walks and TLB invalidation (R177, R180, R182) -/

/-- PAGE_TABLE_WALK: a leaf joins the TLB; an absent mapping is not kept. -/
def execPageTableWalk (site va : Nat) (s : State) : Out :=
  event (fun m =>
    let mine := match m.target (128 * site) va with
      | .dram h => h == site
      | .sys => true
      | _ => false
    if !m.live site || !mine || (tlbFind (m.site site).tlb va).isSome then none
    else
      match m.walk site va with
      | .leaf e b => some (m.onSite site fun x => { x with tlb := tlbAdd x.tlb ⟨va / 65536, b, e⟩ })
      | _ => none) s

/-- A page that some running CPYX holds pinned at a home (R275). -/
def Module.pinned (m : Module) (site : Nat) (page : Option Nat) : Bool :=
  m.tiles.any fun t => t.2.cpq.any fun q => q.2.any fun c => c.pins.any fun p =>
    p.1 == site && (match page with
      | none => true
      | some v => if p.2.block then p.2.vpn / 2 ^ 13 == v / 2 ^ 13 else p.2.vpn == v)

/-- A write of NI_TLBI: the page, or every page, dropped; BUSY until it is complete. While one is under way a further one
widens it. -/
def Module.dropTlb (m : Module) (site : Nat) (page : Option Nat) : Module :=
  m.onSite site fun x =>
    { x with tlb := (match page with
        | none => []
        | some v => tlbDrop x.tlb (v * 65536))
             tlbi := some (match x.tlbi with
        | none => page
        | some p => if p = page then p else none) }

/-- TLBI_COMPLETION: BUSY clears once no pin of a dropped entry is held. DEDUCED (log 53). -/
def execTlbiCompletion (site : Nat) (s : State) : Out :=
  event (fun m => (m.site site).tlbi.bind fun p =>
    if m.pinned site p then none else some (m.onSite site fun x => { x with tlbi := none })) s

/-! ## Stash lines (R186, R223) -/

/-- The recall has been sent. -/
def Module.recalled (m : Module) (line cid : Nat) : Module :=
  { m with recalls := m.recalls.filter fun r => !(r.1 == line && r.2.1 == cid) }

/-- A home whose write-back has no room counts it (R373, R379); the line stays held (R380). -/
def Module.orRoom (m : Module) : HomeRes Unit → Module
  | .ok _ m' => m'
  | .full l => m.noRoom l
  | .defer _ _ _ => m

/-- STASH_RECALL: for a write (true) or a read. DESIGN CHOICE (log 71). -/
def execStashRecall (cid line : Nat) (write : Bool) (s : State) : Out :=
  event (fun m => ((m.core cid).held line).bind fun _ =>
    if (m.core cid).ctxs.any (fun e => e.2.resv.any fun r => r.line == line) then none
    else some (m.orRoom (m.writeBack cid line (if write then 0 else 1)))) s
/-- The oldest SFLUSH or SINV of a core that waits for a line goes on. -/
def Module.flushTurn (m : Module) (cid line : Nat) : Option Module :=
  (findIdx (fun e : Nat × Nat × Bool => e.2.1 == line) (m.core cid).flushes).map fun (i, aid, _, drop) =>
    let who := ((upFrom 0 4).find? fun k => m.ctxAid cid k == aid).getD 4
    match m.flushOne cid who line drop with
    | (true, m) => m.onCore cid fun c => { c with flushes := dropAt c.flushes i }
    | (false, m) => m
/-- STASH_WRITE_BACK: one that an SFLUSH or SINV has still to make (R458), or one after which the line stays, clean. -/
def execStashWriteBack (cid line : Nat) (s : State) : Out :=
  event (fun m => (m.flushTurn cid line).orElse fun _ => ((m.core cid).held line).bind fun x => if x.st = 3 then some (m.orRoom (m.writeBack cid line 2)) else none) s
/-- The fill that a PREF has put off for the line at an address, once nothing delays it any more (R457). -/
def Module.prefTurn (m : Module) (cid va : Nat) : Option Module :=
  ((m.core cid).prefs.find? fun p => p.1 == va).bind fun p =>
    let (_, n) := prefLine cid p.2.1 va p.2.2 (m.onCore cid fun c => { c with prefs := c.prefs.filter (·.1 ≠ va) })
    if (n.core cid).prefs.any fun p => p.1 == va then none else some n

/-- RESERVATION_RECALL_DEFERRAL: a recall that the home has deferred is sent once the 64 cycles are over, or at the STC; or a fill that a
PREF has put off, named by the line's address, goes on (R223, R457). -/
def execReservationRecallDeferral (cid line : Nat) (s : State) : Out :=
  event (fun m => ((m.recalls.find? fun r => r.1 == line && r.2.1 == cid).bind fun r =>
    if (m.core cid).defers m.time line none then none
    else
      match m.writeBack cid line (if r.2.2 then 0 else 1) with
      | .ok _ m => some (m.recalled line cid)
      | x => some (m.orRoom x)).orElse fun _ => m.prefTurn cid line) s

/-! ## The collective unit (R231) -/

/-- COLLECTIVE_COMBINE: the oldest window that is over makes its arrival. DESIGN CHOICE (log 69). -/
def execCollectiveCombine (site : Nat) (s : State) : Out :=
  event (fun m =>
    (findIdx (fun b : Combine => b.res.isNone && decide (b.until_ < m.time)) (m.site site).comb).bind fun (i, b) =>
      match m.arriveAt b.loc (!isLm b.loc) b.count with
      | .ok r m => some (m.onSite site fun x => { x with comb := setAt x.comb i { b with res := some r } })
      | .full l => some (m.noRoom l)
      | .defer l c w => some (m.deferRecall l c w)) s

/-- BARRIER_COMPLETION_MULTICAST: a completed network barrier reaches a site, whose waiters wake. -/
def execBarrierCompletionMulticast (site loc : Nat) (s : State) : Out :=
  event (fun m =>
    let (out, keep) := m.bdone.partition fun w => w.loc == loc && siteOf w.cid == site
    if out.isEmpty then none
    else some (out.foldl (fun m w => m.wake w.cid w.key (some 0)) { m with bdone := keep })) s

/-! ## Trap reports (R316, R318, R357) -/

/-- The way of a report west to its collector, in row y with x hops to go; `first` holds until a disabled west link of its own row has sent
it to the partner row, where a further one ends it. The site that discards it, if there is one. DEDUCED (log 90). -/
def Module.trpStop (m : Module) (first : Bool) : Nat → Nat → Option Nat
  | 0, _ => none
  | x + 1, y =>
    let here := 18 * y + x + 1
    let other := if y % 2 = 0 then y + 1 else y - 1
    let there := 18 * other + x + 1
    if !m.linkOff false here 0 (here - 1) then m.trpStop first x y
    else if !first || m.linkOff false here (if y % 2 = 0 then 3 else 1) there then some here
    else if m.linkOff false there 0 (there - 1) then some there
    else m.trpStop false x other

def Module.collOf (m : Module) (k : Nat) : List (Nat × TrapRec) := Tab.get [] m.coll k

/-- A report at the collector: merged with one of its key, or in a slot of its site (R316, R318). -/
def collAdd : List (Nat × TrapRec) → Nat → TrapRec → List (Nat × TrapRec)
  | [], s, r => [(s, r)]
  | (t, a) :: l, s, r => if a.same r then (t, a.merge r) :: l else (t, a) :: collAdd l s r

/-- TRAP_REPORT: the oldest report of a site takes one of its 8 slots at its row's collector and travels there (R316); the slot is free
again where it merges, or is discarded at a router. -/
def execTrapReport (site : Nat) (s : State) : Out :=
  event (fun m =>
    match (m.site site).faultq with
    | [] => none
    | r :: rest =>
      let k := siteY site / 2
      let l := m.collOf k
      let popped := m.onSite site fun x => { x with faultq := rest }
      if 8 ≤ (l.filter (·.1 == site)).length then none
      else
        match m.trpStop true (siteX site) (siteY site) with
        | some t => some (popped.onSite t fun x => { x with trpLost := x.trpLost + 1 })
        | none => some { popped with coll := Tab.put m.coll k (collAdd l site r) }) s

/-- The 64 bytes of a trap record (R317). -/
def TrapRec.encode (r : TrapRec) : List Byte :=
  leBytes 64 (r.kind % 16 + r.part % 64 * 2 ^ 4 + r.rsite % 512 * 2 ^ 10 + r.hsite % 512 * 2 ^ 19 + r.vpn % 2 ^ 39 * 2 ^ 64
    + r.cores % 2 ^ 128 * 2 ^ 128 + r.merged % 65536 * 2 ^ 256 + r.fseq % 2 ^ 32 * 2 ^ 272 + r.fvcn % 65536 * 2 ^ 304
    + r.job % 65536 * 2 ^ 320 + r.offs % 2 ^ 48 * 2 ^ 336 + r.addr.toNat * 2 ^ 384)

/-- PFS_BASE fields (R356). -/
def pfsSize (w : Word) : Nat := bits w 58 55
def pfsEntry (w : Word) (k j : Nat) : Nat := bits w 54 6 * 64 + (k * 2 ^ pfsSize w + j) * 64

/-- The management controller that a collector reports to: that of its first row's west site. DESIGN CHOICE (log 136). -/
def Module.ringFault (m : Module) (part k : Nat) : Option Module :=
  let mc := 6 * (2 * k / 3)
  let x := Tab.get {} m.mgmt mc
  if x.ringFaults.contains (k, part) then none
  else some { m with mgmt := Tab.put m.mgmt mc { x with ringFaults := (k, part) :: x.ringFaults } }

/-- A ring takes records again: a later fault of it is reported anew. -/
def Module.ringMended (m : Module) (part : Nat) (k : Option Nat) : Module :=
  { m with mgmt := m.mgmt.map fun e => (e.1, { e.2 with ringFaults := e.2.ringFaults.filter fun r => !(r.2 == part && k.all (· == r.1)) }) }

/-- COLLECTOR_DELIVERY: the collector's oldest record of a partition goes to its ring and the fault service is told. A fault of the ring write holds the records and is reported to management, once (R357). -/
def execCollectorDelivery (part collector : Nat) (s : State) : Out :=
  event (fun m =>
    let x := m.part part
    let n := 2 ^ pfsSize x.pfsBase
    let tail := Tab.get 0 x.pfsTail collector % n
    match findIdx (fun e : Nat × TrapRec => e.2.part == part) (m.collOf collector), x.root with
    | some (i, e), some root =>
      if !bit x.pfsBase 63 || 2 ≤ x.swSt || (tail + 1) % n = Tab.get 0 x.pfsHead collector % n || 9 ≤ collector then none
      else
        let va := pfsEntry x.pfsBase collector tail
        let r : MM Unit := do
          match m.target (128 * root) va with
          | .dram home => do
            let (_, pa) ← xlate home va (128 * root) .store true
            engineWrite (dramLoc home pa) e.2.encode
          | .noRoute => MM.raise .noroute va
          | _ => MM.raise .page va
        match r m with
        | .ok (_, m) =>
          let vcn := bits x.pfsTgt 15 0
          let site := (x.sites[vcn / 128]?).getD root
          let m := ({ m with coll := Tab.put m.coll collector (dropAt (m.collOf collector) i) }).ringMended part (some collector)
          let m := m.onPart part fun x => { x with pfsTail := Tab.put x.pfsTail collector ((tail + 1) % n) }
          some (m.post
            { kind := .message, dsite := site, dl := vcn % 128, ssite := 18 * (2 * collector), sl := 0, pkey := (m.site site).pkey
              dvcn := vcn, gen := x.epoch, dmod := m.modnum.toNat, smod := m.modnum.toNat, len := 16, opc := 2
              entry := bits x.pfsTgt 34 16, slot := 64, here := 18 * (2 * collector)
              payload := leBytes 8 (bits x.pfsTgt 34 16) ++ leBytes 8 va })
        | .error (.fault f) => (m.ringFault part collector).map fun m => m.sides (f.side.filter fun x => match x with | .trap .. => false | _ => true)
        | .error (.ask c a) => some (m.putAsk c a)
        | .error .stall => none
    | _, _ => none) s

end Sys2Proof.Machine
end

