-- ==== Sys2Proof/Machine/Mcap.lean ====
section
/-!
DEFINITION. Compressed main memory (R373–R381): reserved areas, exposure, the balloon pool, the spill buffer.
-/
namespace Sys2Proof.Machine

def Module.onMc (m : Module) (s : Nat) (f : Mc → Mc) : Module := m.onSite s fun x => { x with mc := f x.mc }
def Module.mc (m : Module) (s : Nat) : Mc := (m.site s).mc

/-! ## Backing in use -/

/-- Backing bytes of one line (by location) as accounted now. -/
def Module.backing (m : Module) (line : Nat) : Nat :=
  let c := m.mc (siteOfLoc line)
  if c.reserved (paOfLoc line) then 0 else m.lineBacked line

/-- A rising list without repeats. -/
def dedup : List Nat → List Nat
  | [] => []
  | [a] => [a]
  | a :: b :: l => if a = b then dedup (b :: l) else a :: dedup (b :: l)

/-- The lines of a range that hold data at their home. -/
def Module.linesIn (m : Module) (a n : Nat) : List Nat :=
  dedup ((m.mem.filter fun c => a ≤ c.1 && c.1 < a + n).map fun c => lineOf c.1)
def Module.backingIn (m : Module) (a n : Nat) : Nat := (m.linesIn a n).foldl (fun t l => t + m.backing l) 0

/-- Every line of a range becomes zero and gives its backing back; copies in cores are gone. -/
def Module.zeroLines (m : Module) (s pa n : Nat) : Module :=
  let loc := dramLoc s pa
  let used := m.backingIn loc n
  let out (l : Nat) : Bool := l < loc || loc + n ≤ l
  let cut (c : Core) : Core := { c with stash := c.stash.filter fun x => out x.1, atom := c.atom.filter fun x => out x.1 }
  let m := { m with
    mem := Mem.zero m.mem loc n, quar := m.quar.filter out, upsets := m.upsets.filter fun u => out u.1, cores := m.cores.map fun (e : Nat × Core) => (e.1, cut e.2) }
  let m := m.onMc s fun c =>
    ({ c with bytes := c.bytes - used }.withSpill (c.spill.filter fun e => out (dramLoc s (e.1 * 64)))).settle
  (m.noteLines loc n).noteBars loc n

/-! ## Reserved areas (R374) -/

/-- The reserved area of a size is named at a base, or named no more; none where FREE is too small. The area's compressed
and spilled lines move to the backing that is set aside; those of the area given up take compressed backing again. -/
def Module.reserve (m : Module) (s size : Nat) (base : Option Nat) : Option Module :=
  let c := m.mc s
  let old := (c.resv.find? fun r => r.2 == size).map (·.1)
  if old = base then some m
  else if base.isSome ∧ c.free < unitsOf size then none
  else
    let m := m.onMc s fun c => { c with resv := c.resv.filter fun r => r.2 ≠ size }
    let m := match old with
      | some b => let n := m.backingIn (dramLoc s b) size; m.onMc s fun c => { c with bytes := c.bytes + n }
      | none => m
    some (match base with
      | some b =>
        let n := m.backingIn (dramLoc s b) size
        m.onMc s fun c =>
          ({ c with bytes := c.bytes - n, resv := c.resv ++ [(b, size)] }.withSpill
            (c.spill.filter fun e => !(b ≤ e.1 * 64 && e.1 * 64 < b + size))).settle
      | none => m.onMc s Mc.settle)

/-- A write of PSAVE (R34, R374). DEDUCED (log 65). -/
def Module.writePsave (m : Module) (s : Nat) (v : Word) : Module :=
  let v := keepBits v 0x801FFFFFFFF00000
  match m.reserve s 0x100000 (if bit v 63 then some (bits v 52 20 * 0x100000) else none) with
  | some m => m.onSite s fun x => { x with psave := v }
  | none => m
/-- PSAVE_WRITE: the owner's. -/
def execPsaveWrite (site : Nat) (value : Word) (s : State) : Out :=
  event (fun m => if m.powered && decide (site < 324) then some (m.writePsave site value) else none) s

/-! ## Capacity registers (R373) -/

/-- MC_WMARK. -/
def Mc.wmark (c : Mc) : Word := BitVec.ofNat 64 (c.low + c.high * 2 ^ 23)
def Mc.writeWmark (c : Mc) (v : Word) : Mc :=
  let lo := bits v 22 0; let hi := bits v 45 23
  if hi ≤ lo then c else { c with low := lo, high := hi }.settle
/-- MC_SPILL. -/
def Mc.spillWord (c : Mc) : Word := BitVec.ofNat 64 (c.spill.length + c.retries * 2 ^ 32)
/-- A read of MC_SPILL returns it and clears RETRIES. -/
def Module.readSpill (m : Module) (s : Nat) : Word × Module := ((m.mc s).spillWord, m.onMc s fun c => { c with retries := 0 })
/-- MC_SPILL_READ, over the management path. -/
def execMcSpillRead (site : Nat) (s : State) : Out :=
  event (fun m => if m.powered && decide (site < 324) then some (m.readSpill site).2 else none) s

/-- The owner's write of FACT: outside 8–24, or while the site belongs to a partition, resident or saved, it is ignored. -/
def Module.writeExpose (m : Module) (s fact : Nat) : Module :=
  if fact < 8 || 24 < fact || m.parts.any (fun e => e.2.sites.contains s) then m
  else (m.zeroLines s 0 (2 ^ 53)).onMc s fun c => { c with fact := fact }
/-- MC_EXPOSE_WRITE: the write that an owner token has sent (R391) reaches the stack. -/
def execMcExposeWrite (site : Nat) (s : State) : Out :=
  event (fun m => (m.mc site).due.map fun f => (m.writeExpose site f).onMc site fun c => { c with due := none }) s

/-! ## The balloon pool (R375, R376) -/

/-- MC_BPOOL. -/
def Mc.bpool (c : Mc) : Word := BitVec.ofNat 64 (c.bsize + c.ben.toNat * 2 ^ 15 + c.baddr * 2 ^ 16)
/-- A write of MC_BPOOL names the ring page; ignored where FREE is too small, or SIZE is outside 4–13. DEDUCED (log 65). -/
def Module.writeBpool (m : Module) (s : Nat) (v : Word) : Module :=
  let size := bits v 3 0; let a := bits v 52 16
  if size < 4 || 13 < size then m
  else
    match m.reserve s 0x10000 (some (a * 0x10000)) with
    | some m => m.onMc s fun c => { c with bsize := size, ben := bit v 15, baddr := a, active := c.active && bit v 15 }
    | none => m
/-- MC_BPOOL_WRITE. -/
def execMcBpoolWrite (site : Nat) (value : Word) (s : State) : Out :=
  event (fun m => if m.powered && decide (site < 324) then some (m.writeBpool site value) else none) s

/-- A write of MC_BTAIL; 2^SIZE or more is ignored. One that empties the pool ends the engine's work (R376). -/
def Mc.writeBtail (c : Mc) (v : Word) : Mc :=
  if bits v 12 0 < 2 ^ c.bsize then { c with btail := bits v 12 0, active := c.active && c.bhead ≠ bits v 12 0 } else c
/-- MC_BTAIL_WRITE. -/
def execMcBtailWrite (site : Nat) (value : Word) (s : State) : Out :=
  event (fun m => if m.powered && decide (site < 324) then some (m.onMc site fun c => c.writeBtail value) else none) s

/-- The pool holds no entry. -/
def Mc.poolEmpty (c : Mc) : Bool := c.bhead == c.btail
/-- The engine acts on the entry at HEAD. DEDUCED (log 64). -/
def Mc.balloonDue (c : Mc) : Bool := c.ben && !c.poolEmpty && decide (c.free < if c.active then c.high else c.low)
/-- A page that an entry may release. -/
def Mc.pageOk (c : Mc) (e : Word) : Bool :=
  let a := bits e 52 16 * 0x10000
  bits e 15 1 == 0 && bits e 63 53 == 0 && decide (a + 0x10000 ≤ c.range) && !c.resv.any fun r => meet r.1 r.2 a 0x10000

/-- The entry at HEAD is done with. -/
def Mc.taken (c : Mc) : Mc :=
  let c := { c with bhead := (c.bhead + 1) % 2 ^ c.bsize }
  { c with active := !c.poolEmpty && decide (c.free < c.high) }

/-- BALLOON_RELEASE. -/
def execBalloonRelease (site : Nat) (s : State) : Out :=
  event (fun m =>
    let c := m.mc site
    let loc := dramLoc site (c.baddr * 0x10000 + 8 * c.bhead)
    if !c.balloonDue then none
    else
      let r : HomeRes Unit := (m.dramRead loc 8).bind fun b m =>
        let e := BitVec.ofNat 64 (leNat b)
        let m := if c.pageOk e then m.zeroLines site (bits e 52 16 * 0x10000) 0x10000 else m
        (m.dramWrite loc (leBytes 8 (setBits e 0 0 1).toNat)).bind fun _ m => .ok () (m.onMc site Mc.taken)
      match r with
      | .defer l c w => some (m.deferRecall l c w)
      | x => some (m.orRoom x)) s

/-- SPILL_MOVE: the line that entered the buffer first moves into backing once it has room there. -/
def execSpillMove (site : Nat) (s : State) : Out :=
  event (fun m =>
    let c := m.mc site
    match c.spill with
    | [] => none
    | (_, data) :: rest =>
      let n := lineNeed data
      if 6291456 < c.resvUnits + unitsOf (c.bytes + n) then none
      else some (m.onMc site fun c => { c with bytes := c.bytes + n }.withSpill rest)) s

end Sys2Proof.Machine
end

