-- ==== Sys2Proof/Machine/Notice.lean ====
section
/-!
DEFINITION. Page notices (R355, R358, R359): the fault service's answers to trap reports and what they do at each site.
-/
namespace Sys2Proof.Machine

/-! ## Sending a notice -/

/-- A write of FC_CMD: one notice for the page of FC_VPN. A partition that is saved drops it (R372). -/
def Module.writeFcCmd (m : Module) (p : Nat) (v : Word) : Module :=
  let x := m.part p
  let sites := if bit v 1 then x.sites else (x.sites[bits v 10 2]?).toList
  if x.swSt = 3 || sites.isEmpty then m
  else m.setPart p { x with notices := x.notices ++ [⟨x.fcVpn, bit v 0, sites⟩] }

/-- PAGE_NOTICE_RESUME: `all` for every site, otherwise the site of PSI `rsite`. -/
def execPageNoticeResume (part : Nat) (all : Bool) (rsite : Nat) (s : State) : Out :=
  event (fun m => if !m.powered then none
    else some (m.writeFcCmd part (BitVec.ofNat 64 (2 * all.toNat + rsite % 512 * 4)))) s
/-- PAGE_NOTICE_CANCEL. -/
def execPageNoticeCancel (part : Nat) (all : Bool) (rsite : Nat) (s : State) : Out :=
  event (fun m => if !m.powered then none
    else some (m.writeFcCmd part (BitVec.ofNat 64 (1 + 2 * all.toNat + rsite % 512 * 4)))) s

/-! ## What a notice does at a site -/

/-- PW of an activation's upcall record is cleared. -/
def Module.clearPw (m : Module) (cid key : Nat) : Module :=
  let off := (m.ctlOf cid key).waitv.toNat % 2 ^ 19
  m.putWord cid off ({ FaultRec.decode (m.lmRead cid off 64) with pw := false }).encode

/-- A notice at one activation with a page wait in its upcall record. One that is FAULTED in its upcall code stays so, and finds PW = 0 at
its URET once it is resumed (R358). -/
def Module.noticeAct (m : Module) (cid key : Nat) (cancel : Bool) : Module :=
  let a := m.act cid key
  let m := m.clearPw cid key
  match a.wait, cancel with
  | .uret, true => m.cancelPage cid key
  | .uret, false => (m.wake cid key none).onAct cid key fun a => { a with pw := none }
  | _, c => m.onAct cid key fun a => { a with pw := none, pwCancel := c }

/-- A notice at the heads of a tile's copy queues (R273). -/
def Module.noticeQueue (m : Module) (tile q : Nat) (hit : Nat → Bool) (cancel : Bool) : Module :=
  match (m.tile tile).cpRun q with
  | none => m
  | some c =>
    match c.stall with
    | none => m
    | some (a, perm) =>
      if !hit (a.toNat / 65536) then m
      else if cancel then m.cpLate tile q c (if perm then .perm else .page) a
      else m.cpSet tile q { c with stall := none }

/-- The activations of a site whose page wait meets a test. DEDUCED (log 115). -/
def Module.pageWaits (m : Module) (site : Nat) (hit : Nat → Bool) : List (Nat × Nat) :=
  (m.cores.filter fun e => siteOf e.1 == site).flatMap fun e => (e.2.acts.filter fun a => a.2.pw.any hit).map fun a => (e.1, a.1)

/-- PAGE_NOTICE_ARRIVAL: the oldest notice that has still to reach a site acts there, or is lost where no way from the entry point
carries it (R299, R516). -/
def execPageNoticeArrival (part site : Nat) (s : State) : Out :=
  event (fun m =>
    let x := m.part part
    (findIdx (fun n : Notice => n.sites.contains site) x.notices).map fun (i, n) =>
      let left := n.sites.filter (· ≠ site)
      let m := m.setPart part
        { x with notices := if left.isEmpty then dropAt x.notices i else setAt x.notices i { n with sites := left } }
      if !m.blockReaches part site then m
      else
      let hit (v : Nat) : Bool := v == n.vpn
      let m := (m.pageWaits site hit).foldl (fun m e => m.noticeAct e.1 e.2 n.cancel) m
      (upFrom (16 * site) 16).foldl
        (fun m t => (Tab.keys (m.tile t).cpq).foldl (fun m q => m.noticeQueue t q hit n.cancel) m) m) s

end Sys2Proof.Machine
end

