-- ==== Sys2Proof/Machine/Stream.lean ====
section
/-!
DEFINITION. Streams and stream bindings (R72, R277, R278, R311–R314, R467, R468).
-/
namespace Sys2Proof.Machine

/-- The control word of SOPEN and SCLOSE: the operands, then the HBLOCK of a handler. -/
def streamOperands (l : List Word) (i : Nat) : Run (Nat × Bool) := do
  let c := arg l i
  Run.stopIf (bits c 63 3 ≠ 0) .badopnd
  noHandler
  return (bits c 1 0, bit c 2)

/-- A receive binding of sN is held by an activation. -/
def Core.boundTo (c : Core) (aid n : Nat) : Bool :=
  (Tab.find c.ports.recv n).any (·.aid == aid) || c.ports.binds.any fun b => b.aid == aid && b.n == n

/-- SOPEN (R311, R468). DEDUCED (log 95). -/
def execSopen (f : Bin) (s : State) : Out :=
  run (do
    let l ← operands [⟨f.b, f.kb, .addr⟩, ⟨f.c, f.kc, .addr⟩] (some (.reg, f.a))
    let (n, recv) ← streamOperands l 1
    let s ← get
    let h := arg l 0
    let c := s.core
    if recv then do
      if f.b ≠ opZ then checkHandle h
      let from_ := if f.b = opZ then none
        else if bits h 31 16 = s.m.modnum.toNat then s.m.coreOfVcn (siteOf s.cid) (bits h 15 0) else some niAgent
      if c.boundTo s.aid n then writeDst f.a 3
      else if (Tab.find c.ports.recv n).isSome then writeDst f.a 4
      else do
        Run.onCore fun c =>
          { c with ports := { c.ports with recv := Tab.put c.ports.recv n { aid := s.aid, from_ := from_, last := s.m.time } } }
        writeDst f.a 0
    else do
      checkHandle h
      Run.stopIf (bits h 31 16 ≠ s.m.modnum.toNat) .noroute h.toNat
      let d := (s.m.coreOfVcn (siteOf s.cid) (bits h 15 0)).getD 0
      if c.ports.send.any fun p => p.aid == s.aid && !p.closing then writeDst f.a 1
      else if 4 ≤ (c.ports.send.filter fun p => !p.closing).length then writeDst f.a 2
      else do
        Run.onCore fun c =>
          { c with ports := { c.ports with send := c.ports.send ++ [{ aid := s.aid, dcid := d, n := n, last := s.m.time }] } }
        writeDst f.a 0) s

/-- SCLOSE (R311, R313, R314, R468). -/
def execSclose (f : ScloseF) (s : State) : Out :=
  run (do
    let l ← operands [⟨f.c, f.kc, .addr⟩] (some (.reg, f.a))
    let (n, recv) ← streamOperands l 0
    let s ← get
    if recv then
      if (Tab.find s.core.ports.recv n).any (·.aid == s.aid) then do
        Run.onM fun m => m.endRecv s.cid n
        writeDst f.a 0
      else writeDst f.a 1
    else
      match s.core.ports.send.find? fun p => p.aid == s.aid && !p.closing with
      | none => writeDst f.a 1
      | some p => do
        if p.route = 3 then Run.fault { cause := .streambrk, side := [.sport s.cid s.aid] }
        Run.onCore fun c => c.closeSend s.aid
        writeDst f.a 0) s

/-- The refusal code of SBIND, or none (R277). -/
def Module.bindRefusal (m : Module) (cid aid n job : Nat) (piece : Word) : Option Nat :=
  let c := m.core cid
  match m.cpJob cid job with
  | none => some 1
  | some (q, cmd) =>
    let far := decide (16 ≤ (((c.jobCp.last : Int) - job) % 65535).toNat)
    if job = 0 || far || cmd.op == .dtld || !m.cpLocal cid q cmd || decide (cmd.pieces ≤ piece.toNat) then some 1
    else if c.jobCp.state job = .faulted then some 2
    else if (Tab.find c.ports.recv n).any (·.aid == aid) then some 3
    else if 16 ≤ (c.ports.binds.filter fun b => !(b.aid == aid && b.n == n)).length then some 4
    else none

/-- SBIND (R277, R467). -/
def execSbind (f : SbindF) (s : State) : Out :=
  run (do
    let l ← operands [⟨f.b, f.kb, .addr⟩, ⟨f.c, f.kc, .addr⟩] (some (.reg, f.a))
    let s ← get
    let job := bits (arg l 0) 15 0
    let n := f.n.toNat
    match s.m.bindRefusal s.cid s.aid n job (arg l 1) with
    | some k => writeDst f.a (BitVec.ofNat 64 k)
    | none => do
      Run.onCore fun c =>
        { c with ports := { c.ports with
            binds := (c.ports.binds.filter fun b => !(b.aid == s.aid && b.n == n)) ++ [⟨s.aid, n, job, (arg l 1).toNat⟩] } }
      writeDst f.a 0) s

/-! ## Events -/

/-- The send port that a stream's route starts from, in one of its phases. -/
def Module.sender (m : Module) (scid sid route : Nat) : Option (Nat × SPort) :=
  findIdx (fun p : SPort => p.sid == sid && p.route == route) (m.core scid).ports.send
def Module.setSender (m : Module) (scid i : Nat) (p : SPort) : Module :=
  m.onCore scid fun c => { c with ports := { c.ports with send := setAt c.ports.send i p } }

/-- STREAM_OPEN: the route has reached the receiving NI and waits there (R312). DEDUCED (log 95). -/
def execStreamOpen (p : Nat) (s : State) : Out :=
  event (fun m => (m.arrives p .streamOpen).map fun x =>
    let m := m.dropPkt p
    if !m.handleHolds x then m.breakRoute x.src p
    else if (m.sender x.src p 1).isNone then m
    else (m.setLat x).onCore x.dst fun c =>
      { c with ports := { c.ports with routes := c.ports.routes ++ [⟨x.src, p, x.entry⟩] } }) s

/-- STREAM_ATTACH: route i of the core attaches to its port. -/
def execStreamAttach (cid i : Nat) (s : State) : Out :=
  event (fun m => ((m.core cid).ports.routes[i]?).bind fun r =>
    match Tab.find (m.core cid).ports.recv r.n, m.sender r.scid r.sid 1 with
    | some b, some (j, p) =>
      if b.src.isSome || b.closed || b.broken || !(b.from_ = none || b.from_ = some r.scid) then none
      else
        let m := m.onCore cid fun c =>
          { c with ports := { c.ports with
              routes := dropAt c.ports.routes i
              recv := Tab.put c.ports.recv r.n { b with src := some (r.scid, r.sid), last := 0 } } }
        some (m.setSender r.scid j { p with route := 2 })
    | _, none => some (m.onCore cid fun c => { c with ports := { c.ports with routes := dropAt c.ports.routes i } })
    | _, _ => none) s

/-- STREAM_FLIT_SEND: up to 8 words leave send port i, or the closing flit after the last. -/
def execStreamFlitSend (cid i : Nat) (s : State) : Out :=
  event (fun m => ((m.core cid).ports.send[i]?).bind fun p =>
    if p.route ≠ 2 then none
    else if p.words.isEmpty then
      if p.closing then
        let f : Flit := { scid := cid, sid := p.sid, dcid := p.dcid, n := p.n, words := [], close := true, links := p.links }
        some ({ m with flits := m.flits ++ [f] }.onCore cid fun c =>
          { c with ports := { c.ports with send := dropAt c.ports.send i } })
      else none
    else if 8 ≤ p.words.length || p.closing || p.last + 4 ≤ m.time then
      let f : Flit := { scid := cid, sid := p.sid, dcid := p.dcid, n := p.n, words := p.words.take 8, close := false }
      some ({ m with flits := m.flits ++ [f] }.setSender cid i { p with words := p.words.drop 8, idle := m.time })
    else none) s

/-- Flit k, when it is the next of its stream. -/
def Module.nextFlit (m : Module) (k : Nat) (close : Bool) : Option Flit :=
  (m.flits[k]?).filter fun f =>
    f.close == close && !(m.flits.take k).any fun g => g.scid == f.scid && g.sid == f.sid

/-- STREAM_DATA_ARRIVAL: no pop of this cycle sees the words (R73). -/
def execStreamDataArrival (k : Nat) (s : State) : Out :=
  event (fun m => (m.nextFlit k false).map fun f =>
    let m := { m with flits := dropAt m.flits k }
    match Tab.find (m.core f.dcid).ports.recv f.n with
    | some r =>
      if r.src = some (f.scid, f.sid) then
        (m.onCore f.dcid fun c =>
          { c with ports := { c.ports with recv := Tab.put c.ports.recv f.n { r with buf := r.buf ++ f.words } } }).landed f.dcid
      else m
    | none => m) s

/-- STREAM_CLOSE: the binding ends once its last word is popped (R313). -/
def execStreamClose (k : Nat) (s : State) : Out :=
  event (fun m => (m.nextFlit k true).map fun f =>
    let m := { m with flits := dropAt m.flits k }
    match Tab.find (m.core f.dcid).ports.recv f.n with
    | some r =>
      if r.src = some (f.scid, f.sid) then
        m.onCore f.dcid fun c =>
          let t := if r.buf.isEmpty then Tab.del c.ports.recv f.n
            else Tab.put c.ports.recv f.n { r with closed := true, src := none }
          { c with ports := { c.ports with recv := t } }
      else m
    | none => m) s

/-- STREAM_CREDIT: credit k returns to its sender. -/
def execStreamCredit (k : Nat) (s : State) : Out :=
  event (fun m => (m.credits[k]?).map fun (sc, si, n) =>
    let m := { m with credits := dropAt m.credits k }
    m.onCore sc fun c =>
      { c with ports := { c.ports with
          send := c.ports.send.map fun p =>
            if p.sid == si && p.route == 2 then { p with credit := min (p.credit + n) 64 } else p } })
    s

/-- STREAM_IDLE_BREAK: 2^16 cycles from the open in which no word is injected and none is popped (R314). -/
def execStreamIdleBreak (cid i : Nat) (s : State) : Out :=
  event (fun m => ((m.core cid).ports.send[i]?).bind fun p =>
    let last := match Tab.find (m.core p.dcid).ports.recv p.n with
      | some r => if r.src = some (cid, p.sid) then max p.idle r.last else p.idle
      | none => p.idle
    if !(p.route == 1 || p.route == 2) || m.time < last + 2 ^ 16 then none
    else some (m.breakStream cid p.sid p.dcid p.n)) s

/-! ## Links that stop (R314) -/

/-- A link of a route carries nothing any more. -/
def Module.linkCut (m : Module) (l : Nat) : Bool :=
  let here := l / 8
  let next := match l % 4 with
    | 0 => here - 1 | 1 => here - 18 | 2 => here + 1 | _ => here + 18
  m.linkOff (l / 4 % 2 == 1) here (l % 4) next

/-- Every stream whose route crosses a link that has stopped breaks (R314). -/
def Module.cutStreams (m : Module) : Module :=
  let ports := m.cores.flatMap fun e => (e.2.ports.send.filter fun p => p.links.any m.linkCut).map fun p => (e.1, p.sid, p.dcid, p.n)
  let flits := (m.flits.filter fun f => f.links.any m.linkCut).map fun f => (f.scid, f.sid, f.dcid, f.n)
  (ports ++ flits).foldl (fun m x => m.breakStream x.1 x.2.1 x.2.2.1 x.2.2.2) m

end Sys2Proof.Machine
end

