-- ==== Sys2Proof/Machine/Swap.lean ====
section
/-!
DEFINITION. Partition pre-emption and swap (R363–R367, R264, R289, R290, R341), failing cores: retirement and self-test
(R368–R371).
-/
namespace Sys2Proof.Machine

/-! ## Quiescence (R364) -/

/-- The logical cores of a partition's sites. -/
def coresOf (sites : List Nat) : List Nat := sites.flatMap fun s => upFrom (128 * s) 128

/-- Every reply slot of a core is answered; a RETRY answers (R366). DEDUCED (log 113). -/
def Module.answered (m : Module) (cid : Nat) : Bool :=
  (m.core cid).ni.slots.all fun e => e.2.ans ≠ .none_ ||
    m.pkts.any fun p => p.2.src == cid && p.2.slot == e.1 && p.2.kind == e.2.req.kind && p.2.seq == e.2.req.seq && p.2.phase == 3

/-- Steps 1–3 are done at a core: nothing issues, nothing of it is under way. A stolen item stays in its reply (R55).
DEDUCED (log 113). -/
def Module.coreQuiet (m : Module) (cid : Nat) : Bool :=
  let c := m.core cid
  !(c.acts.any fun e => e.2.ctx?.isSome) && c.vq.isEmpty && c.thief.busy.all (·.served) && m.answered cid
    && !(m.pkts.any fun p => m.ownPkt p.2 && p.2.src == cid && (p.2.phase == 1 || p.2.phase == 2 || p.2.phase == 4))

/-- A tile's engines have stopped: no step in flight, every running copy stalled or at a chunk boundary (R264, R290). -/
def Module.tileQuiet (m : Module) (t : Nat) : Bool :=
  let x := m.tile t
  x.frozen && x.steps.isEmpty && (Tab.keys x.cpq).all fun q =>
    match x.cpRun q with
    | some c => c.stall.isSome || m.atChunk c q || m.cpHeld t q
    | none => true

/-- The streams of a core break (R314). -/
def Module.breakStreams (m : Module) (cid : Nat) : Module :=
  let m := (m.core cid).ports.send.foldl (fun m p => if p.route = 0 then m else m.breakStream cid p.sid p.dcid p.n) m
  (m.core cid).ports.recv.foldl
    (fun m e =>
      match e.2.src with
      | some (sc, si) => if e.2.closed || e.2.broken then m else m.breakStream sc si cid e.1
      | none => m)
    (m.onCore cid fun c => { c with ports := { c.ports with routes := [] } })

/-- Cores stop issuing; afterwards their engines freeze and their streams break. -/
def Module.stopUnits (m : Module) (sites : List Nat) : Module :=
  let m := sites.foldl (fun m s => (upFrom (16 * s) 16).foldl (fun m t => m.onTile t fun x => { x with frozen := true }) m) m
  (coresOf sites).foldl Module.breakStreams m

/-- A command that is not refused leaves ERR clear (R363). -/
def Module.swapOk (m : Module) (p : Nat) : Module := m.onPart p fun x => { x with swErr := false }
/-- A new STATE of PSWAP_ST, with its time (R363). -/
def Module.setSwap (m : Module) (p st : Nat) : Module := m.onPart p fun x => { x with swSt := st, swT := m.fabNow }
/-- A refused command. DEDUCED (log 112). -/
def Module.swapErr (m : Module) (p : Nat) : Module := m.onPart p fun x => { x with swErr := true }

/-- Every site of a partition has its save area (R34). -/
def Module.areas (m : Module) (x : Part) : Bool := x.sites.all fun s => bit (m.site s).psave 63

/-- A write of PSWAP_CTL (R363): command and OTHER. DEDUCED (log 112). -/
def Module.swapCommand (m : Module) (p cmd other : Nat) : Module :=
  let x := m.part p
  let o := m.part other
  match cmd with
  | 0 => m
  | 1 =>
    if x.sites.isEmpty || x.swSt ≠ 0 || !m.areas x || x.sites.any fun s => (m.site s).shadow.isSome then m.swapErr p
    else ((m.swapOk p).onPart p fun x => { x with swOther := none }).setSwap p 1
  | 2 =>
    if x.swSt ≠ 3 || x.sites.any fun s => (m.site s).part.isSome then m.swapErr p
    else
      let m := x.sites.foldl (fun m s => m.onSite s fun y => { y with part := some p, psi := x.sites.idxOf s }) m
      (m.swapOk p).setSwap p 4
  | _ =>
    if x.sites.isEmpty || x.swSt ≠ 0 || !m.areas x || o.swSt ≠ 3 || o.sites ≠ x.sites
        || x.sites.any fun s => (m.site s).shadow ≠ some other then m.swapErr p
    else ((m.swapOk p).onPart p fun x => { x with swOther := some other }).setSwap p 1

/-- SWAP_OUT. -/
def execSwapOut (part : Nat) (s : State) : Out := event (fun m => if m.powered then some (m.swapCommand part 1 0) else none) s
/-- SWAP_IN. -/
def execSwapIn (part : Nat) (s : State) : Out := event (fun m => if m.powered then some (m.swapCommand part 2 0) else none) s
/-- SWAP_EXCHANGE. -/
def execSwapExchange (part other : Nat) (s : State) : Out :=
  event (fun m => if m.powered then some (m.swapCommand part 3 (other % 64)) else none) s

/-- PSWAP_ST. -/
def Part.swapWord (x : Part) : Word := BitVec.ofNat 64 (x.swSt + x.swErr.toNat * 8 + x.swT % 2 ^ 48 * 16)
/-- A read of PSWAP_ST returns it and clears ERR. -/
def Module.readSwap (m : Module) (p : Nat) : Word × Module := ((m.part p).swapWord, m.onPart p fun x => { x with swErr := false })
/-- PSWAP_ST_READ, over the management path. -/
def execPswapStRead (part : Nat) (s : State) : Out := event (fun m => if m.powered then some (m.readSwap part).2 else none) s

/-- QUIESCENCE_AGREEMENT: activations have stopped at every site, and each event of the completion stream has been applied at every site
or at none (R341), then its engines and streams; then saving begins. -/
def execQuiescenceAgreement (part : Nat) (s : State) : Out :=
  event (fun m =>
    let x := m.part part
    let tiles := x.sites.flatMap fun s => upFrom (16 * s) 16
    let coming (p : Packet) : Bool := x.sites.contains p.dsite && !m.ownPkt p && decide (p.phase ≤ 2)
    if x.swSt ≠ 1 || !(coresOf x.sites).all m.coreQuiet || m.pkts.any (fun e => coming e.2)
        || x.sites.any (fun t => (m.site t).graph.applied ≠ m.furthest x) then none
    else if !tiles.all fun t => (m.tile t).frozen then some (m.stopUnits x.sites)
    else if !tiles.all m.tileQuiet || (m.flits.any fun f => x.sites.contains (siteOf f.scid) || x.sites.contains (siteOf f.dcid)) then
      none
    else some (((coresOf x.sites).foldl (fun m c => m.onCore c fun k => { k with quiet := true }) m).setSwap part 2)) s

/-! ## What a swap out saves (R365) -/

/-- LM banks as they are once nothing is in transition. DEDUCED (log 111). -/
def Phys.settled (p : Phys) : BitVec 32 :=
  BitVec.ofNat 32 ((upFrom 0 16).foldl (fun a b => a + (match p.bank b with | 3 => 0 | k => k) * 4 ^ b) 0)

/-- The windows of a core reach their workspaces (step 5). -/
def Module.parkBounds (m : Module) (cid : Nat) : Module :=
  (m.core cid).bounds.foldl
    (fun m e => (m.parkOrTrap cid e.1 .ready).onAct cid e.1 fun a => { a with since := e.2.since, aged := e.2.aged }) m
/-- Windows and dirty lines of a core reach memory, and no line is held any more (step 5, R186). -/
def Module.flushCore (m : Module) (cid : Nat) : HomeRes Unit :=
  let m := m.parkBounds cid
  m.flushLines cid (m.core cid).allLines

/-- A core as saved. DEDUCED (log 111). -/
def Module.saveCore (m : Module) (cid : Nat) : Saved :=
  let pid := m.pid cid
  let c := m.core cid
  let a := lmLoc pid 0
  let stash (o : Nat) : Bool := c.stashFirst * 0x8000 ≤ o && o < (c.stashFirst + c.stashNb) * 0x8000
  { vcn := m.vcn cid, pid := pid, core := { c with quiet := false, icache := [], flushes := [], prefs := [] }, lm := (m.phy pid).settled
    bytes := (m.mem.filter fun b => a ≤ b.1 && b.1 < a + 2 ^ 19 && !stash (b.1 - a)).map fun b => (b.1 - a, b.2)
    quar := (m.quar.filter fun q => a ≤ q && q < a + 2 ^ 19).map (· - a) }

/-- A tile as saved: staging copies are discarded, an MXLD starts again, without a second wait for its semaphore, pins are released
(R264). -/
def Tile.saved (t : Tile) : Tile :=
  let mx (l : List MxCmd) : List MxCmd := match l with
    | c :: r => if c.op = .ld then { c with started := false, begun := c.begun || c.started, pos := 0 } :: r else c :: r
    | [] => []
  { t with staging := [], rot := [], frozen := !t.stepped.isEmpty
           mxq := t.mxq.map fun e => (e.1, mx e.2)
           cpq := t.cpq.map fun e => (e.1, e.2.map fun c => if c.op = .cpyx then { c with pins := [], pinned := false } else c) }

/-- A site as saved. -/
def Module.saveSite (m : Module) (s : Nat) : SavedSite :=
  let x := m.site s
  { site := s, tiles := (upFrom (16 * s) 16).map fun t => (t, (m.tile t).saved), graph := x.graph, home := x.home, nst := x.nst
    slalom := x.slalom, ptroot := x.ptroot, pkey := x.pkey, epoch := x.epoch, comb := x.comb, bars := x.bars, vacant := x.vacant
    cores := ((upFrom (128 * s) 128).filter fun c => !m.vacant c || !(m.core c).gq.isEmpty).map m.saveCore }

/-- A packet that a saved partition keeps. -/
def Module.keeps (m : Module) (sites : List Nat) (p : Packet) : Bool := m.ownPkt p && sites.contains p.ssite

/-- The context of a partition (step 6). DESIGN CHOICE (log 66). -/
def Module.context (m : Module) (sites : List Nat) : Context :=
  let mine (c : Nat) : Bool := sites.contains (siteOf c)
  { sites := sites.map m.saveSite, pkts := m.pkts.filter fun e => m.keeps sites e.2, bwait := m.bwait.filter fun w => mine w.cid
    bdone := m.bdone.filter fun w => mine w.cid, late := m.late.filter fun w => mine w.cid }

/-- The sites without the partition's state; TLB entries are dropped. -/
def Module.clearSites (m : Module) (sites : List Nat) : Module :=
  let mine (c : Nat) : Bool := sites.contains (siteOf c)
  let m := { m with
    cores := m.cores.filter fun e => !mine e.1, tiles := m.tiles.filter fun e => !sites.contains (e.1 / 16)
    pkts := m.pkts.filter fun e => !m.keeps sites e.2, bwait := m.bwait.filter fun w => !mine w.cid
    bdone := m.bdone.filter fun w => !mine w.cid, late := m.late.filter fun w => !mine w.cid
    credits := m.credits.filter fun c => !mine c.1 }
  sites.foldl
    (fun m s => m.onSite s fun x =>
      { x with part := none, graph := {}, vacant := [], tlb := [], tlbi := none, comb := [], bars := [] }) m

/-- The restore of a saved partition begins on its sites. -/
def Module.beginRestore (m : Module) (p : Nat) : Module :=
  let x := m.part p
  (x.sites.foldl (fun m s => m.onSite s fun y => { y with part := some p, psi := x.sites.idxOf s }) m).setSwap p 4

/-- The 1 MiB area at PSAVE of a site is written with what is saved (R34, R365), in a form that the spec does not give.
DESIGN CHOICE (log 66). -/
def Module.writeArea (m : Module) (s : Nat) : Module :=
  let a := dramLoc s (bits (m.site s).psave 52 20 * 2 ^ 20)
  { m with mem := Mem.fill m.mem a (2 ^ 20) fun i => Config.saveByte m.time (2 ^ 20 * s + i) }

/-- Steps 6 and 7: the context is saved, the sites are free, and the other partition of an exchange begins its restore. -/
def Module.saveContext (m : Module) (part : Nat) (x : Part) : Module :=
  let ctx := m.context x.sites
  let m := x.sites.foldl Module.writeArea (m.clearSites x.sites)
  let m := (m.onPart part fun y => { y with saved := ctx, notices := [], swOther := none }).setSwap part 3
  let m := x.sites.foldl (fun m s => m.onSite s fun y => { y with shadow := some part, dirty := x.swOther.isSome && y.dirty }) m
  match x.swOther with
  | some o => m.beginRestore o
  | none => m

/-- The windows of a core are written back, and those of its lines that have room at their homes; the others stay held (R380, R381). -/
def Module.flushRoom (m : Module) (cid : Nat) : Module :=
  let m := m.parkBounds cid
  (m.core cid).allLines.foldl
    (fun m l =>
      match m.writeBack cid l 0 with
      | .ok _ m => m
      | .full k => m.noRoom k
      | .defer k c w => m.deferRecall k c w) m

/-- SWAP_SAVE_COMPLETION. While some line has no room, the writes of the areas at PSAVE go through all the same (R381). -/
def execSwapSaveCompletion (part : Nat) (s : State) : Out :=
  event (fun m =>
    let x := m.part part
    if x.swSt ≠ 2 then none
    else
      let m := (coresOf x.sites).foldl Module.flushRoom m
      some (if (coresOf x.sites).all fun c => (m.core c).allLines.isEmpty then m.saveContext part x
        else x.sites.foldl Module.writeArea m)) s

/-! ## Restoring (R367) -/

/-- A location that moves with an LM from one physical core to another. DEDUCED (log 63). -/
def reloc (a b loc : Nat) : Nat := if lmLoc a 0 ≤ loc ∧ loc < lmLoc (a + 1) 0 then loc - lmLoc a 0 + lmLoc b 0 else loc
def WaitOn.reloc (a b : Nat) : WaitOn → WaitOn
  | .bar loc r next k => .bar (Machine.reloc a b loc) r next k
  | w => w
/-- A core's names for byte locations, after an LM has moved. -/
def Core.reloc (c : Core) (a b : Nat) : Core :=
  { c with
    ctxs := c.ctxs.map fun e => (e.1, { e.2 with resv := e.2.resv.map fun r => { r with line := Machine.reloc a b r.line } })
    acts := c.acts.map fun e => (e.1, { e.2 with wait := e.2.wait.reloc a b })
    mons := c.mons.map fun o => { o with line := Machine.reloc a b o.line } }
/-- Every name of a byte location in the module, after an LM has moved. -/
def Module.relocAll (m : Module) (a b : Nat) : Module :=
  if a = b then m
  else
    let w (x : BWait) : BWait := { x with loc := reloc a b x.loc }
    { m with
      cores := m.cores.map fun e => (e.1, e.2.reloc a b), bwait := m.bwait.map w, bdone := m.bdone.map w
      sites := m.sites.map fun e =>
        (e.1, { e.2 with bars := e.2.bars.map (reloc a b), comb := e.2.comb.map fun c => { c with loc := reloc a b c.loc } }) }

/-- An LM's cells replaced. -/
def Module.fillLm (m : Module) (pid : Nat) (bytes : List Host.Cell) (quar : List Nat) : Module :=
  let a := lmLoc pid 0
  let m := { m with mem := Mem.zero m.mem a (2 ^ 19), quar := m.quar.filter fun q => !(a ≤ q && q < a + 2 ^ 19) }
  let m := { m with mem := bytes.foldl (fun t b => Mem.put t (a + b.1) b.2) m.mem }
  quar.foldl (fun m q => { m with quar := quarAdd m.quar (a + q) }) m

/-- A KIND 4 record with cause UNCORR for the fault service (R317, R367, R370), numbered in the sequence of the core that it names
(R319). DEDUCED (log 114). -/
def Module.reportLost (m : Module) (cid aids : Nat) : Module :=
  let site := siteOf cid
  let (q, m) := m.takeSeq cid
  m.onSite site fun y => { y with faultq := y.faultq ++ [
    { kind := 4, part := y.part.getD 0, rsite := y.psi, hsite := y.psi, merged := 1, fseq := q.toNat, fvcn := m.vcn cid
      addr := BitVec.ofNat 64 (Cause.uncorr.code + aids * 2 ^ 32) }] }

/-- What a core that is gone had under way elsewhere: engine commands, packets, barrier waiters, writes. -/
def Module.dropWork (m : Module) (cid : Nat) : Module :=
  let m := m.onTile (tileOf cid) fun t =>
    let l := t.stepped.filter (·.1 ≠ cid)
    Tile.admitNode
      { t with mxq := t.mxq.map fun e => (e.1, e.2.filter fun c => c.by_.cid ≠ cid)
               cpq := t.cpq.map fun e => (e.1, e.2.filter fun c => c.by_.cid ≠ cid || c.node.isSome)
               stepped := l, frozen := if l = t.stepped then t.frozen else !l.isEmpty }
  { m with pkts := m.pkts.filter fun e => !(m.ownPkt e.2 && e.2.src == cid)
           bwait := m.bwait.filter (·.cid ≠ cid), bdone := m.bdone.filter (·.cid ≠ cid), late := m.late.filter (·.cid ≠ cid) }

/-- What is left of a lost core: the unstarted ranges, until the liveness event moves them (R338), and the sequence of its reports. -/
def Core.remains (c : Core) : Core := { gq := c.gq, ni := { seq := c.ni.seq } }

/-- A saved core back in its VCN, at the physical core that the LPCT now names; the state of one that has become vacant is discarded, but
for its unstarted ranges (R338). One that was vacant when it was saved (`was`) has been reported then.
DESIGN CHOICE (log 110); DEDUCED (log 115). -/
def Module.restoreCore (m : Module) (site : Nat) (was : Bool) (c : Saved) : Module :=
  let cid := 128 * site + c.vcn % 128
  if m.vacant cid then
    let m := m.setCore cid c.core.remains
    if was then m else (m.reportLost cid 0).reportVacant cid
  else
    let pid := m.pid cid
    let m := (m.fillLm pid c.bytes c.quar).setCore cid c.core
    (m.onPhy pid fun p => { p with lm := c.lm, wake := [], after := [] }).relocAll c.pid pid

/-- Group memory and tables reset where another partition has run (R289). -/
def Group.reset (g : Group) : Group :=
  { blocks := [], tables := [], gens := (upFrom 0 16).map fun s => (s, (g.gen s + 1) % 16), bufs := [] }

/-- A site's own state and its tiles. -/
def Module.restoreSite (m : Module) (x : SavedSite) : Module :=
  let s := x.site
  let m := if (m.site s).dirty then (upFrom (4 * s) 4).foldl (fun m g => m.onGroup g Group.reset) m else m
  let gone := (upFrom 0 128).filter fun l => !(m.lpct s l).v
  let m := m.onSite s fun y =>
    { y with graph := x.graph, home := x.home, nst := x.nst, slalom := x.slalom, ptroot := x.ptroot, pkey := x.pkey, epoch := x.epoch
             comb := x.comb, bars := x.bars, vacant := (x.vacant ++ gone).eraseDups }
  let m := x.tiles.foldl (fun m e => m.setTile e.1 e.2) m
  let (out, keep) := x.cores.partition fun c => m.vacant (128 * s + c.vcn % 128)
  out.foldl (fun m c => (m.restoreCore s (x.vacant.contains (c.vcn % 128)) c).dropWork (128 * s + c.vcn % 128))
    (keep.foldl (fun m c => m.restoreCore s false c) m)

/-- The report of a stalled copy, once more (R290). DEDUCED (log 87). -/
def Module.reportStall (m : Module) (c : CpCmd) (a : Word) (perm : Bool) : Module :=
  let home := match m.target c.by_.cid a.toNat with
    | .dram h => h
    | _ => siteOf c.by_.cid
  m.side (.copyTrap home perm c.by_.cid c.by_.job c.off a)

/-- Stalled copies of a site are reported again, and its page waits released. -/
def Module.resumeSite (m : Module) (s : Nat) : Module :=
  let m := (upFrom (16 * s) 16).foldl
    (fun m t => (m.tile t).cpq.foldl
      (fun m e =>
        match (m.tile t).cpRun e.1 with
        | some c => (match c.stall with
          | some (a, perm) => m.reportStall c a perm
          | none => m)
        | none => m) m) m
  (m.pageWaits s fun _ => true).foldl (fun m e => m.noticeAct e.1 e.2 false) m

/-- SWAP_RESTORE_COMPLETION. DEDUCED (log 114). -/
def execSwapRestoreCompletion (part : Nat) (s : State) : Out :=
  event (fun m =>
    let x := m.part part
    if x.swSt ≠ 4 then none
    else
      let c := x.saved
      let m := { m with
        pkts := c.pkts.foldl (fun t e => Tab.put t e.1 e.2) m.pkts, bwait := m.bwait ++ c.bwait, bdone := m.bdone ++ c.bdone
        late := m.late ++ c.late }
      let m := c.sites.foldl Module.restoreSite m
      let m := (m.onPart part fun y => { y with saved := {} }).setSwap part 0
      let m := x.sites.foldl
        (fun m s => m.onSite s fun y =>
          if y.shadow = some part then { y with shadow := none, dirty := false } else { y with dirty := true }) m
      some (x.sites.foldl Module.resumeSite m)) s

/-! ## Retirement (R369, R370) -/

/-- The lowest position of a core's tile that no valid entry names and whose physical core is in service. -/
def Module.spare (m : Module) (s l : Nat) : Option Nat :=
  (upFrom 0 9).find? fun q =>
    (m.phy (physAt s l q)).st == 0 && !(upFrom (l / 8 * 8) 8).any fun k => (m.lpct s k).v && (m.lpct s k).ppos == q

/-- A write of RETIRE. DEDUCED (log 116). -/
def Module.writeRetire (m : Module) (s : Nat) (v : Word) : Module :=
  let x := m.site s
  let l := bits v 6 0
  let away := match x.part with
    | some p => (m.part p).swSt ≠ 0
    | none => x.shadow.isSome
  if !bit v 7 then m
  else if x.rbusy.isSome || !(m.lpct s l).v || away then m.onSite s fun x => { x with rres := 2 }
  else m.onSite s fun x => { x with rbusy := some ⟨l, m.spare s l⟩ }
/-- RETIRE, over the management path. DEDUCED (log 116). -/
def execRetire (site : Nat) (value : Word) (s : State) : Out :=
  event (fun m => if m.powered && decide (site < 324) then some (m.writeRetire site value) else none) s

/-- A tile's engines have nothing of a core under way: its heads stand at boundaries, no step of its slot is in flight. -/
def Module.enginesQuiet (m : Module) (cid : Nat) : Bool :=
  let x := m.tile (tileOf cid)
  !(x.steps.any fun t => t.slot == slotOf cid) && (Tab.keys x.cpq).all fun q =>
    match x.cpRun q with
    | some c => c.by_.cid ≠ cid || c.node.isSome || m.atChunk c q || m.cpHeld (tileOf cid) q
    | none => true

/-- The LPCT's entry changes, with GEN (R20). DEDUCED (log 63). -/
def Module.putLpct (m : Module) (s l : Nat) (e : Lpct) : Module :=
  let old := m.lpct s l
  m.onSite s fun x =>
    { x with lpct := Tab.put x.lpct l e, lgen := if old.ppos = e.ppos && old.v == e.v then x.lgen else x.lgen + 1#32 }
/-- A core that loses its binding is vacant, and its site reports it (R17, R338). -/
def Module.makeVacant (m : Module) (s l : Nat) : Module :=
  if (m.site s).part.isSome then
    (m.onSite s fun x => { x with vacant := if x.vacant.contains l then x.vacant else x.vacant ++ [l] }).reportVacant (128 * s + l)
  else m

/-- A stolen record of a core that is about to be lost has no room in the deque it came from. -/
def Module.lootStuck (m : Module) (cid : Nat) : Bool :=
  match (m.core cid).thief.busy with
  | some b => (match b.loot with
    | some (.record _) => !m.vacant b.victim && ((m.core b.victim).desc.n = 64 || !m.dqOk b.victim || !m.dqFree b.victim)
    | _ => false)
  | none => false

/-- What a lost core has stolen and not started is not lost with it (R55): a record goes back to the FIFO end of the deque it came from,
a range joins the ranges of the core, which R338 moves. DEDUCED (log 98). -/
def Module.returnLoot (m : Module) (cid : Nat) : Module :=
  match (m.core cid).thief.busy with
  | some b => (match b.loot with
    | some (.record bs) => if m.vacant b.victim then m else m.dqUnshift b.victim (TaskRec.decode bs)
    | some (.range e first count) =>
      if m.rangeOver cid e then m
      else m.onCore cid fun c =>
        { c with gq := joinEnt (m.site (siteOf cid)).graph.admitted { e with ranges := [(first, count)] } c.gq }
    | none => m)
  | none => m

/-- The state of a lost core is gone, with one record for each of its activations (R370). DEDUCED (log 117). -/
def Module.loseCore (m : Module) (cid : Nat) : Module :=
  let m := (m.core cid).acts.foldl (fun m e => m.reportLost cid (m.ctlOf cid e.1).aids.toNat) (m.returnLoot cid)
  (m.dropWork cid).onCore cid Core.remains

/-- The old physical core leaves service (step 4): its tests and failed banks begin afresh. DEDUCED (log 117). -/
def Phys.retired (p : Phys) : Phys :=
  { p with st := 1, pass := 0, t1 := 0, rcnt := min 255 (p.rcnt + 1), failed := 0, corr := [], cand := false }

/-- The LM of a physical core at its spare (step 2): contents, quarantined words, bank states. -/
def Module.copyLm (m : Module) (a b : Nat) : Module :=
  let lo := lmLoc a 0
  let m := m.fillLm b ((m.mem.filter fun c => lo ≤ c.1 && c.1 < lo + 2 ^ 19).map fun c => (c.1 - lo, c.2))
    ((m.quar.filter fun q => lo ≤ q && q < lo + 2 ^ 19).map (· - lo))
  let p := m.phy a
  (m.onPhy b fun x => { x with lm := p.lm, wake := p.wake, after := p.after }).relocAll a b

/-- A core's binding moves to its spare, or its VCN becomes vacant (steps 2–4, R370). -/
def Module.rebind (m : Module) (site : Nat) (r : Retiring) : Module :=
  let cid := 128 * site + r.l
  let old := m.pid cid
  let m := match r.toQ with
    | some q => (m.copyLm old (physAt site r.l q)).putLpct site r.l { m.lpct site r.l with ppos := q }
    | none => ((m.putLpct site r.l { m.lpct site r.l with v := false }).makeVacant site r.l).loseCore cid
  (m.onPhy old Phys.retired).onSite site fun x => { x with rbusy := none, rres := if r.toQ.isSome then 0 else 1 }

/-- RETIREMENT_COMPLETION. -/
def execRetirementCompletion (site : Nat) (s : State) : Out :=
  event (fun m => (m.site site).rbusy.bind fun r =>
    let cid := 128 * site + r.l
    if !m.coreQuiet cid || !m.enginesQuiet cid || (r.toQ.isNone && m.lootStuck cid) then none
    else
      match (m.breakStreams cid).flushCore cid with
      | .ok _ m => some (m.rebind site r)
      | .full l => some (m.noRoom l)
      | .defer l c w => some (m.deferRecall l c w)) s

/-! ## Self-test (R371) -/

/-- SELF_TEST_START: firmware's, of a retired core. DEDUCED (log 118). -/
def execSelfTestStart (pid : Nat) (s : State) : Out :=
  event (fun m => if m.powered && decide (pid < 46656) && (m.phy pid).st == 1 then some (m.onPhy pid fun p => { p with st := 2 })
    else none) s
/-- SELF_TEST_PASS. DEDUCED (log 118). -/
def execSelfTestPass (pid : Nat) (s : State) : Out :=
  event (fun m =>
    let p := m.phy pid
    if p.st = 2 then
      some (m.setPhy pid { p with st := 1, pass := min 3 (p.pass + 1), t1 := if p.pass = 0 then m.time else p.t1 })
    else none) s
/-- PASS_EXPIRY. -/
def execPassExpiry (pid : Nat) (s : State) : Out :=
  event (fun m =>
    let p := m.phy pid
    if p.pass ≠ 0 && decide (p.t1 + 2 ^ 49 ≤ m.time) then some (m.setPhy pid { p with pass := 0 }) else none) s

end Sys2Proof.Machine
end

