-- ==== Sys2Proof/Machine/Cfg.lean ====
section
/-!
DEFINITION. The configuration spaces (R18–R20, R31–R34, R173, R179, R182): every register of a site and of the partition block, its
read, its write, and the writes that come over the management path.
-/
namespace Sys2Proof.Machine

/-! ## Single registers -/

/-- SITE_STATE (R388). -/
def Site.stateWord (x : Site) : Word := BitVec.ofNat 64 (x.state % 16 + x.src % 4 * 16 + x.fail % 256 * 64)
/-- PHYS_STATE (R371). -/
def Module.physWord (m : Module) (p : Phys) : Word :=
  let t1 := if p.t1 = 0 then 0 else (p.t1 - m.fab.getD 0) % 2 ^ 48
  BitVec.ofNat 64 (p.st % 4 + p.pass % 4 * 4 + p.rcnt % 256 * 256 + t1 * 2 ^ 16)
/-- An LPCT entry as read; VCN is 128·PSI + L while the site is in a partition (R18). Outside one the field reads as it was written last:
the spec does not say whether it keeps the 128·PSI + L of the partition that the site has left. DESIGN CHOICE (log 151). -/
def Module.lpctWord (m : Module) (s l : Nat) : Word :=
  let e := m.lpct s l
  let v := if (m.site s).part.isSome then m.vcn (128 * s + l) else e.vcn
  BitVec.ofNat 64 (e.ppos + e.v.toNat * 256 + v % 65536 * 65536)
/-- The entry that an LPCT write names. -/
def lpctEntry (old : Lpct) (v : Word) : Lpct := ⟨if 9 ≤ bits v 3 0 then old.ppos else bits v 3 0, bit v 8, bits v 31 16⟩
/-- Another valid entry of the tile has its position (R19). -/
def Module.lpctClash (m : Module) (s l : Nat) (e : Lpct) : Bool :=
  (upFrom (l / 8 * 8) 8).any fun k => k ≠ l && (m.lpct s k).v && (m.lpct s k).ppos == e.ppos
/-- A write changes the binding of a core that its partition uses. -/
def Module.rebinds (m : Module) (s l : Nat) (v : Word) : Bool :=
  let old := m.lpct s l
  let e := lpctEntry old v
  (m.site s).part.isSome && old.v && (e.ppos ≠ old.ppos || !e.v) && !(e.v && m.lpctClash s l e)

/-- An LPCT write (R18–R20): 9–15 leaves PPOS; two valid entries of one tile at one position refuse the write.
The lines of a core that loses its physical core are written back first; a VCN that becomes vacant loses its activations (R338).
DEDUCED (log 61). -/
def Module.writeLpct (m : Module) (s l : Nat) (v : Word) : HomeRes Unit :=
  let old := m.lpct s l
  let e := lpctEntry old v
  if e.v && m.lpctClash s l e then .ok () m
  else
    match if m.rebinds s l v then m.flushCore (128 * s + l) else .ok () m with
    | .ok _ m =>
      let m := (m.putLpct s l e).relocAll (physAt s l old.ppos) (physAt s l e.ppos)
      .ok () (if old.v && !e.v && (m.site s).part.isSome then (m.makeVacant s l).loseCore (128 * s + l) else m)
    | r => r

/-- An LPCT write that changes the binding of a core in use waits until the core is quiesced (R21, R186). Where its dirty lines have no
room at their homes, it waits for that too. DEDUCED (log 61). -/
def Module.lpctWaits (m : Module) (s l : Nat) (v : Word) : Bool :=
  m.rebinds s l v && (!m.coreQuiet (128 * s + l) || !m.enginesQuiet (128 * s + l) || (!bit v 8 && m.lootStuck (128 * s + l)))
/-- A slalom entry: 324–511 leaves WPT (R296). DEDUCED (log 61). -/
def slalomEntry (old : BitVec 16) (v : Word) : BitVec 16 :=
  let w := if 324 ≤ bits v 8 0 then bits old 8 0 else bits v 8 0
  BitVec.ofNat 16 (w + (bit v 15).toNat * 2 ^ 15)
/-- PFS_BASE: a SIZE outside 4–12 leaves SIZE (R356). -/
def pfsBaseWord (old v : Word) : Word :=
  let v' := keepBits v 0x87FFFFFFFFFFFFC0
  if 4 ≤ bits v 58 55 ∧ bits v 58 55 ≤ 12 then v' else setBits v' 58 55 (bits old 58 55)
/-- A write of NI_TLBI. DEDUCED (log 53). -/
def Module.writeTlbi (m : Module) (s : Nat) (v : Word) : Module := m.dropTlb s (if bit v 63 then none else some (bits v 54 16))

/-- The number of the register that an offset names in a table of n dwords from a base. -/
def inTable (off base n : Nat) : Option Nat := if base ≤ off ∧ off < base + 8 * n then some ((off - base) / 8) else none

/-! ## A site's space (R33) -/

/-- Registers that the supervisor may only read. -/
def siteRo (off : Nat) : Bool :=
  [0x000000, 0x000008, 0x000018, 0x000028, 0x010010, 0x030000, 0x030008, 0x030018, 0x030028].contains off
    || (inTable off 0x000800 144).isSome

/-- Reads without an effect of their own. -/
def Module.siteWord (m : Module) (s off : Nat) : Word :=
  let x := m.site s
  let c := x.mc
  match off with
  | 0x000000 => x.stateWord
  | 0x000008 => x.lgen.zeroExtend 64
  | 0x000018 => BitVec.ofNat 64 (x.rbusy.isSome.toNat + x.rres * 2)
  | 0x000020 => BitVec.ofNat 64 x.freeze.toNat
  | 0x000028 => x.psave
  | 0x010000 => x.ptroot
  | 0x010010 => BitVec.ofNat 64 x.tlbi.isSome.toNat
  | 0x010018 => x.pkey.zeroExtend 64
  | 0x030000 => BitVec.ofNat 64 c.fact
  | 0x030008 => BitVec.ofNat 64 c.free
  | 0x030010 => c.wmark
  | 0x030018 => c.spillWord
  | 0x030020 => c.bpool
  | 0x030028 => BitVec.ofNat 64 c.bhead
  | 0x030030 => BitVec.ofNat 64 c.btail
  | _ =>
    match inTable off 0x000100 128, inTable off 0x000800 144, inTable off 0x011000 32, inTable off 0x012000 64,
          inTable off 0x014000 324, inTable off 0x020000 4096 with
    | some l, _, _, _, _, _ => m.lpctWord s l
    | _, some p, _, _, _, _ => m.physWord (m.phy (144 * s + p))
    | _, _, some k, _, _, _ => let e := Tab.get (0, 0) x.shapes (k / 2); if k % 2 = 0 then e.1 else e.2
    | _, _, _, some k, _, _ => (Tab.get 0 x.slalom k).zeroExtend 64
    | _, _, _, _, some d, _ => (Tab.get 0 x.nst d).zeroExtend 64
    | _, _, _, _, _, some i => (Tab.get 0 x.home i).zeroExtend 64
    | _, _, _, _, _, _ => 0

/-- A read of a site's register; RETRIES is cleared by it. -/
def Module.readSite (m : Module) (s off : Nat) : Word × Module :=
  if off = 0x030018 then m.readSpill s else (m.siteWord s off, m)

/-- The tables of a site's space, the LPCT apart (R174, R296, R433). -/
def Module.writeTable (m : Module) (s off : Nat) (v : Word) : Module :=
  match inTable off 0x011000 32, inTable off 0x012000 64, inTable off 0x014000 324, inTable off 0x020000 4096 with
  | some k, _, _, _ => m.onSite s fun x =>
      let e := Tab.get (0, 0) x.shapes (k / 2)
      let e := if k % 2 = 0 then (keepBits v 0xFFFFFFFFFFFF8003, e.2) else (e.1, keepBits v 0xFFFFFFFF)
      { x with shapes := Tab.put x.shapes (k / 2) e }
  | _, some k, _, _ => m.onSite s fun x => { x with slalom := Tab.put x.slalom k (slalomEntry (Tab.get 0 x.slalom k) v) }
  | _, _, some d, _ => m.onSite s fun x => { x with nst := Tab.put x.nst d ((keepBits v 0x3F03).truncate 16) }
  | _, _, _, some i => m.onSite s fun x => { x with home := Tab.put x.home i ((keepBits v 0x81FF).truncate 16) }
  | _, _, _, _ => m

/-- A write that the supervisor may make. -/
def Module.writeSite (m : Module) (s off : Nat) (v : Word) : Module :=
  match off with
  | 0x000010 => m.writeRetire s v
  | 0x000020 => m.onSite s fun x => { x with freeze := bit v 0 }
  | 0x010000 => m.onSite s fun x => { x with ptroot := keepBits v 0x001FFFFFFFFF0001 }
  | 0x010008 => m.writeTlbi s v
  | 0x010018 => m.onSite s fun x => { x with pkey := v.truncate 32 }
  | 0x030010 => m.onMc s fun c => c.writeWmark v
  | 0x030020 => m.writeBpool s v
  | 0x030030 => m.onMc s fun c => c.writeBtail v
  | _ => m.writeTable s off v

/-! ## The partition block (R33) -/

def blockRo (off : Nat) : Bool :=
  [0x0408, 0x1000, 0x1008, 0x4000, 0x4008, 0x4010].contains off || (inTable off 0x20C0 9).isSome

/-- HQ_HEAD (R321). -/
def Part.headWord (x : Part) : Word := BitVec.ofNat 64 (x.hqHead % 16 + x.hqState % 4 * 16 + x.hqLaunch % 65536 * 64)

def Module.readBlock (m : Module) (p off : Nat) : Word × Module :=
  let x := m.part p
  match off with
  | 0x0400 => (BitVec.ofNat 64 x.hqTail, m)
  | 0x0408 => (x.headWord, m)
  | 0x1008 => m.readSwap p
  | 0x2000 => (x.pfsBase, m)
  | 0x2008 => (x.pfsTgt, m)
  | 0x3000 => (BitVec.ofNat 64 x.fcVpn, m)
  | 0x4000 => (m.tokcnt, m)
  | 0x4008 => (Config.modId, m)
  | 0x4010 => (m.modnum.zeroExtend 64, m)
  | _ =>
    match inTable off 0 128, inTable off 0x2040 9, inTable off 0x20C0 9 with
    | some k, _, _ => (Tab.get 0 x.hqe k, m)
    | _, some k, _ => (BitVec.ofNat 64 (Tab.get 0 x.pfsHead k), m)
    | _, _, some k => (BitVec.ofNat 64 (Tab.get 0 x.pfsTail k), m)
    | _, _, _ => (0, m)

/-- A host's read of a port's BAR0 at an offset (R383): the queue registers of partition off / 65536, 0 where the port does not serve it. -/
def Module.bar0Read (m : Module) (port off : Nat) : Word :=
  let o := off % 65536
  if m.serves port (off / 65536) && decide (o ≤ 0x0408) then (m.readBlock (off / 65536) o).1 else 0

def Module.writeBlock (m : Module) (p off : Nat) (v : Word) : Module :=
  match off with
  | 0x0400 => m.ringBell p v.toNat
  | 0x0410 => if bit v 0 then m.cancelLaunch p else m
  | 0x2000 => m.onPart p fun x => { x with pfsBase := pfsBaseWord x.pfsBase v }
  | 0x2008 => m.onPart p fun x => { x with pfsTgt := keepBits v 0x7FFFFFFFF }
  | 0x3000 => m.onPart p fun x => { x with fcVpn := bits v 38 0 }
  | 0x3008 => m.writeFcCmd p v
  | _ =>
    match inTable off 0 128, inTable off 0x2040 9 with
    | some k, _ => m.fillEntry p k v
    | _, some k => m.onPart p fun x => { x with pfsHead := Tab.put x.pfsHead k (bits v 11 0) }
    | _, _ => m

/-! ## CFG accesses of a core (R31, R32) -/

/-- What the target field of a CFG offset names: a site, or the block of the core's partition. -/
inductive CfgAt where
  | site (s : Nat)
  | block (p : Nat)
  deriving DecidableEq, Repr

/-- The checks of R31: alignment, size and mode, the target; the request and its reply cross the network (R163, R299). DEDUCED (log 60). -/
def cfgAt (cid va n tgt : Nat) (super : Bool) : MM CfgAt := do
  MM.stopIf (va % 8 ≠ 0) .misalign va
  MM.stopIf (n ≠ 8 || !super) .perm va
  let m ← get
  let here := siteOf cid
  if (m.freeReply cid).isNone then MM.stall
  if tgt = 0x1FF then do
    MM.stopIf (!(((m.partOf here).sites.head?.bind m.entrySite).any (m.reach here))) .noroute va
    return .block ((m.site here).part.getD 0)
  else
    match m.siteOfPsi here tgt with
    | some s => do
      MM.stopIf (!m.reach here s) .noroute va
      return .site s
    | none => MM.raise .noroute va

/-- DEDUCED (log 60). -/
def cfgLoad (cid va n tgt off : Nat) (super : Bool) : MM (List Byte) := do
  let a ← cfgAt cid va n tgt super
  let m ← get
  let (v, m) := match a with
    | .site s => m.readSite s off
    | .block p => m.readBlock p off
  set m
  return leBytes 8 v.toNat

def cfgStore (cid va tgt off : Nat) (bs : List Byte) (super : Bool) : MM Unit := do
  let v := BitVec.ofNat 64 (leNat bs)
  match ← cfgAt cid va bs.length tgt super with
  | .site s => do
    MM.stopIf (siteRo off) .priv va
    match inTable off 0x000100 128 with
    | some l => do
      if (← get).lpctWaits s l v then MM.stall
      MM.home fun m => m.writeLpct s l v
    | none => MM.upd fun m => m.writeSite s off v
  | .block p => do
    MM.stopIf (blockRo off) .priv va
    MM.upd fun m => m.writeBlock p off v

/-! ## Writes over the management path (R34, R389) -/

/-- LPCT_ENTRY_WRITE. -/
def execLpctEntryWrite (site l : Nat) (value : Word) (s : State) : Out :=
  event (fun m =>
    if !m.powered || 324 ≤ site || 128 ≤ l || m.lpctWaits site l value then none
    else
      match m.writeLpct site l value with
      | .ok _ m => some m
      | .full k => some (m.noRoom k)
      | .defer k c w => some (m.deferRecall k c w)) s
/-- NI_TLBI. -/
def execNiTlbi (site : Nat) (value : Word) (s : State) : Out :=
  event (fun m => if m.powered && decide (site < 324) then some (m.writeTlbi site value) else none) s

/-- Registers of a site that the management path does not write, or that have an event of their own: RETIRE, DBG_CTL, NI_TLBI,
NI_PKEY, the LPCT, the SHAPE registers, MC_BPOOL, MC_BTAIL. DEDUCED (log 62). -/
def mgmtKeeps (off : Nat) : Bool :=
  [0x000010, 0x000020, 0x010008, 0x010018, 0x030020, 0x030030].contains off || siteRo off
    || (inTable off 0x000100 128).isSome || (inTable off 0x011000 32).isSome

/-- The spaces that CFG_REGISTER_WRITE names: 0 a site's registers; 1 a partition block; 2 PCIE_MAP of a partition (R383);
3 PEER_MAP entry (R386); 4 TVX_CTL of a port, EN and UP apart (R387); 5 MODNUM (R34); 6 the enable bit of output link `off` =
4·net + direction of a site's router (R299); 7 the queue entries of partition i mod 64 through BAR0 of port i / 64 (R383). DEDUCED (log 62). -/
def Module.mgmtWrite (m : Module) (space i off : Nat) (v : Word) : Module :=
  match space with
  | 0 => if mgmtKeeps off then m else m.writeSite i off v
  | 1 => if blockRo off || off = 0x0400 || off = 0x0410 || off = 0x3008 then m else m.writeBlock i off v
  | 2 => m.onPart i fun x => { x with pcie := (keepBits v 0x800F).truncate 16 }
  | 3 => { m with peers := Tab.put m.peers i ((keepBits v 0x803FFFFF).truncate 32) }
  | 4 => { m with tvx := Tab.put m.tvx i (setBits (Tab.get 0 m.tvx i) 22 1 (bits v 22 1)) }
  | 5 => { m with modnum := v.truncate 16 }
  | 6 =>
    (m.onSite i fun x =>
      { x with off := if bit v 0 then x.off.filter (· ≠ off) else if x.off.contains off then x.off else x.off ++ [off] }).cutStreams
  | _ => if m.serves (i / 64) (i % 64) && (inTable off 0 128).isSome then m.writeBlock (i % 64) off v else m
/-- How many registers or spaces of a kind there are. -/
def spaceSize (space : Nat) : Nat :=
  match space with
  | 0 => 324 | 1 => 64 | 2 => 64 | 3 => 256 | 4 => 72 | 5 => 1 | 6 => 324 | 7 => 1024 | _ => 0

/-- CFG_REGISTER_WRITE. -/
def execCfgRegisterWrite (space idx off : Nat) (value : Word) (s : State) : Out :=
  event (fun m =>
    if m.powered && decide (idx < spaceSize space) && (space ≠ 6 || decide (off < 8)) then some (m.mgmtWrite space idx off value)
    else none) s

end Sys2Proof.Machine
end

