-- ==== Sys2Proof/Machine/Bringup.lean ====
section
/-!
DEFINITION. Power, bring-up, management controllers, owner tokens, clamps, link training, and the creation and reshaping of
partitions (R13, R15–R17, R23, R34, R371, R373, R382–R392).
-/
namespace Sys2Proof.Machine

/-! ## Power and clock (R388, R391) -/

/-- The directions from which E-chiplets face a site: 0 W, 1 S, 2 E, 3 N. -/
def edgeDirs (s : Nat) : List Nat :=
  (if siteX s = 0 then [0] else []) ++ (if siteY s = 0 then [1] else []) ++ (if siteX s = 17 then [2] else [])
    ++ (if siteY s = 17 then [3] else [])
/-- An offer: direction, ranked after its cycle. -/
def offerAt (time dir : Nat) : Nat := 4 * time + dir
/-- DEDUCED (log 120). -/
def Module.offer (m : Module) (s dir : Nat) : Module :=
  if (m.site s).state = 0 then m.onSite s fun x => { x with offers := x.offers ++ [offerAt m.time dir] } else m

/-- POWER_ON: every E-chiplet offers clock to the sites it faces. -/
def execPowerOn (s : State) : Out :=
  event (fun m =>
    if m.powered && m.sites.any (fun e => e.2.state ≠ 0 || !e.2.offers.isEmpty) then none
    else some ((upFrom 0 324).foldl (fun m t => (edgeDirs t).foldl (fun m d => m.offer t d) m) { m with powered := true })) s

/-- What a power cycle keeps: the count of owner tokens and the fuses; host memory is not the module's. DESIGN CHOICE (log 121). -/
def Module.unpowered (m : Module) : Module :=
  { powered := false, tokcnt := m.tokcnt, ownerHash := m.ownerHash, fenhamHash := m.fenhamHash, rollback := m.rollback
    mem := m.mem.filter fun c => hostLoc 0 ≤ c.1 }
/-- POWER_LOSS. DESIGN CHOICE (log 121). -/
def execPowerLoss (s : State) : Out := event (fun m => if m.powered then some m.unpowered else none) s

/-- The neighbours of a site, each with the direction from which it sees the site. -/
def neighboursOf (s : Nat) : List (Nat × Nat) :=
  (if siteX s < 17 then [(s + 1, 0)] else []) ++ (if siteY s < 17 then [(s + 18, 1)] else [])
    ++ (if 0 < siteX s then [(s - 1, 2)] else []) ++ (if 0 < siteY s then [(s - 18, 3)] else [])

/-- CLOCK_OFFER: a DARK site takes its first offer, once every offer of the same cycle can be ranked with it, and, now CLOCKED, offers
clock to all of its neighbours. DEDUCED (log 120). -/
def execClockOffer (site : Nat) (s : State) : Out :=
  event (fun m =>
    let x := m.site site
    match x.offers with
    | [] => none
    | o :: os =>
      if !m.powered || x.state ≠ 0 || 324 ≤ site || m.time ≤ os.foldl min o / 4 then none
      else
        let m := m.setSite site { x with state := 1, src := os.foldl min o % 4, offers := [] }
        some ((neighboursOf site).foldl (fun m e => m.offer e.1 e.2) m)) s

/-- Its LPCT binds all 128 logical cores (R13). -/
def Module.allBound (m : Module) (s : Nat) : Bool := (upFrom 0 128).all fun l => (m.lpct s l).v

/-- A failure: the site's links are disabled, and it offers no clock. -/
def Module.quarantine (m : Module) (s step : Nat) : Module :=
  let m := m.onSite s fun x => { x with state := 7, fail := step % 256, off := upFrom 0 8 }
  ((neighboursOf s).foldl (fun m e => m.onSite e.1 fun x => { x with offers := x.offers.filter fun o => o % 4 ≠ e.2 }) m).cutStreams

/-- SITE_STATE_ADVANCE: the next state, or QUARANTINE with the step that failed. MESHED starts the fabric time (R315), READY the
cycle counters of the site (R93). -/
def execSiteStateAdvance (site : Nat) (ok : Bool) (step : Nat) (s : State) : Out :=
  event (fun m =>
    let st := (m.site site).state
    if !m.powered || 324 ≤ site || st = 0 || 6 ≤ st then none
    else if !ok then some (m.quarantine site step)
    else if st = 5 && !m.allBound site then none
    else
      let m := m.onSite site fun x => { x with state := st + 1, ready := if st = 5 then m.time else x.ready }
      some (if st + 1 = 4 && m.fab.isNone then { m with fab := some m.time } else m)) s

/-! ## Management (R390–R392) -/

/-- MC_FIRMWARE_BOOT: an image that fails its signature under the key of the fused hash, or the rollback counter, is not run; the
recovery loader is. Whether the signature verifies is the event's. DESIGN CHOICE (log 123). -/
def execMcFirmwareBoot (mc : Nat) (image : FwImage) (sigOk : Bool) (s : State) : Out :=
  event (fun m =>
    if !m.powered || 36 ≤ mc then none
    else
      let ok := sigOk && Config.keyHash image.key == m.fenhamHash && decide (m.rollback ≤ image.ver)
      some { m with mgmt := Tab.put m.mgmt mc { (Tab.get {} m.mgmt mc) with fw := ok, rec_ := !ok } }) s

/-- POWER_CLAMP. -/
def execPowerClamp (s : State) : Out := event (fun m => if m.powered && !m.clamp then some { m with clamp := true } else none) s
/-- POWER_CLAMP_RELEASE. -/
def execPowerClampRelease (s : State) : Out := event (fun m => if m.clamp then some { m with clamp := false } else none) s

/-! ## Owner tokens (R391) -/

/-- The owner's key is installed, once: its hash is fused. -/
def Module.installKey (m : Module) (hash : BitVec 256) : Module :=
  if m.ownerHash.isNone then { m with ownerHash := some hash } else m

/-- A token is accepted: its signature verifies under the installed key, whose hash is fused, and it is for this module and the next by
its count. Whether the signature verifies under `key` is the event's. DESIGN CHOICE (log 123). -/
def Module.tokenOk (m : Module) (sig : Bool) (key : Nat) (body : BitVec 512) : Bool :=
  sig && m.ownerHash == some (Config.keyHash key) && bits body 143 80 == Config.modId.toNat && bits body 79 16 == (m.tokcnt + 1#64).toNat
/-- A token whose ACT is `act`. One that fails a check has no effect and is counted. An accepted one advances TOKCNT, and its action takes
effect unless a field of the body or an argument breaks a rule. What ARGS say stands in the event's arguments, as the spec lays them
out nowhere. DESIGN CHOICE (log 123). -/
def tokenEvent (sig : Bool) (key : Nat) (body : BitVec 512) (act : Nat) (action : Module → Option Module) (s : State) : Out :=
  event (fun m =>
    if !m.powered then none
    else if !m.tokenOk sig key body then some { m with badTokens := m.badTokens + 1 }
    else
      let m := { m with tokcnt := m.tokcnt + 1#64 }
      let a := bits body 7 0
      if bits body 15 8 ≠ 0 || a = 0 || 6 < a then some m
      else if a ≠ act then none
      else some ((action m).getD m)) s

/-- TOKEN_LINK_ENABLE, ACT 1. -/
def execTokenLinkEnable (sig : Bool) (key : Nat) (body : BitVec 512) (port : Nat) (s : State) : Out :=
  tokenEvent sig key body 1 (fun m =>
    if port < 72 then some { m with tvx := Tab.put m.tvx port (setBits (Tab.get 0 m.tvx port) 0 0 1) } else none) s

/-- TOKEN_PARTITION_KEY, ACT 2: the key of every home and every core of a partition. -/
def execTokenPartitionKey (sig : Bool) (key : Nat) (body : BitVec 512) (part : Nat) (pk : BitVec 32) (s : State) : Out :=
  tokenEvent sig key body 2 (fun m =>
    let x := m.part part
    if x.sites.isEmpty || 3 ≤ x.swSt then none
    else
      let m := x.sites.foldl (fun m t => m.onSite t fun y => { y with pkey := pk }) m
      some ((coresOf x.sites).foldl (fun m c => m.onCore c fun k => { k with spec := { k.spec with pk := pk } }) m)) s

/-- TOKEN_READMIT, ACT 3: the permit of R371. -/
def execTokenReadmit (sig : Bool) (key : Nat) (body : BitVec 512) (site idx rcnt : Nat) (s : State) : Out :=
  tokenEvent sig key body 3 (fun m =>
    let pid := 144 * site + idx
    let p := m.phy pid
    let named := (upFrom 0 128).any fun l => (m.lpct site l).v && physAt site l (m.lpct site l).ppos == pid
    if 324 ≤ site || 144 ≤ idx || p.st ≠ 1 || p.rcnt ≠ rcnt || p.pass ≠ 3 || m.time < p.t1 + 216000000000000 || named then none
    else some (m.setPhy pid { p with st := 0, pass := 0, t1 := 0 })) s

/-- TOKEN_CLEAR_CORE_STOP, ACT 4. The FAULTED trap activation is disposed of through its own entry, like any other.
DEDUCED (log 119). -/
def execTokenClearCoreStop (sig : Bool) (key : Nat) (body : BitVec 512) (site l : Nat) (s : State) : Out :=
  tokenEvent sig key body 4 (fun m =>
    let cid := 128 * site + l
    if 324 ≤ site || 128 ≤ l || !(m.core cid).sup.stopped then none
    else some (m.onCore cid fun c =>
      let acts := match Tab.find c.acts 64 with
        | some a => Tab.put (Tab.del c.acts 64) 65 a
        | none => c.acts
      { c with acts := acts
               sup := { c.sup with stopped := false, serving := none, keys := c.sup.keys.map fun e => (e.1, if e.2 = 64 then 65 else e.2) } })) s

/-- TOKEN_SET_RETIRED, ACT 5. -/
def execTokenSetRetired (sig : Bool) (key : Nat) (body : BitVec 512) (site : Nat) (s : State) : Out :=
  tokenEvent sig key body 5 (fun m => if site < 324 then some (m.onSite site fun x => { x with state := 8 }) else none) s

/-- TOKEN_MC_EXPOSE, ACT 6: the write goes to the stack. DEDUCED (log 67). -/
def execTokenMcExpose (sig : Bool) (key : Nat) (body : BitVec 512) (site fact : Nat) (s : State) : Out :=
  tokenEvent sig key body 6 (fun m =>
    if 324 ≤ site || fact < 8 || 24 < fact then none else some (m.onMc site fun c => { c with due := some fact })) s

/-! ## Links (R384, R387) -/

/-- TAMVEX_LINK_TRAINING: UP. -/
def execTamvexLinkTraining (port : Nat) (up : Bool) (s : State) : Out :=
  event (fun m =>
    if !m.powered || 72 ≤ port then none
    else some { m with tvx := Tab.put m.tvx port (setBits (Tab.get 0 m.tvx port) 23 23 up.toNat) }) s
/-- PCIE_LINK_TRAINING: as CXL 3.2, or as PCIe only. -/
def execPcieLinkTraining (port : Nat) (cxl : Bool) (s : State) : Out :=
  event (fun m => if !m.powered || 16 ≤ port then none else some { m with pcie := Tab.put m.pcie port (if cxl then 1 else 2) }) s

/-! ## Partitions (R15–R17, R23) -/

/-- The logical cores of a site that its LPCT leaves unbound. -/
def Module.unbound (m : Module) (s : Nat) : List Nat := (upFrom 0 128).filter fun l => !(m.lpct s l).v

/-- A site joins a partition: its cores, tiles and engines begin as after reset. -/
def Module.joinSite (m : Module) (p epoch : Nat) (sites : List Nat) (s : Nat) : Module :=
  let m := { m with cores := m.cores.filter fun e => siteOf e.1 ≠ s, tiles := m.tiles.filter fun e => e.1 / 16 ≠ s }
  let m := m.onSite s fun x =>
    { x with part := some p, psi := sites.idxOf s, epoch := epoch, vacant := m.unbound s, graph := {}, tlb := [], tlbi := none
             comb := [], bars := [], dirty := x.dirty || x.shadow.isSome }
  (upFrom (128 * s) 128).foldl Module.stealInit m

/-- The sites of a request, ascending, each once. -/
def siteSet (l : List Nat) : List Nat := (upFrom 0 324).filter l.contains

/-- PARTITION_CREATION. DEDUCED (log 99). -/
def execPartitionCreation (part : Nat) (sites : List Nat) (s : State) : Out :=
  event (fun m =>
    let l := siteSet sites
    if !m.powered || 64 ≤ part || !(m.part part).sites.isEmpty || l.isEmpty || l.any fun t => !m.live t || (m.site t).part.isSome then
      none
    else
      let m := (m.setPart part { sites := l, pcie := (m.part part).pcie }).ringMended part none
      some (l.foldl (fun m t => m.joinSite part 1 l t) m)) s

/-- A site leaves its partition. DEDUCED (log 122). -/
def Module.leaveSite (m : Module) (s : Nat) : Module := m.clearSites [s]

/-- PARTITION_RESHAPE: only with no launch under way and the partition resident (R339). With no site left the partition is destroyed
(R15). DEDUCED (log 122). -/
def execPartitionReshape (part : Nat) (sites : List Nat) (s : State) : Out :=
  event (fun m =>
    let x := m.part part
    let l := siteSet sites
    let epoch := if x.epoch % 65536 = 65535 then 1 else x.epoch + 1
    if !m.powered || x.sites.isEmpty || x.swSt ≠ 0 || x.hqState ≠ 0
        || l.any (fun t => !m.live t || ((m.site t).part.isSome && (m.site t).part ≠ some part)) then none
    else if l.isEmpty then some ((x.sites.foldl Module.leaveSite m).setPart part { pcie := x.pcie })
    else
      let m := (x.sites.filter fun t => !l.contains t).foldl Module.leaveSite m
      let m := m.setPart part { x with sites := l, epoch := epoch }
      some (l.foldl
        (fun m t =>
          if x.sites.contains t then
            m.onSite t fun y => { y with psi := l.idxOf t, epoch := epoch, vacant := m.unbound t }
          else m.joinSite part epoch l t) m)) s

end Sys2Proof.Machine
end

