-- ==== Sys2Proof/Machine/Creation.lean ====
section
/-!
DEFINITION. What comes from outside an instruction: a bank that fails while a creation writes to it (R368, R515), and the host's stores
to its own memory (R385).
-/
namespace Sys2Proof.Machine

/-- An event would create an activation in slot k of a core now. -/
def State.creates (s : State) (cid k : Nat) (f : State → Out) : Bool :=
  match f s with
  | .next t => !bit (s.m.core cid).desc.held k && bit (t.m.core cid).desc.held k
  | _ => false

/-- Some creation path takes slot k of a core now (R42). -/
def State.creationDue (s : State) (cid k : Nat) : Bool :=
  [execTaskStart cid, execWorkRangeStart cid, execStealReply cid, execHandlerCreation cid].any (s.creates cid k)
    || s.m.pkts.any fun e => e.2.kind == .migration && e.2.dst == cid && s.creates cid k (execMigrationPacket e.1)

/-- The banks that a creation in the workspace at `wp` writes: those of g0–g9 and of the control words. -/
def creationBanks (wp : Nat) : List Nat := banksOf wp 80 ++ banksOf (wp + 1280) 64

/-- A bank fails that the creation due in slot k is writing (R368, R515): the creation is abandoned, the slot stays free, and a record
names its LM offset. The creation is made again, in another slot, when it is next due. DESIGN CHOICE (log 147). -/
def State.creationLost (s : State) (cid k b : Nat) : Option Module :=
  let wp := (s.m.core cid).desc.wp k
  if s.creationDue cid k && (creationBanks wp).contains b then
    let m := s.m.onPhy (s.m.pid cid) fun p => { p with failed := setBits p.failed b b 1, cand := true }
    some (m.contain cid { cause := Cause.uncorr.code, addr := BitVec.ofNat 64 wp })
  else none

/-- A store of the host to its own memory at host-physical address `pa`, with which module accesses are coherent (R385). -/
def Module.hostStore (m : Module) (pa : Nat) (bs : List Byte) : Module :=
  m.putBytes (hostLoc (pa % 2 ^ 52)) (bs.take (2 ^ 52 - pa % 2 ^ 52))

end Sys2Proof.Machine
end

