-- ==== Sys2Proof/Machine/Control.lean ====
section
/-!
DEFINITION. The control transfers (R104, R112, R396, R398, R401, R403, R406, R435, R463, R474–R476).
-/
namespace Sys2Proof.Machine

/-- ADPC (R398). -/
def addrInto (a : Opnd) (pc : Word) (ldisp : Int) (slot : Nat) : Run Unit := do
  let _ ← operands [] (some (.reg, a))
  writeDst a (branchTarget pc ldisp slot)
/-- ADPC, IMM16 form (R398). -/
def execAdpcShort (f : Rel16) (s : State) : Out := runPc (fun pc => addrInto f.a pc f.ldisp.toInt f.slot.toNat) s
/-- ADPC, long form (R398). -/
def execAdpcLong (f : Rel48) (s : State) : Out := runPc (fun pc => addrInto f.a pc f.ldisp.toInt f.slot.toNat) s

/-- B, IMM16 form (R401). -/
def execBShort (f : Br16) (s : State) : Out := runPc (fun pc => transfer (branchTarget pc f.ldisp.toInt f.slot.toNat)) s
/-- B, long form (R401). -/
def execBLong (f : Br48) (s : State) : Out := runPc (fun pc => transfer (branchTarget pc f.ldisp.toInt f.slot.toNat)) s

/-- A call of t: the checks, the link, the transfer (R401, R406). -/
def callTo (a : Opnd) (t : Word) : Run Unit := do
  checkTarget t
  let s ← get
  writeDst a s.win.ctl.pc
  transfer t
/-- CALL of a target in the code (R401): a fault of its target comes before one of the link (R81). -/
def callRel (a : Opnd) (t : Word) : Run Unit := do
  checkTarget t
  let _ ← operands [] (some (.reg, a))
  callTo a t
/-- CALL, IMM16 form (R401). -/
def execCallShort (f : Rel16) (s : State) : Out := runPc (fun pc => callRel f.a (branchTarget pc f.ldisp.toInt f.slot.toNat)) s
/-- CALL, long form (R401). -/
def execCallLong (f : Rel48) (s : State) : Out := runPc (fun pc => callRel f.a (branchTarget pc f.ldisp.toInt f.slot.toNat)) s

/-- A compare and transfer (R403). -/
def branchIf (b c : Opnd) (kb kc : Bool) (cond : Cond) (t : Word) : Run Unit := do
  let l ← operands [⟨b, kb, .addr⟩, ⟨c, kc, .addr⟩] none
  if holds cond (arg l 0) (arg l 1) then transfer t
/-- BC, IMM16 form (R403). -/
def execBcShort (f : Bc16) (s : State) : Out :=
  runPc (fun pc => branchIf f.b f.c f.kb f.kc f.cond (branchTarget pc f.ldisp.toInt f.slot.toNat)) s
/-- BC, long form (R403). -/
def execBcLong (f : Bc48) (s : State) : Out :=
  runPc (fun pc => branchIf f.b f.c f.kb f.kc f.cond (branchTarget pc f.ldisp.toInt f.slot.toNat)) s

/-- A transfer to a register's value (R435, R463). -/
def jumpTo (f : Src1) : Run Unit := do
  let l ← operands [⟨f.b, f.kb, .addr⟩] none
  transfer (arg l 0)
/-- JMP (R435). -/
def execJmp (f : Src1) (s : State) : Out := run (jumpTo f) s
/-- RET (R463). -/
def execRet (f : Src1) (s : State) : Out := run (jumpTo f) s
/-- The target that a readable register names is checked before the operands (R81). -/
def checkNamed (b : Opnd) : Run Unit := do
  let w := (← get).win
  let k := b.toNat
  if k < 32 then
    if w.live k && !w.bad.contains k then checkTarget (w.gr k)
  else if k = 41 then checkTarget 0
/-- CALLR (R406): the target is read before the link is written. -/
def execCallr (f : Un) (s : State) : Out :=
  run (do
    checkNamed f.b
    let l ← operands [⟨f.b, f.kb, .addr⟩] (some (.reg, f.a))
    callTo f.a (arg l 0)) s

/-- SKIP (R474, R475). A fault of a line that the count enters leaves no effect. -/
def execSkip (f : SkipF) (s : State) : Out :=
  runPc (fun pc => do
    let l ← operands [⟨f.b, f.kb, .addr⟩, ⟨f.c, f.kc, .addr⟩] none
    if holds f.cond (arg l 0) (arg l 1) then
      let s ← get
      let b := match (s.core.ctx s.ctx).line with
        | some x => if x.base = (lineBase pc).toNat then x.bytes else List.replicate 64 0xFF#8
        | none => List.replicate 64 0xFF#8
      let t ← Run.lift (skipFrom s.cid s.ctx s.super b pc (f.n.toNat + 2))
      Run.onCtl fun c => { c with pc := t }) s

end Sys2Proof.Machine
end

