-- ==== Sys2Proof/Machine/Float.lean ====
section
/-!
DEFINITION. Scalar floating point (R144–R153, R423–R427).
-/
namespace Sys2Proof.Machine

/-- The low bits of a register that hold a value of a type (R423). -/
def lowOf (ty : Nat) (x : Word) : Nat := x.toNat % 2 ^ Num.widthOf ty

/-- A result of w bits, zero-extended. -/
def zext (v : Nat) : Word := BitVec.ofNat 64 v

/-- Operands, rounding mode and result of a two-source form. -/
def fpTwo (f : Fp2) (g : Nat → Nat → Nat → Nat → Nat × Nat) : Run Unit := do
  let l ← operands [⟨f.b, f.kb, .exec⟩, ⟨f.c, f.kc, .exec⟩] (some (.exec, f.a))
  let (mode, h) ← takeMode f.rm.toNat
  let (v, fl) := g mode h (lowOf f.ty.toNat (arg l 0)) (lowOf f.ty.toNat (arg l 1))
  orFlags fl
  writeDst f.a (zext v)

/-- FADD (R424). -/
def execFadd (f : Fp2) (s : State) : Out :=
  run (fpTwo f fun mode h b c =>
    let t := Num.fmtOf f.ty.toNat; t.deliver mode h false (Num.addVal mode (t.val b) (t.val c))) s
/-- FSUB (R424). -/
def execFsub (f : Fp2) (s : State) : Out :=
  run (fpTwo f fun mode h b c =>
    let t := Num.fmtOf f.ty.toNat; t.deliver mode h false (Num.addVal mode (t.val b) (t.val c).neg)) s
/-- FMUL (R424). -/
def execFmul (f : Fp2) (s : State) : Out :=
  run (fpTwo f fun mode h b c =>
    let t := Num.fmtOf f.ty.toNat; t.deliver mode h false (Num.mulVal (t.val b) (t.val c))) s
/-- FDIV (R424). -/
def execFdiv (f : Fp2) (s : State) : Out :=
  run (fpTwo f fun mode h b c =>
    let t := Num.fmtOf f.ty.toNat; t.deliver mode h false (Num.divVal (t.val b) (t.val c))) s
/-- FSQRT (R424). -/
def execFsqrt (f : Fp1) (s : State) : Out :=
  run (do
    let l ← operands [⟨f.b, f.kb, .exec⟩] (some (.exec, f.a))
    let (mode, h) ← takeMode f.rm.toNat
    let t := Num.fmtOf f.ty.toNat
    let (v, fl) := t.deliver mode h false (Num.sqrtVal (t.val (lowOf f.ty.toNat (arg l 0))))
    orFlags fl
    writeDst f.a (zext v)) s
/-- FMA (R424). -/
def execFma (f : Fp3) (s : State) : Out :=
  run (do
    let l ← operands [⟨f.b, f.kb, .exec⟩, ⟨f.c, f.kc, .exec⟩, ⟨f.d, f.kd, .exec⟩] (some (.exec, f.a))
    let (mode, h) ← takeMode f.rm.toNat
    let ty := f.ty.toNat
    let t := Num.fmtOf ty
    let (v, fl) := t.deliver mode h false
      (Num.fmaVal mode (t.val (lowOf ty (arg l 0))) (t.val (lowOf ty (arg l 1))) (t.val (lowOf ty (arg l 2))))
    orFlags fl
    writeDst f.a (zext v)) s

/-- FMIN and FMAX (R425). -/
def fpPick (f : Fp2) (isMax : Bool) : Run Unit := do
  let l ← operands [⟨f.b, f.kb, .exec⟩, ⟨f.c, f.kc, .exec⟩] (some (.exec, f.a))
  writeDst f.a (zext ((Num.fmtOf f.ty.toNat).minMax isMax (lowOf f.ty.toNat (arg l 0)) (lowOf f.ty.toNat (arg l 1))))
/-- FMIN (R425). -/
def execFmin (f : Fp2) (s : State) : Out := run (fpPick f false) s
/-- FMAX (R425). -/
def execFmax (f : Fp2) (s : State) : Out := run (fpPick f true) s
/-- FCLS (R425). -/
def execFcls (f : Fp1) (s : State) : Out :=
  run (do
    let l ← operands [⟨f.b, f.kb, .exec⟩] (some (.exec, f.a))
    writeDst f.a (zext ((Num.fmtOf f.ty.toNat).cls (lowOf f.ty.toNat (arg l 0))))) s
/-- FCMP (R426). -/
def execFcmp (f : FcmpF) (s : State) : Out :=
  run (do
    let l ← operands [⟨f.b, f.kb, .exec⟩, ⟨f.c, f.kc, .exec⟩] (some (.exec, f.a))
    let (v, fl) := (Num.fmtOf f.ty.toNat).cmp f.cnd.toNat (lowOf f.ty.toNat (arg l 0)) (lowOf f.ty.toNat (arg l 1))
    orFlags fl
    writeDst f.a (zext v.toNat)) s
/-- FCVT (R427): an integer result is extended by its type's signedness (R423). -/
def execFcvt (f : FcvtF) (s : State) : Out :=
  run (do
    let l ← operands [⟨f.b, f.kb, .exec⟩] (some (.exec, f.a))
    let (mode, h) ← takeMode f.rm.toNat
    let d := f.dst.toNat
    let (v, fl) := Num.convert f.src.toNat d mode h f.sat (lowOf f.src.toNat (arg l 0))
    orFlags fl
    writeDst f.a (if d ≤ 3 then trunc64 (signedOf (Num.widthOf d) v) else zext v)) s

end Sys2Proof.Machine
end

