-- ==== Sys2Proof/Machine/Integer.lean ====
section
/-!
DEFINITION. The integer instructions (R135–R139, R397, R399, R405, R409, R414, R422, R440, R444, R448, R464, R473).
-/
namespace Sys2Proof.Machine

/-! ## Results -/

/-- b × c modulo 2^64, and the high halves of the signed and unsigned products (R448). -/
def mulLow (b c : Word) : Word := b * c
def mulHigh (b c : Word) : Word := trunc64 (b.toInt * c.toInt / 2 ^ 64)
def mulHighU (b c : Word) : Word := BitVec.ofNat 64 (b.toNat * c.toNat / 2 ^ 64)

/-- Quotient and remainder toward zero; c = 0 gives 2^64 − 1 and b (R414). -/
def divS (b c : Word) : Word := if c = 0#64 then BitVec.allOnes 64 else trunc64 (b.toInt.tdiv c.toInt)
def remS (b c : Word) : Word := if c = 0#64 then b else trunc64 (b.toInt.tmod c.toInt)
def divU (b c : Word) : Word := if c = 0#64 then BitVec.allOnes 64 else BitVec.ofNat 64 (b.toNat / c.toNat)
def remU (b c : Word) : Word := if c = 0#64 then b else BitVec.ofNat 64 (b.toNat % c.toNat)

/-- MIN, MAX and their unsigned forms (R444). -/
def minS (b c : Word) : Word := if b.toInt ≤ c.toInt then b else c
def maxS (b c : Word) : Word := if b.toInt ≤ c.toInt then c else b
def minU (b c : Word) : Word := if b.toNat ≤ c.toNat then b else c
def maxU (b c : Word) : Word := if b.toNat ≤ c.toNat then c else b

/-- Shifts and rotation by n below 64 (R464). -/
def shlN (b : Word) (n : Nat) : Word := BitVec.ofNat 64 (b.toNat * 2 ^ n)
def shrN (b : Word) (n : Nat) : Word := BitVec.ofNat 64 (b.toNat / 2 ^ n)
def sarN (b : Word) (n : Nat) : Word := trunc64 (b.toInt / 2 ^ n)
def rotN (b : Word) (n : Nat) : Word := BitVec.ofNat 64 (b.toNat * 2 ^ n + b.toNat / 2 ^ (64 - n))
/-- A shift by a register's value modulo 64 (R137). -/
def byReg (f : Word → Nat → Word) (b c : Word) : Word := f b (c.toNat % 64)

/-- Bit counts and byte swap (R405). -/
def clzN (b : Word) : Word := if b = 0#64 then 64#64 else BitVec.ofNat 64 (63 - Nat.log2 b.toNat)
def ctzFrom (x : Nat) : Nat → Nat
  | 0 => 0
  | n + 1 => if x % 2 = 1 then 0 else 1 + ctzFrom (x / 2) n
def ctzN (b : Word) : Word := BitVec.ofNat 64 (ctzFrom b.toNat 64)
def onesFrom (x : Nat) : Nat → Nat
  | 0 => 0
  | n + 1 => x % 2 + onesFrom (x / 2) n
def popcN (b : Word) : Word := BitVec.ofNat 64 (onesFrom b.toNat 64)
def bswpN (b : Word) : Word := BitVec.ofNat 64 (leNat (leBytes 8 b.toNat).reverse)

/-- Field extraction and insertion (R422). -/
def extrN (b : Word) (pos w : Nat) : Word := BitVec.ofNat 64 (b.toNat / 2 ^ pos % 2 ^ w)
def extrSN (b : Word) (pos w : Nat) : Word := trunc64 (signedOf w (b.toNat / 2 ^ pos))
def insrN (b c : Word) (pos w : Nat) : Word := setBits b (pos + w - 1) pos c.toNat

/-! ## Instructions -/

/-- ADD (R397). -/
def execAddReg (f : Alu3) (s : State) : Out := run (alu3 f (· + ·)) s
/-- ADD (R397). -/
def execAddShortImm (f : AluI16) (s : State) : Out := run (aluI16 f (· + ·)) s
/-- ADD (R397). -/
def execAddLongImm (f : AluI48) (s : State) : Out := run (aluI48 f (· + ·)) s
/-- SUB (R397). -/
def execSubReg (f : Alu3) (s : State) : Out := run (alu3 f (· - ·)) s
/-- SUB (R397). -/
def execSubShortImm (f : AluI16) (s : State) : Out := run (aluI16 f (· - ·)) s
/-- SUB (R397). -/
def execSubLongImm (f : AluI48) (s : State) : Out := run (aluI48 f (· - ·)) s
/-- MUL (R448). -/
def execMulReg (f : Alu3) (s : State) : Out := run (alu3 f mulLow) s
/-- MUL (R448). -/
def execMulShortImm (f : AluI16) (s : State) : Out := run (aluI16 f mulLow) s
/-- MUL (R448). -/
def execMulLongImm (f : AluI48) (s : State) : Out := run (aluI48 f mulLow) s
/-- MULH (R448). -/
def execMulhReg (f : Alu3) (s : State) : Out := run (alu3 f mulHigh) s
/-- MULH (R448). -/
def execMulhShortImm (f : AluI16) (s : State) : Out := run (aluI16 f mulHigh) s
/-- MULH (R448). -/
def execMulhLongImm (f : AluI48) (s : State) : Out := run (aluI48 f mulHigh) s
/-- MULH.u (R448). -/
def execMulhUReg (f : Alu3) (s : State) : Out := run (alu3 f mulHighU) s
/-- MULH.u (R448). -/
def execMulhUShortImm (f : AluI16) (s : State) : Out := run (aluI16 f mulHighU) s
/-- MULH.u (R448). -/
def execMulhULongImm (f : AluI48) (s : State) : Out := run (aluI48 f mulHighU) s
/-- DIV (R414). -/
def execDivReg (f : Alu3) (s : State) : Out := run (alu3 f divS) s
/-- DIV (R414). -/
def execDivShortImm (f : AluI16) (s : State) : Out := run (aluI16 f divS) s
/-- DIV (R414). -/
def execDivLongImm (f : AluI48) (s : State) : Out := run (aluI48 f divS) s
/-- DIV.u (R414). -/
def execDivUReg (f : Alu3) (s : State) : Out := run (alu3 f divU) s
/-- DIV.u (R414). -/
def execDivUShortImm (f : AluI16) (s : State) : Out := run (aluI16 f divU) s
/-- DIV.u (R414). -/
def execDivULongImm (f : AluI48) (s : State) : Out := run (aluI48 f divU) s
/-- REM (R414). -/
def execRemReg (f : Alu3) (s : State) : Out := run (alu3 f remS) s
/-- REM (R414). -/
def execRemShortImm (f : AluI16) (s : State) : Out := run (aluI16 f remS) s
/-- REM (R414). -/
def execRemLongImm (f : AluI48) (s : State) : Out := run (aluI48 f remS) s
/-- REM.u (R414). -/
def execRemUReg (f : Alu3) (s : State) : Out := run (alu3 f remU) s
/-- REM.u (R414). -/
def execRemUShortImm (f : AluI16) (s : State) : Out := run (aluI16 f remU) s
/-- REM.u (R414). -/
def execRemULongImm (f : AluI48) (s : State) : Out := run (aluI48 f remU) s
/-- AND (R399). -/
def execAndReg (f : Alu3) (s : State) : Out := run (alu3 f (· &&& ·)) s
/-- AND (R399). -/
def execAndShortImm (f : AluI16) (s : State) : Out := run (aluI16 f (· &&& ·)) s
/-- AND (R399). -/
def execAndLongImm (f : AluI48) (s : State) : Out := run (aluI48 f (· &&& ·)) s
/-- ANDN (R399). -/
def execAndnReg (f : Alu3) (s : State) : Out := run (alu3 f (fun b c => b &&& ~~~c)) s
/-- ANDN (R399). -/
def execAndnShortImm (f : AluI16) (s : State) : Out := run (aluI16 f (fun b c => b &&& ~~~c)) s
/-- ANDN (R399). -/
def execAndnLongImm (f : AluI48) (s : State) : Out := run (aluI48 f (fun b c => b &&& ~~~c)) s
/-- OR (R399). -/
def execOrReg (f : Alu3) (s : State) : Out := run (alu3 f (· ||| ·)) s
/-- OR (R399). -/
def execOrShortImm (f : AluI16) (s : State) : Out := run (aluI16 f (· ||| ·)) s
/-- OR (R399). -/
def execOrLongImm (f : AluI48) (s : State) : Out := run (aluI48 f (· ||| ·)) s
/-- XOR (R399). -/
def execXorReg (f : Alu3) (s : State) : Out := run (alu3 f (· ^^^ ·)) s
/-- XOR (R399). -/
def execXorShortImm (f : AluI16) (s : State) : Out := run (aluI16 f (· ^^^ ·)) s
/-- XOR (R399). -/
def execXorLongImm (f : AluI48) (s : State) : Out := run (aluI48 f (· ^^^ ·)) s
/-- SHL by a register (R464). -/
def execShlReg (f : Alu3) (s : State) : Out := run (alu3 f (byReg shlN)) s
/-- SHL by an immediate (R464). -/
def execShlImm (f : ShiftI) (s : State) : Out := run (shiftI f shlN) s
/-- SHR by a register (R464). -/
def execShrReg (f : Alu3) (s : State) : Out := run (alu3 f (byReg shrN)) s
/-- SHR by an immediate (R464). -/
def execShrImm (f : ShiftI) (s : State) : Out := run (shiftI f shrN) s
/-- SAR by a register (R464). -/
def execSarReg (f : Alu3) (s : State) : Out := run (alu3 f (byReg sarN)) s
/-- SAR by an immediate (R464). -/
def execSarImm (f : ShiftI) (s : State) : Out := run (shiftI f sarN) s
/-- ROT by a register (R464). -/
def execRotReg (f : Alu3) (s : State) : Out := run (alu3 f (byReg rotN)) s
/-- ROT by an immediate (R464). -/
def execRotImm (f : ShiftI) (s : State) : Out := run (shiftI f rotN) s
/-- MIN (R444). -/
def execMinReg (f : Alu3) (s : State) : Out := run (alu3 f minS) s
/-- MIN (R444). -/
def execMinShortImm (f : AluI16) (s : State) : Out := run (aluI16 f minS) s
/-- MIN (R444). -/
def execMinLongImm (f : AluI48) (s : State) : Out := run (aluI48 f minS) s
/-- MAX (R444). -/
def execMaxReg (f : Alu3) (s : State) : Out := run (alu3 f maxS) s
/-- MAX (R444). -/
def execMaxShortImm (f : AluI16) (s : State) : Out := run (aluI16 f maxS) s
/-- MAX (R444). -/
def execMaxLongImm (f : AluI48) (s : State) : Out := run (aluI48 f maxS) s
/-- MIN.u (R444). -/
def execMinUReg (f : Alu3) (s : State) : Out := run (alu3 f minU) s
/-- MIN.u (R444). -/
def execMinUShortImm (f : AluI16) (s : State) : Out := run (aluI16 f minU) s
/-- MIN.u (R444). -/
def execMinULongImm (f : AluI48) (s : State) : Out := run (aluI48 f minU) s
/-- MAX.u (R444). -/
def execMaxUReg (f : Alu3) (s : State) : Out := run (alu3 f maxU) s
/-- MAX.u (R444). -/
def execMaxUShortImm (f : AluI16) (s : State) : Out := run (aluI16 f maxU) s
/-- MAX.u (R444). -/
def execMaxULongImm (f : AluI48) (s : State) : Out := run (aluI48 f maxU) s
/-- CLZ (R405). -/
def execClz (f : Un) (s : State) : Out := run (unary f clzN) s
/-- CTZ (R405). -/
def execCtz (f : Un) (s : State) : Out := run (unary f ctzN) s
/-- POPC (R405). -/
def execPopc (f : Un) (s : State) : Out := run (unary f popcN) s
/-- BSWP (R405). -/
def execBswp (f : Un) (s : State) : Out := run (unary f bswpN) s

/-- The 0 or 1 that SET writes (R473). -/
def setVal (c : Cond) (x y : Word) : Word := if holds c x y then 1#64 else 0#64

/-- SET, register form (R473). -/
def execSetReg (f : Set3) (s : State) : Out :=
  run (do
    let l ← operands [⟨f.b, f.kb, .exec⟩, ⟨f.c, f.kc, .exec⟩] (some (.exec, f.a))
    writeDst f.a (setVal f.cond (arg l 0) (arg l 1))) s
/-- SET, short immediate form (R473). -/
def execSetShortImm (f : SetI16) (s : State) : Out :=
  run (do
    let l ← operands [⟨f.b, f.kb, .exec⟩] (some (.exec, f.a))
    writeDst f.a (setVal f.cond (arg l 0) (f.imm.signExtend 64))) s
/-- SET, long immediate form (R473). -/
def execSetLongImm (f : SetI48) (s : State) : Out :=
  run (do
    let l ← operands [⟨f.b, f.kb, .exec⟩] (some (.exec, f.a))
    writeDst f.a (setVal f.cond (arg l 0) (f.imm.signExtend 64))) s
/-- CSEL (R409): every source is read whichever is chosen. -/
def execCsel (f : Csel) (s : State) : Out :=
  run (do
    let l ← operands [⟨f.b, f.kb, .exec⟩, ⟨f.c, f.kc, .exec⟩, ⟨f.d, f.kd, .exec⟩] (some (.exec, f.a))
    writeDst f.a (if (arg l 2 == 0#64) == f.onZero then arg l 0 else arg l 1)) s
/-- EXTR (R422). -/
def execExtr (f : Extr) (s : State) : Out :=
  run (do
    let l ← operands [⟨f.b, f.kb, .exec⟩] (some (.exec, f.a))
    writeDst f.a (extrN (arg l 0) f.pos.toNat (f.wid.toNat + 1))) s
/-- EXTR.s (R422). -/
def execExtrS (f : Extr) (s : State) : Out :=
  run (do
    let l ← operands [⟨f.b, f.kb, .exec⟩] (some (.exec, f.a))
    writeDst f.a (extrSN (arg l 0) f.pos.toNat (f.wid.toNat + 1))) s
/-- INSR (R422). -/
def execInsr (f : Insr) (s : State) : Out :=
  run (do
    let l ← operands [⟨f.b, f.kb, .exec⟩, ⟨f.c, f.kc, .exec⟩] (some (.exec, f.a))
    writeDst f.a (insrN (arg l 0) (arg l 1) f.pos.toNat (f.wid.toNat + 1))) s

/-- LDI and LDI.u: a value and a destination, of the half that the form names (R440). -/
def loadImm (a : Opnd) (half : Bool) (v : Word) : Run Unit := do
  let _ ← operands [] (some (putOf half, a))
  writeDst a v
/-- LDI with IMM16 (R440). -/
def execLdiShort (f : Ldi16) (s : State) : Out := run (loadImm f.a f.half (f.imm.signExtend 64)) s
/-- LDI with IMM48 (R440). -/
def execLdiLong (f : Ldi48) (s : State) : Out := run (loadImm f.a f.half (f.imm.signExtend 64)) s
/-- LDI.u with IMM16 (R440). -/
def execLdiUShort (f : Ldi16) (s : State) : Out := run (loadImm f.a f.half (f.imm.zeroExtend 64)) s
/-- LDI.u with IMM48 (R440). -/
def execLdiULong (f : Ldi48) (s : State) : Out := run (loadImm f.a f.half (f.imm.zeroExtend 64)) s

end Sys2Proof.Machine
end

