-- ==== Sys2Proof/Machine/Memory.lean ====
section
/-!
DEFINITION. LD and ST (R30–R32, R438, R439, R479, R480).
-/
namespace Sys2Proof.Machine

/-- An access that crosses a 64-byte line (R439). -/
def crossesLine (va n : Nat) : Bool := 64 < va % 64 + n

/-- LD's access: n bytes at an address. DESIGN CHOICE (log 4). -/
def memLoad (cid who va n : Nat) (super : Bool) : MM (List Byte) := do
  MM.stopIf (crossesLine va n) .misalign va
  match (← get).target cid va with
  | .cfg tgt off => cfgLoad cid va n tgt off super
  | _ => loadAt cid who va n super true

/-- ST's access. DESIGN CHOICE (log 4). -/
def memStore (cid who va : Nat) (bs : List Byte) (super : Bool) : MM Unit := do
  MM.stopIf (crossesLine va bs.length) .misalign va
  match (← get).target cid va with
  | .cfg tgt off => cfgStore cid va tgt off bs super
  | _ => storeAt cid who va bs super true

/-- Bytes of a size field. -/
def sizeOf (f : BitVec 2) : Nat := 2 ^ f.toNat

/-- A loaded value, extended to a dword. -/
def extended (n : Nat) (sx : Bool) (v : Nat) : Word := if sx then trunc64 (signedOf (8 * n) v) else BitVec.ofNat 64 v

/-- A ← the value at an address. -/
def loadInto (a : Opnd) (va : Word) (size : BitVec 2) (sx : Bool) : Run Unit := do
  let s ← get
  let bs ← Run.lift (memLoad s.cid s.ctx va.toNat (sizeOf size) s.super)
  writeDst a (extended (sizeOf size) sx (leNat bs))

/-- LD, base plus index (R438). -/
def execLdIndex (f : LdX) (s : State) : Out :=
  run (do
    let l ← operands [⟨f.b, f.kb, .addr⟩, ⟨f.c, f.kc, .addr⟩] (some (.load, f.a))
    loadInto f.a (arg l 0 + arg l 1) f.size f.sx) s
/-- LD, base plus displacement (R438). -/
def execLdDisp (f : LdD) (s : State) : Out :=
  run (do
    let l ← operands [⟨f.b, f.kb, .addr⟩] (some (.load, f.a))
    loadInto f.a (arg l 0 + f.disp.signExtend 64) f.size f.sx) s

/-- The low bytes of a dword to an address. -/
def storeFrom (d va : Word) (size : BitVec 2) : Run Unit := do
  let s ← get
  Run.lift (memStore s.cid s.ctx va.toNat (leBytes (sizeOf size) d.toNat) s.super)
  noteWrite

/-- ST, base plus index (R479). -/
def execStIndex (f : StX) (s : State) : Out :=
  run (do
    let l ← operands [⟨f.b, f.kb, .addr⟩, ⟨f.c, f.kc, .addr⟩, ⟨f.a, f.ka, .data⟩] none
    storeFrom (arg l 2) (arg l 0 + arg l 1) f.size) s
/-- ST, base plus displacement (R479). -/
def execStDisp (f : StD) (s : State) : Out :=
  run (do
    let l ← operands [⟨f.b, f.kb, .addr⟩, ⟨f.a, f.ka, .data⟩] none
    storeFrom (arg l 1) (arg l 0 + f.disp.signExtend 64) f.size) s

end Sys2Proof.Machine
end

