-- ==== Sys2Proof/Machine/Vector.lean ====
section
/-!
DEFINITION. The vector instructions as contexts commit them (R82, R83, R87, R94, R486–R499): checks, captured operands and
the entry in the coprocessor ring. What the vector unit does with them stands in Machine/VecUnit.lean.
-/
namespace Sys2Proof.Machine

/-- A source field of a vector instruction: its code, its K bit, whether it names a vector register. -/
structure VSrc where
  code : Opnd
  k : Bool
  vec : Bool
  deriving DecidableEq, Repr

/-- What a vector instruction reads and writes. `keep` holds where A is read for its inactive lanes; `rm` is its rounding
field, where it has one. -/
structure VUse where
  b : Option VSrc := none
  c : Option VSrc := none
  d : Option VSrc := none
  m : Option VSrc := none
  dst : Option (Bool × Opnd) := none
  keep : Bool := false
  rm : Option Nat := none
  deriving DecidableEq, Repr

/-- The source fields in the order of R395. -/
def VUse.srcs (u : VUse) : List VSrc := [u.b, u.c, u.d, u.m].filterMap id

/-- A field of the other kind of register (R109, R486). -/
def vRoleBad (vec : Bool) (a : Opnd) : Bool := if vec then 16 ≤ a.toNat else 32 ≤ a.toNat && a ≠ opZ

/-- The registers that an instruction reads: kind and number. -/
def VUse.reads (u : VUse) : List (Bool × Nat) :=
  (u.srcs.filterMap fun x => if x.code = opZ then none else some (x.vec, x.code.toNat))
    ++ (if u.keep then (u.dst.map fun p => (p.1, p.2.toNat)).toList else [])

/-- A register that a queued vector instruction of the activation writes is read (R75, R487). -/
def State.vecHazard (s : State) (u : VUse) : Bool :=
  let w := (s.core.vq.filter (·.key == s.key)).filterMap fun o => (vecDst o.i).map fun p => (p.1, p.2.toNat)
  u.reads.any w.contains

/-- The value that a field gives: 0 for `z`, every bit of a mask for `z`. -/
def vVal (w : Win) (dflt : Nat) : Option VSrc → Nat
  | none => dflt
  | some x => if x.code = opZ then dflt else if x.vec then (w.vr x.code.toNat).toNat else (w.gr x.code.toNat).toNat

/-- The checks of a vector instruction: VE, roles, dead registers, uncorrectable general registers (R81, R94, R486). -/
def vecChecks (u : VUse) : Run Unit := do
  let s ← get
  Run.stopIf (!swVe s.sw) .illop
  Run.stopIf (u.srcs.any (fun x => vRoleBad x.vec x.code) || (match u.dst with
    | some (v, a) => vRoleBad v a
    | none => false)) .badopnd
  Run.stopIf (u.reads.any fun r => if r.1 then !s.win.liveV r.2 else !s.win.live r.2) .deadreg
  if u.reads.any fun r => !r.1 && s.win.bad.contains r.2 then
    Run.fault { cause := .uncorr, side := [.reg s.cid s.key ((u.reads.filter fun r => !r.1).map (·.2))] }

/-- The registers that an instruction reads, as `Win.bad` numbers them. -/
def VUse.readKeys (u : VUse) : List Nat := u.reads.map fun r => if r.1 then 32 + r.2 else r.2

/-- Last-use hints, and the destination made live: it keeps its value where it had one, else it is zero (R82, R488). -/
def vecRegs (time : Nat) (w : Win) (u : VUse) : Win :=
  let t := (u.reads.foldl (fun w r => w.touchBank time (if r.1 then 4 + r.2 / 4 else r.2 / 8)) w).found u.readKeys
  let t := u.srcs.foldl
    (fun w x => if x.k && x.code ≠ opZ then (if x.vec then w.killV x.code.toNat else w.killG x.code.toNat) else w) t
  match u.dst with
  | some (true, a) => t.setV time a.toNat (if w.liveV a.toNat then w.vr a.toNat else 0)
  | some (false, a) => if a = opZ then t else t.setG time a.toNat (if w.live a.toNat then w.gr a.toNat else 0)
  | none => t

/-- The commit of a vector instruction: operands captured, the RSH counter taken, a ring entry, its place in the queue.
DESIGN CHOICE (log 37). -/
def vecPush (i : Instr) (u : VUse) (pc : Word) : Run After := do
  vecChecks u
  let s ← get
  let w := s.win
  let all := 2 ^ 512 - 1
  let rshc ← takeCounter (u.rm.any fun rm => effMode rm s.sw = 4)
  let t ← get
  let head := ((encode i).map (·.head)).getD 0
  match t.m.cprPush s.cid s.ctx head 0 pc w.ctl with
  | none => Run.stall
  | some (seq, m) => do
    Run.onM fun _ => m.regLost s.cid s.key u.readKeys
    Run.onWin fun x => vecRegs s.m.time x u
    let old := match u.dst with
      | some (true, a) => if w.liveV a.toNat then w.vr a.toNat else 0
      | _ => 0
    let op : VOp :=
      { i := i, key := s.key, ctx := s.ctx, aid := s.aid, seq := seq, pc := pc, sw := s.sw, rshc := rshc
        seed := s.core.spec.seed, b := vVal w 0 u.b, c := vVal w 0 u.c, d := vVal w 0 u.d, m := vVal w all u.m, old := old
        bad := u.reads.any fun r => r.1 && w.bad.contains (32 + r.2)
        started := false, pos := 0, got := 0 }
    Run.onCore fun c => { c with vq := c.vq ++ [op] }
    return .step 0 0

/-- A vector instruction: it waits first where it reads what a queued one writes. -/
def runVec (i : Instr) (u : VUse) (s : State) : Out := runInstr (!s.vecHazard u) (vecPush i u) s

/-! ## What each form reads and writes (R489, R497, R499) -/

/-- The mask operand of a form. -/
def maskOf (m : Opnd) (km : Bool) : Option VSrc := some ⟨m, km, false⟩
/-- A is read for inactive lanes: F = 0 and a mask (R489). -/
def keepsA (f : VecF) : Bool := !f.zero && f.m ≠ opZ

/-- Two vector sources and a vector destination; `rm` for the forms that round. -/
def useBC (f : VecF) (rounds : Bool) : VUse :=
  { b := some ⟨f.b, f.kb, true⟩, c := some ⟨f.c, f.kc, true⟩, m := maskOf f.m f.km, dst := some (true, f.a), keep := keepsA f
    rm := if rounds && !isIntTy f.ty then some f.rm.toNat else none }
/-- One vector source. -/
def useB (f : VecF) (rounds : Bool) : VUse := { useBC f rounds with c := none }
/-- Three vector sources. -/
def useBCD (f : VecF) : VUse := { useBC f true with d := some ⟨f.d, f.kd, true⟩ }
/-- VCVT rounds whatever its types (R489). -/
def useCvt (f : VecF) : VUse := { useB f false with rm := some f.rm.toNat }
/-- VCMP: a general destination. -/
def useCmp (f : VecF) : VUse := { useBC f false with dst := some (false, f.a), keep := false }
/-- VSEL: a general selector. -/
def useSel (f : VecF) : VUse := { useBC f false with d := some ⟨f.d, f.kd, false⟩ }
/-- VRED writes every lane. One of a float type whose mode is RSH takes RSHC, VRED.min and VRED.max too (R487, R501).
DEDUCED (log 139). -/
def useRed (f : VecF) : VUse :=
  { useB f false with keep := false, rm := if isIntTy f.ty then none else some f.rm.toNat }

/-- A load: base, and the stride or index vector. -/
def useLoad (f : VMemF) (c : Option VSrc) : VUse :=
  { b := some ⟨f.b, f.kb, false⟩, c := c, m := maskOf f.m f.km, dst := some (true, f.a) }
/-- A store: its data is captured as D. -/
def useStore (f : VMemF) (c : Option VSrc) : VUse :=
  { b := some ⟨f.b, f.kb, false⟩, c := c, d := some ⟨f.a, f.ka, true⟩, m := maskOf f.m f.km }

/-! ## Instructions -/

/-- VADD (R490). -/
def execVadd (f : VecF) (s : State) : Out := runVec (.vadd f) (useBC f true) s
/-- VSUB (R490). -/
def execVsub (f : VecF) (s : State) : Out := runVec (.vsub f) (useBC f true) s
/-- VMUL (R490). -/
def execVmul (f : VecF) (s : State) : Out := runVec (.vmul f) (useBC f true) s
/-- VFMA (R490). -/
def execVfma (f : VecF) (s : State) : Out := runVec (.vfma f) (useBCD f) s
/-- VMIN (R490). -/
def execVmin (f : VecF) (s : State) : Out := runVec (.vmin f) (useBC f false) s
/-- VMAX (R490). -/
def execVmax (f : VecF) (s : State) : Out := runVec (.vmax f) (useBC f false) s
/-- VABS (R490). -/
def execVabs (f : VecF) (s : State) : Out := runVec (.vabs f) (useB f false) s
/-- VNEG (R490). -/
def execVneg (f : VecF) (s : State) : Out := runVec (.vneg f) (useB f false) s
/-- VAND (R491). -/
def execVand (f : VecF) (s : State) : Out := runVec (.vand f) (useBC f false) s
/-- VOR (R491). -/
def execVor (f : VecF) (s : State) : Out := runVec (.vor f) (useBC f false) s
/-- VXOR (R491). -/
def execVxor (f : VecF) (s : State) : Out := runVec (.vxor f) (useBC f false) s
/-- VSHL (R491). -/
def execVshl (f : VecF) (s : State) : Out := runVec (.vshl f) (useBC f false) s
/-- VSHR (R491). -/
def execVshr (f : VecF) (s : State) : Out := runVec (.vshr f) (useBC f false) s
/-- VSAR (R491). -/
def execVsar (f : VecF) (s : State) : Out := runVec (.vsar f) (useBC f false) s
/-- VCMP (R492). -/
def execVcmp (f : VecF) (s : State) : Out := runVec (.vcmp f) (useCmp f) s
/-- VSEL (R492). -/
def execVsel (f : VecF) (s : State) : Out := runVec (.vsel f) (useSel f) s
/-- VCVT (R493). -/
def execVcvt (f : VecF) (s : State) : Out := runVec (.vcvt f) (useCvt f) s
/-- VDOT (R494). -/
def execVdot (f : VecF) (s : State) : Out := runVec (.vdot f) (useBCD f) s
/-- VRED (R495). -/
def execVred (f : VecF) (s : State) : Out := runVec (.vred f) (useRed f) s
/-- VPERM (R496). -/
def execVperm (f : VecF) (s : State) : Out := runVec (.vperm f) (useBC f false) s
/-- VLD (R497). -/
def execVld (f : VMemF) (s : State) : Out := runVec (.vld f) (useLoad f none) s
/-- VST (R497). -/
def execVst (f : VMemF) (s : State) : Out := runVec (.vst f) (useStore f none) s
/-- VLDS (R497). -/
def execVlds (f : VMemF) (s : State) : Out := runVec (.vlds f) (useLoad f (some ⟨f.c, f.kc, false⟩)) s
/-- VSTS (R497). -/
def execVsts (f : VMemF) (s : State) : Out := runVec (.vsts f) (useStore f (some ⟨f.c, f.kc, false⟩)) s
/-- VGATH (R497). -/
def execVgath (f : VMemF) (s : State) : Out := runVec (.vgath f) (useLoad f (some ⟨f.c, f.kc, true⟩)) s
/-- VMOV (R499). -/
def execVmov (f : VMovF) (s : State) : Out := runVec (.vmov f) ({ b := some ⟨f.b, f.kb, true⟩, dst := some (true, f.a) }) s
/-- VBC (R499). -/
def execVbc (f : VMovF) (s : State) : Out := runVec (.vbc f) ({ b := some ⟨f.b, f.kb, false⟩, dst := some (true, f.a) }) s
/-- VEXT (R499). -/
def execVext (f : VMovF) (s : State) : Out := runVec (.vext f) ({ b := some ⟨f.b, f.kb, true⟩, dst := some (false, f.a) }) s
/-- VINS (R499). -/
def execVins (f : VMovF) (s : State) : Out := runVec (.vins f) ({ b := some ⟨f.b, f.kb, true⟩, c := some ⟨f.c, f.kc, false⟩, dst := some (true, f.a) }) s

end Sys2Proof.Machine
end

