-- ==== Sys2Proof/Machine/Dispatch.lean ====
section
/-!
DEFINITION. The dispatch: one arm for each row of the opcode table, each one call of its meaning.
-/
namespace Sys2Proof.Machine

/-- What an instruction of the focused context, or an event, does. -/
def exec (i : Instr) (s : State) : Host.Outcome State Fault Refusal :=
  match i with
  | .addReg f => Sys2Proof.Machine.execAddReg f s
  | .addShortImm f => Sys2Proof.Machine.execAddShortImm f s
  | .addLongImm f => Sys2Proof.Machine.execAddLongImm f s
  | .subReg f => Sys2Proof.Machine.execSubReg f s
  | .subShortImm f => Sys2Proof.Machine.execSubShortImm f s
  | .subLongImm f => Sys2Proof.Machine.execSubLongImm f s
  | .mulReg f => Sys2Proof.Machine.execMulReg f s
  | .mulShortImm f => Sys2Proof.Machine.execMulShortImm f s
  | .mulLongImm f => Sys2Proof.Machine.execMulLongImm f s
  | .mulhReg f => Sys2Proof.Machine.execMulhReg f s
  | .mulhShortImm f => Sys2Proof.Machine.execMulhShortImm f s
  | .mulhLongImm f => Sys2Proof.Machine.execMulhLongImm f s
  | .mulhUReg f => Sys2Proof.Machine.execMulhUReg f s
  | .mulhUShortImm f => Sys2Proof.Machine.execMulhUShortImm f s
  | .mulhULongImm f => Sys2Proof.Machine.execMulhULongImm f s
  | .divReg f => Sys2Proof.Machine.execDivReg f s
  | .divShortImm f => Sys2Proof.Machine.execDivShortImm f s
  | .divLongImm f => Sys2Proof.Machine.execDivLongImm f s
  | .divUReg f => Sys2Proof.Machine.execDivUReg f s
  | .divUShortImm f => Sys2Proof.Machine.execDivUShortImm f s
  | .divULongImm f => Sys2Proof.Machine.execDivULongImm f s
  | .remReg f => Sys2Proof.Machine.execRemReg f s
  | .remShortImm f => Sys2Proof.Machine.execRemShortImm f s
  | .remLongImm f => Sys2Proof.Machine.execRemLongImm f s
  | .remUReg f => Sys2Proof.Machine.execRemUReg f s
  | .remUShortImm f => Sys2Proof.Machine.execRemUShortImm f s
  | .remULongImm f => Sys2Proof.Machine.execRemULongImm f s
  | .andReg f => Sys2Proof.Machine.execAndReg f s
  | .andShortImm f => Sys2Proof.Machine.execAndShortImm f s
  | .andLongImm f => Sys2Proof.Machine.execAndLongImm f s
  | .andnReg f => Sys2Proof.Machine.execAndnReg f s
  | .andnShortImm f => Sys2Proof.Machine.execAndnShortImm f s
  | .andnLongImm f => Sys2Proof.Machine.execAndnLongImm f s
  | .orReg f => Sys2Proof.Machine.execOrReg f s
  | .orShortImm f => Sys2Proof.Machine.execOrShortImm f s
  | .orLongImm f => Sys2Proof.Machine.execOrLongImm f s
  | .xorReg f => Sys2Proof.Machine.execXorReg f s
  | .xorShortImm f => Sys2Proof.Machine.execXorShortImm f s
  | .xorLongImm f => Sys2Proof.Machine.execXorLongImm f s
  | .shlReg f => Sys2Proof.Machine.execShlReg f s
  | .shlImm f => Sys2Proof.Machine.execShlImm f s
  | .shrReg f => Sys2Proof.Machine.execShrReg f s
  | .shrImm f => Sys2Proof.Machine.execShrImm f s
  | .sarReg f => Sys2Proof.Machine.execSarReg f s
  | .sarImm f => Sys2Proof.Machine.execSarImm f s
  | .rotReg f => Sys2Proof.Machine.execRotReg f s
  | .rotImm f => Sys2Proof.Machine.execRotImm f s
  | .minReg f => Sys2Proof.Machine.execMinReg f s
  | .minShortImm f => Sys2Proof.Machine.execMinShortImm f s
  | .minLongImm f => Sys2Proof.Machine.execMinLongImm f s
  | .maxReg f => Sys2Proof.Machine.execMaxReg f s
  | .maxShortImm f => Sys2Proof.Machine.execMaxShortImm f s
  | .maxLongImm f => Sys2Proof.Machine.execMaxLongImm f s
  | .minUReg f => Sys2Proof.Machine.execMinUReg f s
  | .minUShortImm f => Sys2Proof.Machine.execMinUShortImm f s
  | .minULongImm f => Sys2Proof.Machine.execMinULongImm f s
  | .maxUReg f => Sys2Proof.Machine.execMaxUReg f s
  | .maxUShortImm f => Sys2Proof.Machine.execMaxUShortImm f s
  | .maxULongImm f => Sys2Proof.Machine.execMaxULongImm f s
  | .clz f => Sys2Proof.Machine.execClz f s
  | .ctz f => Sys2Proof.Machine.execCtz f s
  | .popc f => Sys2Proof.Machine.execPopc f s
  | .bswp f => Sys2Proof.Machine.execBswp f s
  | .setReg f => Sys2Proof.Machine.execSetReg f s
  | .setShortImm f => Sys2Proof.Machine.execSetShortImm f s
  | .setLongImm f => Sys2Proof.Machine.execSetLongImm f s
  | .csel f => Sys2Proof.Machine.execCsel f s
  | .extr f => Sys2Proof.Machine.execExtr f s
  | .extrS f => Sys2Proof.Machine.execExtrS f s
  | .insr f => Sys2Proof.Machine.execInsr f s
  | .ldiShort f => Sys2Proof.Machine.execLdiShort f s
  | .ldiLong f => Sys2Proof.Machine.execLdiLong f s
  | .ldiUShort f => Sys2Proof.Machine.execLdiUShort f s
  | .ldiULong f => Sys2Proof.Machine.execLdiULong f s
  | .adpcShort f => Sys2Proof.Machine.execAdpcShort f s
  | .adpcLong f => Sys2Proof.Machine.execAdpcLong f s
  | .ldIndex f => Sys2Proof.Machine.execLdIndex f s
  | .ldDisp f => Sys2Proof.Machine.execLdDisp f s
  | .stIndex f => Sys2Proof.Machine.execStIndex f s
  | .stDisp f => Sys2Proof.Machine.execStDisp f s
  | .ldrsIndex f => Sys2Proof.Machine.execLdrsIndex f s
  | .ldrsDisp f => Sys2Proof.Machine.execLdrsDisp f s
  | .stc f => Sys2Proof.Machine.execStc f s
  | .pref f => Sys2Proof.Machine.execPref f s
  | .smap f => Sys2Proof.Machine.execSmap f s
  | .sflush f => Sys2Proof.Machine.execSflush f s
  | .sinv f => Sys2Proof.Machine.execSinv f s
  | .dropRet f => Sys2Proof.Machine.execDropRet f s
  | .dropOff f => Sys2Proof.Machine.execDropOff f s
  | .wake f => Sys2Proof.Machine.execWake f s
  | .fence f => Sys2Proof.Machine.execFence f s
  | .icinv f => Sys2Proof.Machine.execIcinv f s
  | .fbar => Sys2Proof.Machine.execFbar s
  | .atom f => Sys2Proof.Machine.execAtom f s
  | .red f => Sys2Proof.Machine.execRed f s
  | .redx f => Sys2Proof.Machine.execRedx f s
  | .xread f => Sys2Proof.Machine.execXread f s
  | .waitrs f => Sys2Proof.Machine.execWaitrs f s
  | .bari f => Sys2Proof.Machine.execBari f s
  | .bara f => Sys2Proof.Machine.execBara f s
  | .bart f => Sys2Proof.Machine.execBart f s
  | .barw f => Sys2Proof.Machine.execBarw f s
  | .barv f => Sys2Proof.Machine.execBarv f s
  | .semw f => Sys2Proof.Machine.execSemw f s
  | .sems f => Sys2Proof.Machine.execSems f s
  | .semset f => Sys2Proof.Machine.execSemset f s
  | .jwait f => Sys2Proof.Machine.execJwait f s
  | .jpoll f => Sys2Proof.Machine.execJpoll f s
  | .wait f => Sys2Proof.Machine.execWait f s
  | .bShort f => Sys2Proof.Machine.execBShort f s
  | .bLong f => Sys2Proof.Machine.execBLong f s
  | .callShort f => Sys2Proof.Machine.execCallShort f s
  | .callLong f => Sys2Proof.Machine.execCallLong f s
  | .bcShort f => Sys2Proof.Machine.execBcShort f s
  | .bcLong f => Sys2Proof.Machine.execBcLong f s
  | .jmp f => Sys2Proof.Machine.execJmp f s
  | .callr f => Sys2Proof.Machine.execCallr f s
  | .ret f => Sys2Proof.Machine.execRet f s
  | .skip f => Sys2Proof.Machine.execSkip f s
  | .endAct => Sys2Proof.Machine.execEnd s
  | .yield => Sys2Proof.Machine.execYield s
  | .spawn f => Sys2Proof.Machine.execSpawn f s
  | .join f => Sys2Proof.Machine.execJoin f s
  | .migr f => Sys2Proof.Machine.execMigr f s
  | .send f => Sys2Proof.Machine.execSend f s
  | .sendx f => Sys2Proof.Machine.execSendx f s
  | .mcast f => Sys2Proof.Machine.execMcast f s
  | .sopen f => Sys2Proof.Machine.execSopen f s
  | .sclose f => Sys2Proof.Machine.execSclose f s
  | .sbind f => Sys2Proof.Machine.execSbind f s
  | .hself f => Sys2Proof.Machine.execHself f s
  | .hqry f => Sys2Proof.Machine.execHqry f s
  | .mxld f => Sys2Proof.Machine.execMxld f s
  | .mxmma f => Sys2Proof.Machine.execMxmma f s
  | .mxdrn f => Sys2Proof.Machine.execMxdrn f s
  | .mxrot f => Sys2Proof.Machine.execMxrot f s
  | .mxzero f => Sys2Proof.Machine.execMxzero f s
  | .mxgang f => Sys2Proof.Machine.execMxgang f s
  | .mxstat f => Sys2Proof.Machine.execMxstat f s
  | .mxstatClr f => Sys2Proof.Machine.execMxstatClr f s
  | .cpy f => Sys2Proof.Machine.execCpy f s
  | .cp2d f => Sys2Proof.Machine.execCp2d f s
  | .gath f => Sys2Proof.Machine.execGath f s
  | .scat f => Sys2Proof.Machine.execScat f s
  | .cpyx f => Sys2Proof.Machine.execCpyx f s
  | .dtld f => Sys2Proof.Machine.execDtld f s
  | .fadd f => Sys2Proof.Machine.execFadd f s
  | .fsub f => Sys2Proof.Machine.execFsub f s
  | .fmul f => Sys2Proof.Machine.execFmul f s
  | .fdiv f => Sys2Proof.Machine.execFdiv f s
  | .fsqrt f => Sys2Proof.Machine.execFsqrt f s
  | .fmin f => Sys2Proof.Machine.execFmin f s
  | .fmax f => Sys2Proof.Machine.execFmax f s
  | .fcls f => Sys2Proof.Machine.execFcls f s
  | .fma f => Sys2Proof.Machine.execFma f s
  | .fcmp f => Sys2Proof.Machine.execFcmp f s
  | .fcvt f => Sys2Proof.Machine.execFcvt f s
  | .vadd f => Sys2Proof.Machine.execVadd f s
  | .vsub f => Sys2Proof.Machine.execVsub f s
  | .vmul f => Sys2Proof.Machine.execVmul f s
  | .vfma f => Sys2Proof.Machine.execVfma f s
  | .vmin f => Sys2Proof.Machine.execVmin f s
  | .vmax f => Sys2Proof.Machine.execVmax f s
  | .vabs f => Sys2Proof.Machine.execVabs f s
  | .vneg f => Sys2Proof.Machine.execVneg f s
  | .vand f => Sys2Proof.Machine.execVand f s
  | .vor f => Sys2Proof.Machine.execVor f s
  | .vxor f => Sys2Proof.Machine.execVxor f s
  | .vshl f => Sys2Proof.Machine.execVshl f s
  | .vshr f => Sys2Proof.Machine.execVshr f s
  | .vsar f => Sys2Proof.Machine.execVsar f s
  | .vcmp f => Sys2Proof.Machine.execVcmp f s
  | .vsel f => Sys2Proof.Machine.execVsel f s
  | .vcvt f => Sys2Proof.Machine.execVcvt f s
  | .vdot f => Sys2Proof.Machine.execVdot f s
  | .vred f => Sys2Proof.Machine.execVred f s
  | .vperm f => Sys2Proof.Machine.execVperm f s
  | .vld f => Sys2Proof.Machine.execVld f s
  | .vst f => Sys2Proof.Machine.execVst f s
  | .vlds f => Sys2Proof.Machine.execVlds f s
  | .vsts f => Sys2Proof.Machine.execVsts f s
  | .vgath f => Sys2Proof.Machine.execVgath f s
  | .vmov f => Sys2Proof.Machine.execVmov f s
  | .vbc f => Sys2Proof.Machine.execVbc f s
  | .vext f => Sys2Proof.Machine.execVext f s
  | .vins f => Sys2Proof.Machine.execVins f s
  | .csrr f => Sys2Proof.Machine.execCsrr f s
  | .csrw f => Sys2Proof.Machine.execCsrw f s
  | .csrx f => Sys2Proof.Machine.execCsrx f s
  | .trap f => Sys2Proof.Machine.execTrap f s
  | .svc f => Sys2Proof.Machine.execSvc f s
  | .eret => Sys2Proof.Machine.execEret s
  | .uret => Sys2Proof.Machine.execUret s
  | .nop => Sys2Proof.Machine.execNop s
  | .brk => Sys2Proof.Machine.execBrk s
  | .cStashWrite cid ctx => Sys2Proof.Machine.execCStashWrite cid ctx s
  | .cCprWrite cid ctx => Sys2Proof.Machine.execCCprWrite cid ctx s
  | .cSwWrite cid ctx => Sys2Proof.Machine.execCSwWrite cid ctx s
  | .handlerCreation cid => Sys2Proof.Machine.execHandlerCreation cid s
  | .taskStart cid => Sys2Proof.Machine.execTaskStart cid s
  | .workRangeStart cid => Sys2Proof.Machine.execWorkRangeStart cid s
  | .wakeUpArrival p => Sys2Proof.Machine.execWakeUpArrival p s
  | .wakeUpHeldPush cid => Sys2Proof.Machine.execWakeUpHeldPush cid s
  | .trapActivationCreation cid ctx => Sys2Proof.Machine.execTrapActivationCreation cid ctx s
  | .deferredTrapEntry cid => Sys2Proof.Machine.execDeferredTrapEntry cid s
  | .activationBinding cid key => Sys2Proof.Machine.execActivationBinding cid key s
  | .contextEntry cid ctx => Sys2Proof.Machine.execContextEntry cid ctx s
  | .displacement cid => Sys2Proof.Machine.execDisplacement cid s
  | .aging cid key => Sys2Proof.Machine.execAging cid key s
  | .budgetExpiry cid ctx => Sys2Proof.Machine.execBudgetExpiry cid ctx s
  | .forcedSuspension cid ctx => Sys2Proof.Machine.execForcedSuspension cid ctx s
  | .handlerBudgetExpiry cid ctx => Sys2Proof.Machine.execHandlerBudgetExpiry cid ctx s
  | .stealAttempt cid => Sys2Proof.Machine.execStealAttempt cid s
  | .stealRoundRestart cid => Sys2Proof.Machine.execStealRoundRestart cid s
  | .stealRequest thief => Sys2Proof.Machine.execStealRequest thief s
  | .stealReply thief => Sys2Proof.Machine.execStealReply thief s
  | .migrationPacket p => Sys2Proof.Machine.execMigrationPacket p s
  | .migrationResend cid key => Sys2Proof.Machine.execMigrationResend cid key s
  | .joinReread cid key => Sys2Proof.Machine.execJoinReread cid key s
  | .waitExpiry cid key => Sys2Proof.Machine.execWaitExpiry cid key s
  | .waitrsTimeout cid key => Sys2Proof.Machine.execWaitrsTimeout cid key s
  | .lateFaultDelivery cid ctx => Sys2Proof.Machine.execLateFaultDelivery cid ctx s
  | .neighbourWordArrival cid left => Sys2Proof.Machine.execNeighbourWordArrival cid left s
  | .registerBankIdle cid key bank => Sys2Proof.Machine.execRegisterBankIdle cid key bank s
  | .lmBankWakeComplete pid bank => Sys2Proof.Machine.execLmBankWakeComplete pid bank s
  | .groomerVisit pid off err => Sys2Proof.Machine.execGroomerVisit pid off err s
  | .vectorInstructionStart cid => Sys2Proof.Machine.execVectorInstructionStart cid s
  | .vectorRetirement cid => Sys2Proof.Machine.execVectorRetirement cid s
  | .vectorLateFault cid => Sys2Proof.Machine.execVectorLateFault cid s
  | .icacheFill cid ctx => Sys2Proof.Machine.execIcacheFill cid ctx s
  | .readRequest p => Sys2Proof.Machine.execReadRequest p s
  | .writeRequest late k => Sys2Proof.Machine.execWriteRequest late k s
  | .checkRequest p => Sys2Proof.Machine.execCheckRequest p s
  | .atomicRequest p => Sys2Proof.Machine.execAtomicRequest p s
  | .reply p => Sys2Proof.Machine.execReply p s
  | .retryReply p => Sys2Proof.Machine.execRetryReply p s
  | .retryResend p => Sys2Proof.Machine.execRetryResend p s
  | .replySlotTimeout cid slot => Sys2Proof.Machine.execReplySlotTimeout cid slot s
  | .pageTableWalk site va => Sys2Proof.Machine.execPageTableWalk site va s
  | .stashRecall cid line write => Sys2Proof.Machine.execStashRecall cid line write s
  | .stashWriteBack cid line => Sys2Proof.Machine.execStashWriteBack cid line s
  | .reservationRecallDeferral cid line => Sys2Proof.Machine.execReservationRecallDeferral cid line s
  | .pendingByteDecrement tile q => Sys2Proof.Machine.execPendingByteDecrement tile q s
  | .barwRegistrationRetry cid key => Sys2Proof.Machine.execBarwRegistrationRetry cid key s
  | .collectiveCombine site => Sys2Proof.Machine.execCollectiveCombine site s
  | .barrierCompletionMulticast site loc => Sys2Proof.Machine.execBarrierCompletionMulticast site loc s
  | .tlbiCompletion site => Sys2Proof.Machine.execTlbiCompletion site s
  | .matrixCommandStart tile slot => Sys2Proof.Machine.execMatrixCommandStart tile slot s
  | .matrixStepGrant tile => Sys2Proof.Machine.execMatrixStepGrant tile s
  | .matrixStepEffect tile => Sys2Proof.Machine.execMatrixStepEffect tile s
  | .latchSwap tile slot => Sys2Proof.Machine.execLatchSwap tile slot s
  | .mxrotRendezvous tile slot => Sys2Proof.Machine.execMxrotRendezvous tile slot s
  | .latchRotationSwap tile => Sys2Proof.Machine.execLatchRotationSwap tile s
  | .gangFormation tile slot => Sys2Proof.Machine.execGangFormation tile slot s
  | .mxzeroCompletion tile slot => Sys2Proof.Machine.execMxzeroCompletion tile slot s
  | .drainCompletion tile slot => Sys2Proof.Machine.execDrainCompletion tile slot s
  | .matrixLateFault tile slot => Sys2Proof.Machine.execMatrixLateFault tile slot s
  | .copyCommandStart tile q => Sys2Proof.Machine.execCopyCommandStart tile q s
  | .cpyxPinning tile q => Sys2Proof.Machine.execCpyxPinning tile q s
  | .copyPiece tile q => Sys2Proof.Machine.execCopyPiece tile q s
  | .copyStall tile q => Sys2Proof.Machine.execCopyStall tile q s
  | .copyLateFault tile q => Sys2Proof.Machine.execCopyLateFault tile q s
  | .copyCommandCompletion tile q => Sys2Proof.Machine.execCopyCommandCompletion tile q s
  | .dtldTableChange tile q => Sys2Proof.Machine.execDtldTableChange tile q s
  | .packetInjection p => Sys2Proof.Machine.execPacketInjection p s
  | .routerForward p => Sys2Proof.Machine.execRouterForward p s
  | .activeMessage p => Sys2Proof.Machine.execActiveMessage p s
  | .multicastCopy p => Sys2Proof.Machine.execMulticastCopy p s
  | .nack p => Sys2Proof.Machine.execNack p s
  | .multicastResend p => Sys2Proof.Machine.execMulticastResend p s
  | .sendxLanding p => Sys2Proof.Machine.execSendxLanding p s
  | .streamOpen p => Sys2Proof.Machine.execStreamOpen p s
  | .streamAttach cid idx => Sys2Proof.Machine.execStreamAttach cid idx s
  | .streamFlitSend cid idx => Sys2Proof.Machine.execStreamFlitSend cid idx s
  | .streamDataArrival k => Sys2Proof.Machine.execStreamDataArrival k s
  | .streamClose k => Sys2Proof.Machine.execStreamClose k s
  | .streamIdleBreak cid idx => Sys2Proof.Machine.execStreamIdleBreak cid idx s
  | .trapReport site => Sys2Proof.Machine.execTrapReport site s
  | .collectorDelivery part collector => Sys2Proof.Machine.execCollectorDelivery part collector s
  | .tamvexPacket port w => Sys2Proof.Machine.execTamvexPacket port w s
  | .doorbell at_ value => Sys2Proof.Machine.execDoorbell at_ value s
  | .launchStart part => Sys2Proof.Machine.execLaunchStart part s
  | .launchPacket site => Sys2Proof.Machine.execLaunchPacket site s
  | .graphVerdict part => Sys2Proof.Machine.execGraphVerdict part s
  | .graphStart site => Sys2Proof.Machine.execGraphStart site s
  | .creditPartialSum site node => Sys2Proof.Machine.execCreditPartialSum site node s
  | .kernelTotal part node => Sys2Proof.Machine.execKernelTotal part node s
  | .completionEvent site => Sys2Proof.Machine.execCompletionEvent site s
  | .condDecision part node => Sys2Proof.Machine.execCondDecision part node s
  | .loopDecision part node => Sys2Proof.Machine.execLoopDecision part node s
  | .hostsigStore part node => Sys2Proof.Machine.execHostsigStore part node s
  | .graphEnd part => Sys2Proof.Machine.execGraphEnd part s
  | .livenessEvent site => Sys2Proof.Machine.execLivenessEvent site s
  | .stopEvent site => Sys2Proof.Machine.execStopEvent site s
  | .hqCancel at_ => Sys2Proof.Machine.execHqCancel at_ s
  | .pageNoticeResume part all rsite => Sys2Proof.Machine.execPageNoticeResume part all rsite s
  | .pageNoticeCancel part all rsite => Sys2Proof.Machine.execPageNoticeCancel part all rsite s
  | .pageNoticeArrival part site => Sys2Proof.Machine.execPageNoticeArrival part site s
  | .swapOut part => Sys2Proof.Machine.execSwapOut part s
  | .swapIn part => Sys2Proof.Machine.execSwapIn part s
  | .swapExchange part other => Sys2Proof.Machine.execSwapExchange part other s
  | .quiescenceAgreement part => Sys2Proof.Machine.execQuiescenceAgreement part s
  | .swapSaveCompletion part => Sys2Proof.Machine.execSwapSaveCompletion part s
  | .swapRestoreCompletion part => Sys2Proof.Machine.execSwapRestoreCompletion part s
  | .pswapStRead part => Sys2Proof.Machine.execPswapStRead part s
  | .retire site value => Sys2Proof.Machine.execRetire site value s
  | .retirementCompletion site => Sys2Proof.Machine.execRetirementCompletion site s
  | .selfTestPass pid => Sys2Proof.Machine.execSelfTestPass pid s
  | .passExpiry pid => Sys2Proof.Machine.execPassExpiry pid s
  | .balloonRelease site => Sys2Proof.Machine.execBalloonRelease site s
  | .spillMove site => Sys2Proof.Machine.execSpillMove site s
  | .mcExposeWrite site => Sys2Proof.Machine.execMcExposeWrite site s
  | .mcSpillRead site => Sys2Proof.Machine.execMcSpillRead site s
  | .mcBtailWrite site value => Sys2Proof.Machine.execMcBtailWrite site value s
  | .mcBpoolWrite site value => Sys2Proof.Machine.execMcBpoolWrite site value s
  | .psaveWrite site value => Sys2Proof.Machine.execPsaveWrite site value s
  | .lpctEntryWrite site l value => Sys2Proof.Machine.execLpctEntryWrite site l value s
  | .niTlbi site value => Sys2Proof.Machine.execNiTlbi site value s
  | .cfgRegisterWrite space idx off value => Sys2Proof.Machine.execCfgRegisterWrite space idx off value s
  | .powerOn => Sys2Proof.Machine.execPowerOn s
  | .clockOffer site => Sys2Proof.Machine.execClockOffer site s
  | .siteStateAdvance site ok step => Sys2Proof.Machine.execSiteStateAdvance site ok step s
  | .mcFirmwareBoot mc image sigOk => Sys2Proof.Machine.execMcFirmwareBoot mc image sigOk s
  | .hostCxlMemAccess port o n write value => Sys2Proof.Machine.execHostCxlMemAccess port o n write value s
  | .tokenLinkEnable sig key body port => Sys2Proof.Machine.execTokenLinkEnable sig key body port s
  | .tokenPartitionKey sig key body part pk => Sys2Proof.Machine.execTokenPartitionKey sig key body part pk s
  | .tokenReadmit sig key body site idx rcnt => Sys2Proof.Machine.execTokenReadmit sig key body site idx rcnt s
  | .tokenClearCoreStop sig key body site l => Sys2Proof.Machine.execTokenClearCoreStop sig key body site l s
  | .tokenSetRetired sig key body site => Sys2Proof.Machine.execTokenSetRetired sig key body site s
  | .tokenMcExpose sig key body site fact => Sys2Proof.Machine.execTokenMcExpose sig key body site fact s
  | .powerClamp => Sys2Proof.Machine.execPowerClamp s
  | .partitionCreation part sites => Sys2Proof.Machine.execPartitionCreation part sites s
  | .partitionReshape part sites => Sys2Proof.Machine.execPartitionReshape part sites s
  | .tamvexLinkTraining port up => Sys2Proof.Machine.execTamvexLinkTraining port up s
  | .pcieLinkTraining port cxl => Sys2Proof.Machine.execPcieLinkTraining port cxl s
  | .powerClampRelease => Sys2Proof.Machine.execPowerClampRelease s
  | .powerLoss => Sys2Proof.Machine.execPowerLoss s
  | .selfTestStart pid => Sys2Proof.Machine.execSelfTestStart pid s
  | .matrixDrainSegment tile slot => Sys2Proof.Machine.execMatrixDrainSegment tile slot s
  | .streamCredit k => Sys2Proof.Machine.execStreamCredit k s

end Sys2Proof.Machine
end

