-- ==== Sys2Proof/Machine/Step.lean ====
section
/-!
DEFINITION. One step of the module: the agent that moves next moves once.
-/
namespace Sys2Proof.Machine

/-- The focused context's turn: what is due at its commit point, or the instruction at its PC. -/
def State.turn (s : State) : Host.Outcome State Fault Refusal :=
  match (s.core.ctx s.ctx).act with
  | none => .next (s.tick 1)
  | some key =>
    if !s.m.mayIssue s.cid || s.act.win.isNone then .next (s.tick 1)
    else
      match if s.open_.isNone then s.m.preflight s.cid key else none with
      | some m => .next { s with m := m }
      | none =>
        match s.fetched with
        | .instr i m => exec i { s with m := m }
        | .stop e => run (fun _ => .error e) s

/-- The next move: while a group is open, and when nothing else is to move, the focused context; otherwise the first entry
of the agenda. A context's move goes by the rotation of its core. An agenda entry that names an encoded instruction is dropped: contexts fetch theirs. -/
def step (s : State) : Host.Outcome State Fault Refusal :=
  if s.open_.isSome then s.turn
  else
    let s := { s with m := s.m.semSettle }
    match s.agenda with
    | [] => State.turn (s.rotated State.turn)
    | .event i :: rest => if (encode i).isNone then exec i { s with agenda := rest } else .next { s with agenda := rest }
    | .run c k :: rest => State.turn ({ s with cid := c, ctx := k, agenda := rest }.rotated State.turn)
    | .elapse n :: rest => .next (State.tick { s with agenda := rest } n)
    | .upset x hard :: rest => .next { s with m := s.m.strike x hard, agenda := rest }
    | .hostStore pa bs :: rest => .next { s with m := s.m.hostStore pa bs, agenda := rest }
    | .ownerKey h :: rest => .next { s with m := s.m.installKey h, agenda := rest }
    | .bankFails c k b :: rest => .next { s with m := (s.creationLost c k b).getD s.m, agenda := rest }

/-- s with the instruction of a table row placed where the next step fetches it: core 0, context 0 of a one-site partition
executes, in supervisor mode, from a line that holds it alone. DESIGN CHOICE (log 7). -/
def State.withFetchWord (s : State) (nbits w : Nat) : State :=
  { s with m := s.m.withCode (oneLine (tableCode nbits w)), cid := 0, ctx := 0, open_ := none, agenda := [] }

end Sys2Proof.Machine
end

