-- ==== Sys2Proof/Safety.lean ====
section
/-!
DEFINITION. What a run is called safe for, and the terms that claims are stated in: a state in canonical form, an open group
within its bounds, and a context that is about to run an instruction.
-/
namespace Sys2Proof.Machine

/-- The outcome is a next state. -/
def goesOn (o : Host.Outcome State Fault Refusal) : Bool :=
  match o with
  | .next _ => true
  | _ => false

/-- The memory of a state, and of an open group's commit point, is in canonical form (R195). -/
def State.MemOk (s : State) : Prop :=
  Mem.wf s.m.mem = true ∧ ∀ g, s.open_ = some g → Mem.wf g.base.mem = true

/-- A group stays open only while an entry of one of its queues waits for a consumer (R77). -/
def State.GroupOk (s : State) : Prop := ∀ g, s.open_ = some g → g.ld ≠ [] ∨ g.sd ≠ []

/-- The group that the next instruction of the focused context joins: the open one, its commit point brought to this cycle,
or a new one. -/
def State.groupNow (s : State) : Group0 :=
  match s.open_ with
  | some g => { g with base := g.base.caughtUp (s.m.issue s.cid s.ctx) s.cid }
  | none => ⟨s.m.issue s.cid s.ctx, [], [], 0, 0, none⟩

/-- The focused context is about to run an instruction: it holds an activation with a window, its group has room for one more
instruction (R78), nothing of the activation is in the vector unit, and no late fault waits for it. -/
structure State.Running (s : State) : Prop where
  ctx : (s.core.ctx s.ctx).act = some s.key
  win : s.act.win = some s.win
  room : s.groupNow.n < 64
  vq : (s.core.vq.any fun o => o.key == s.key) = false
  late : (s.groupNow.base.act s.cid s.key).late = []

/-- The state in which an instruction of a running context acts: its cycle is taken, it has joined its group, and the PC
stands at the next instruction. -/
def State.begun (s : State) : State :=
  State.setPc { s with m := s.m.issue s.cid s.ctx, open_ := some s.groupNow } (seqNext (s.hc s.win.ctl.pc) s.win.ctl.pc)

/-- The state after an instruction that has reached state t: its commit, with a STEP where SS asks for one. -/
def State.retire (s t : State) : State := t.commit s.key s.win.ctl.pc (swSs s.sw) (.step 0 0)

/-- The state after an instruction that has reached state t and left its context there: suspended, ended, moved or returned. -/
def State.leave (s t : State) : State := t.commit s.key s.win.ctl.pc (swSs s.sw) .gone

/-- The state after fault f of the instruction at the PC: everything else as at the commit point (R80). -/
def State.faulted (s : State) (f : FInfo) : State :=
  { s with m := s.groupNow.base.faultAt s.cid s.key f s.win.ctl.pc, open_ := none }

end Sys2Proof.Machine
end

