-- ==== Sys2Proof/Certificates/Slice0/Obligations.lean ====
section
/-!
DEFINITION. The statements for the provers. Terms that several statements share stand in namespace `Sys2Proof.Claims`: tables
that give, row by row of the opcode table, what the spec's reference entry of an instruction reads, writes and computes.
-/

namespace Sys2Proof.Claims
open Sys2Proof Sys2Proof.Machine

/-! ## Terms -/

/-- What a row of the integer and floating-point reference entries names: its sources in the order of R395, its destination,
and the value written. -/
structure Row where
  srcs : List Src
  dst : Put × Opnd
  val : List Word → Word

/-- Register form, short and long immediate forms, and immediate shifts (R397, R464). -/
def reg3 (f : Alu3) (g : Word → Word → Word) : Row :=
  ⟨[⟨f.b, f.kb, useOf f.half⟩, ⟨f.c, f.kc, useOf f.half⟩], (putOf f.half, f.a), fun l => g (arg l 0) (arg l 1)⟩
def imm16 (f : AluI16) (g : Word → Word → Word) : Row :=
  ⟨[⟨f.b, f.kb, useOf f.half⟩], (putOf f.half, f.a), fun l => g (arg l 0) (f.imm.signExtend 64)⟩
def imm48 (f : AluI48) (g : Word → Word → Word) : Row :=
  ⟨[⟨f.b, f.kb, useOf f.half⟩], (putOf f.half, f.a), fun l => g (arg l 0) (f.imm.signExtend 64)⟩
def count6 (f : ShiftI) (g : Word → Nat → Word) : Row :=
  ⟨[⟨f.b, f.kb, useOf f.half⟩], (putOf f.half, f.a), fun l => g (arg l 0) f.n.toNat⟩
def one (f : Un) (g : Word → Word) : Row := ⟨[⟨f.b, f.kb, .exec⟩], (.exec, f.a), fun l => g (arg l 0)⟩

/-- The results of R397, R414, R444 and R448, on exact integers. -/
def sum (b c : Word) : Word := trunc64 (b.toInt + c.toInt)
def difference (b c : Word) : Word := trunc64 (b.toInt - c.toInt)
def product (b c : Word) : Word := trunc64 (b.toInt * c.toInt)
def productHigh (b c : Word) : Word := trunc64 ((b.toInt * c.toInt) / (2 ^ 64 : Int))
def productHighU (b c : Word) : Word := trunc64 (((b.toNat * c.toNat : Nat) : Int) / (2 ^ 64 : Int))
/-- Quotient and remainder of integers rounded toward zero; a zero divisor gives 2^64 − 1 and the dividend (R414). -/
def quotOf (b c : Int) : Int := if c = 0 then 2 ^ 64 - 1 else b.tdiv c
def remOf (b c : Int) : Int := if c = 0 then b else b - b.tdiv c * c
def quotient (b c : Word) : Word := trunc64 (quotOf b.toInt c.toInt)
def quotientU (b c : Word) : Word := trunc64 (quotOf b.toNat c.toNat)
def remainder (b c : Word) : Word := trunc64 (remOf b.toInt c.toInt)
def remainderU (b c : Word) : Word := trunc64 (remOf b.toNat c.toNat)
def least (b c : Word) : Word := trunc64 (min b.toInt c.toInt)
def greatest (b c : Word) : Word := trunc64 (max b.toInt c.toInt)
def leastU (b c : Word) : Word := trunc64 (min (b.toNat : Int) c.toNat)
def greatestU (b c : Word) : Word := trunc64 (max (b.toNat : Int) c.toNat)

/-- Majors 0x01, 0x02, 0x04 and 0x06: ADD, SUB, MUL, MULH, DIV, REM, MIN and MAX with their forms. -/
def arithRow : Instr → Option Row
  | .addReg f => some (reg3 f sum)
  | .addShortImm f => some (imm16 f sum)
  | .addLongImm f => some (imm48 f sum)
  | .subReg f => some (reg3 f difference)
  | .subShortImm f => some (imm16 f difference)
  | .subLongImm f => some (imm48 f difference)
  | .mulReg f => some (reg3 f product)
  | .mulShortImm f => some (imm16 f product)
  | .mulLongImm f => some (imm48 f product)
  | .mulhReg f => some (reg3 f productHigh)
  | .mulhShortImm f => some (imm16 f productHigh)
  | .mulhLongImm f => some (imm48 f productHigh)
  | .mulhUReg f => some (reg3 f productHighU)
  | .mulhUShortImm f => some (imm16 f productHighU)
  | .mulhULongImm f => some (imm48 f productHighU)
  | .divReg f => some (reg3 f quotient)
  | .divShortImm f => some (imm16 f quotient)
  | .divLongImm f => some (imm48 f quotient)
  | .divUReg f => some (reg3 f quotientU)
  | .divUShortImm f => some (imm16 f quotientU)
  | .divULongImm f => some (imm48 f quotientU)
  | .remReg f => some (reg3 f remainder)
  | .remShortImm f => some (imm16 f remainder)
  | .remLongImm f => some (imm48 f remainder)
  | .remUReg f => some (reg3 f remainderU)
  | .remUShortImm f => some (imm16 f remainderU)
  | .remULongImm f => some (imm48 f remainderU)
  | .minReg f => some (reg3 f least)
  | .minShortImm f => some (imm16 f least)
  | .minLongImm f => some (imm48 f least)
  | .maxReg f => some (reg3 f greatest)
  | .maxShortImm f => some (imm16 f greatest)
  | .maxLongImm f => some (imm48 f greatest)
  | .minUReg f => some (reg3 f leastU)
  | .minUShortImm f => some (imm16 f leastU)
  | .minULongImm f => some (imm48 f leastU)
  | .maxUReg f => some (reg3 f greatestU)
  | .maxUShortImm f => some (imm16 f greatestU)
  | .maxULongImm f => some (imm48 f greatestU)
  | _ => none

/-- The shifts of R464 by n below 64. -/
def shiftLeft (b : Word) (n : Nat) : Word := trunc64 ((b.toNat : Int) * (2 ^ n : Nat))
def shiftRight (b : Word) (n : Nat) : Word := trunc64 ((b.toNat / 2 ^ n : Nat) : Int)
def shiftSigned (b : Word) (n : Nat) : Word := trunc64 (b.toInt / ((2 ^ n : Nat) : Int))
def rotateLeft (b : Word) (n : Nat) : Word := trunc64 ((b.toNat * 2 ^ n + b.toNat / 2 ^ (64 - n) : Nat) : Int)
/-- A count taken from a register (R137). -/
def mod64 (f : Word → Nat → Word) (b c : Word) : Word := f b (c.toNat % 64)

/-- Majors 0x03 and 0x05: AND, ANDN, OR, XOR, SHL, SHR, SAR and ROT with their forms. -/
def logicRow : Instr → Option Row
  | .andReg f => some (reg3 f (· &&& ·))
  | .andShortImm f => some (imm16 f (· &&& ·))
  | .andLongImm f => some (imm48 f (· &&& ·))
  | .andnReg f => some (reg3 f fun b c => b &&& ~~~c)
  | .andnShortImm f => some (imm16 f fun b c => b &&& ~~~c)
  | .andnLongImm f => some (imm48 f fun b c => b &&& ~~~c)
  | .orReg f => some (reg3 f (· ||| ·))
  | .orShortImm f => some (imm16 f (· ||| ·))
  | .orLongImm f => some (imm48 f (· ||| ·))
  | .xorReg f => some (reg3 f (· ^^^ ·))
  | .xorShortImm f => some (imm16 f (· ^^^ ·))
  | .xorLongImm f => some (imm48 f (· ^^^ ·))
  | .shlReg f => some (reg3 f (mod64 shiftLeft))
  | .shlImm f => some (count6 f shiftLeft)
  | .shrReg f => some (reg3 f (mod64 shiftRight))
  | .shrImm f => some (count6 f shiftRight)
  | .sarReg f => some (reg3 f (mod64 shiftSigned))
  | .sarImm f => some (count6 f shiftSigned)
  | .rotReg f => some (reg3 f (mod64 rotateLeft))
  | .rotImm f => some (count6 f rotateLeft)
  | _ => none

/-- The conditions of R403. -/
def condOf (c : Cond) (x y : Word) : Bool :=
  match c with
  | .eq => decide (x.toNat = y.toNat)
  | .ne => decide (x.toNat ≠ y.toNat)
  | .lt => decide (x.toInt < y.toInt)
  | .ge => decide (y.toInt ≤ x.toInt)
  | .ltu => decide (x.toNat < y.toNat)
  | .geu => decide (y.toNat ≤ x.toNat)
def flagOf (b : Bool) : Word := if b then 1#64 else 0#64

/-- Bit n of a word as a number. -/
def bitAt (b : Word) (n : Nat) : Nat := b.toNat / 2 ^ n % 2
/-- The bit counts of R405: the numbers n from 0 to 63 for which every bit from n up, or every bit up to n, is 0; the ones. -/
def zerosAbove (b : Word) : Word := BitVec.ofNat 64 ((upFrom 0 64).filter fun n => b.toNat / 2 ^ n = 0).length
def zerosBelow (b : Word) : Word := BitVec.ofNat 64 ((upFrom 0 64).filter fun n => b.toNat % 2 ^ (n + 1) = 0).length
def onesIn (b : Word) : Word := BitVec.ofNat 64 ((upFrom 0 64).map (bitAt b)).sum
/-- Byte k of the result is byte 7 − k of b (R405). -/
def bytesSwapped (b : Word) : Word := BitVec.ofNat 64 ((upFrom 0 8).map fun k => b.toNat / 256 ^ (7 - k) % 256 * 256 ^ k).sum

/-- Major 0x07. -/
def countRow : Instr → Option Row
  | .clz f => some (one f zerosAbove)
  | .ctz f => some (one f zerosBelow)
  | .popc f => some (one f onesIn)
  | .bswp f => some (one f bytesSwapped)
  | _ => none

/-- The fields of R422: extraction of w bits at pos, with zeros or copies of its top bit above, and insertion. -/
def field (b : Word) (pos w : Nat) : Nat := b.toNat / 2 ^ pos % 2 ^ w
def fieldSigned (b : Word) (pos w : Nat) : Int :=
  if field b pos w < 2 ^ (w - 1) then field b pos w else (field b pos w : Int) - (2 ^ w : Nat)
def inserted (b c : Word) (pos w : Nat) : Int :=
  (b.toNat : Int) - (field b pos w * 2 ^ pos : Nat) + (c.toNat % 2 ^ w * 2 ^ pos : Nat)

/-- Majors 0x08, 0x09, 0x0A and 0x0E: SET, CSEL, EXTR, INSR and LDI with their forms. -/
def moveRow : Instr → Option Row
  | .setReg f => some ⟨[⟨f.b, f.kb, .exec⟩, ⟨f.c, f.kc, .exec⟩], (.exec, f.a), fun l => flagOf (condOf f.cond (arg l 0) (arg l 1))⟩
  | .setShortImm f => some ⟨[⟨f.b, f.kb, .exec⟩], (.exec, f.a), fun l => flagOf (condOf f.cond (arg l 0) (f.imm.signExtend 64))⟩
  | .setLongImm f => some ⟨[⟨f.b, f.kb, .exec⟩], (.exec, f.a), fun l => flagOf (condOf f.cond (arg l 0) (f.imm.signExtend 64))⟩
  | .csel f => some ⟨[⟨f.b, f.kb, .exec⟩, ⟨f.c, f.kc, .exec⟩, ⟨f.d, f.kd, .exec⟩], (.exec, f.a), fun l =>
      if (f.onZero = false ∧ arg l 2 ≠ 0#64) ∨ (f.onZero = true ∧ arg l 2 = 0#64) then arg l 0 else arg l 1⟩
  | .extr f => some ⟨[⟨f.b, f.kb, .exec⟩], (.exec, f.a), fun l => trunc64 (field (arg l 0) f.pos.toNat (f.wid.toNat + 1))⟩
  | .extrS f => some ⟨[⟨f.b, f.kb, .exec⟩], (.exec, f.a), fun l => trunc64 (fieldSigned (arg l 0) f.pos.toNat (f.wid.toNat + 1))⟩
  | .insr f => some ⟨[⟨f.b, f.kb, .exec⟩, ⟨f.c, f.kc, .exec⟩], (.exec, f.a), fun l =>
      trunc64 (inserted (arg l 0) (arg l 1) f.pos.toNat (f.wid.toNat + 1))⟩
  | .ldiShort f => some ⟨[], (putOf f.half, f.a), fun _ => f.imm.signExtend 64⟩
  | .ldiLong f => some ⟨[], (putOf f.half, f.a), fun _ => f.imm.signExtend 64⟩
  | .ldiUShort f => some ⟨[], (putOf f.half, f.a), fun _ => f.imm.zeroExtend 64⟩
  | .ldiULong f => some ⟨[], (putOf f.half, f.a), fun _ => f.imm.zeroExtend 64⟩
  | _ => none

/-- Row r completes for instruction i: whatever operands it has (registers, `z`, queue entries, ring ports, streams; R69), if
they answer values l in state s₁ and the destination takes the result in state s₂, the instruction commits with s₂. -/
def Completes (i : Instr) (r : Row) : Prop :=
  ∀ (s s1 s2 : State) (l : List Word), s.Running → operands r.srcs (some r.dst) s.begun = .ok (l, s1) →
    writeDst r.dst.2 (r.val l) s1 = .ok ((), s2) → exec i s = .next (s.retire s2)

end Sys2Proof.Claims

section
open Sys2Proof Sys2Proof.Machine Sys2Proof.Claims

/-! ## Decoding, steps and reset -/

namespace Sys2Proof.Claims

/-- Heads and tails that the spec writes out, with the instruction that each stands for. -/
def wordExamples : List (BitVec 16 × BitVec 64 × Instr) :=
  [(0x121D#16, 0x00081E91#64, .subShortImm ⟨7#6, 7#6, false, true, 8#16⟩),
   (0x2610#16, 0x00030428#64, .csel ⟨4#6, 1#6, 2#6, 3#6, true, false, false, false⟩),
   (0x2A0C#16, 0x03C81290#64, .extr ⟨3#6, 4#6, false, 8#6, 15#6⟩),
   (0x190C#16, 0x1051#64, .maxReg ⟨3#6, 4#6, 5#6, false, false, false⟩),
   (0x160C#16, 0x00081293#64, .rotImm ⟨3#6, 4#6, false, false, 8#6⟩),
   (0x210D#16, 0x1052#64, .setReg ⟨3#6, 4#6, 5#6, false, false, .ltu⟩),
   (0x3A24#16, 0xFFFFA691#64, .ldiUShort ⟨9#6, false, 65535#16⟩),
   (0x827D#16, 0x0021A690#64, .callShort ⟨31#6, 1#5, 1#11⟩),
   (0x90A4#16, 0x0#64, .endAct),
   (0x89A4#16, 0x7E9A#64, .ret ⟨31#6, true⟩),
   (0xF212#16, 0x0013A691#64, .csrw ⟨4#6, true, 19#12⟩),
   (0xDA10#16, 0x47091460#64, .fma ⟨4#6, 5#6, 6#6, 7#6, false, false, true, 9#4, 0#3⟩),
   (0xDE0C#16, 0x0C891291#64, .fcvt ⟨3#6, 4#6, false, 9#4, 0#3, true, 12#4⟩),
   (0x59A4#16, 0x0830#64, .icinv ⟨2#6, 3#6, false, false⟩),
   (0x7911#16, 0x0E98#64, .jwait ⟨4#6, 3#6, true, true⟩),
   (0x4181#16, 0x0835#64, .ldIndex ⟨32#6, 2#6, 3#6, false, true, 1#2, true⟩),
   (0x491C#16, 0x0867#64, .stc ⟨7#6, 2#6, 6#6, false, true, true⟩),
   (0xCF09#16, 0x0024429000000000#64, .dtld ⟨2#6, ⟨0#8, 0#12, 0#8, 0#8⟩, 8#6, false, 9#6, false, 0#2⟩),
   (0xB708#16, 0x00A458A010700403#64, .mxmma ⟨2#6, ⟨3#8, 4#12, 7#8, 1#8⟩, 10#6, false, 11#6, false⟩),
   (0x660E#16, 0xA4B52293#64, .red ⟨3#6, true, 8#6, false, true, 5#4, true, 5#4⟩),
   (0xA6A4#16, 0x02401060#64, .mcast ⟨4#6, 6#6, false, false, 64#9, true⟩),
   (0x8EA4#16, 0x00010E91#64, .skip ⟨3#6, 41#6, false, false, .ne, 1#2⟩),
   (0x9608#16, 0x00001C50#64, .spawn ⟨2#6, 7#6, 5#6, false, false, 0#3⟩),
   (0xF6A4#16, 0x0010A691#64, .svc ⟨16#16⟩),
   (0xE704#16, 0x0299000000801290#64, .vld ⟨1#6, false, 4#6, false, 41#6, false, 128#32, 9#4, 41#6, false⟩),
   (0x9DA4#16, 0x0A90#64, .migr ⟨2#6, false⟩),
   (0x76A4#16, 0x0007A455#64, .sems ⟨5#6, true, 7#8⟩),
   (0xAA10#16, 0x00010E92#64, .sbind ⟨4#6, 3#6, 41#6, false, false, 1#2⟩)]

/-- Head bits OP, TL, A, KA and X (R107), and T2 tail bits B, C, KB, KC and F (R108). -/
def headBits (op tl a ka x : Nat) : BitVec 16 := BitVec.ofNat 16 (2 ^ 10 * op + 2 ^ 8 * tl + 4 * a + 2 * ka + x)
def tailBits (imm b c kb kc f : Nat) : BitVec 64 := BitVec.ofNat 64 (2 ^ 16 * imm + 2 ^ 10 * b + 16 * c + 8 * kb + 4 * kc + f)

/-- A context that is to issue: its site works, it holds an activation with a window, and nothing is due before the
instruction at its PC. -/
structure Ready (s : State) (key : Nat) : Prop where
  act : (s.core.ctx s.ctx).act = some key
  win : s.act.win = some s.win
  issues : s.m.mayIssue s.cid = true
  nothing : s.open_ = none → s.m.preflight s.cid key = none

/-- The line of a context filled with the 64 bytes that stand at `base` in the own LM, and what has struck them found (R90, R190). -/
def filled (s : State) (base : Nat) : Module :=
  let m := (s.m.setPhy (s.m.pid s.cid) (s.m.phy (s.m.pid s.cid))).inspect (s.m.lmAt s.cid base) 64
  m.onCore s.cid fun c => c.onCtx s.ctx fun x =>
    { x with line := some ⟨base, s.m.lmRead s.cid base 64, x.act.elim 0 fun key => (m.ctlOf s.cid key).aid⟩ }

/-- Outside an open group, the waits on semaphores that earlier cycles have changed are evaluated before a step moves (R235). -/
def settled (s : State) : State := { s with m := s.m.semSettle }
/-- The state of the context that moves: that of the open group, or the one to which the rotation of its core passes (R68). -/
def moving (s : State) : State := if s.open_.isSome then s else (settled s).rotated State.turn
/-- How many turns of the rotation 0, 1, 2, 3, 0 context k stands behind the one that dispatched last (R68). -/
def turnsBehind (s : State) (k : Nat) : Nat := (k + 3 - s.core.turn % 4) % 4

end Sys2Proof.Claims

/-- R97–R100, R107, R108, R125–R132: words that the spec's examples write out decode to the instructions they stand for. -/
def Obligations.DecodeWordExamples : Prop := ∀ e ∈ wordExamples, decode ⟨e.1, e.2.1⟩ = some e.2.2

/-- R97–R100, R107, R108, R125–R132: encoding a well-formed instruction and decoding the result gives it back, with every operand at
every value that the encoding admits. -/
def Obligations.DecodeAfterEncode : Prop := ∀ (i : Instr) (c : Code), i.wf = true → encode i = some c → decode c = some i

/-- R132: what decodes is well-formed and has exactly the bits of its encoding, so no two words decode to one instruction and a
word with a reserved value or a bit away from its fixed value is refused; an instruction fetched there raises ILLOP. -/
def Obligations.DecodeRefusesReserved : Prop :=
  (∀ (c : Code) (i : Instr), decode c = some i → i.wf = true ∧ encode i = some c) ∧
  (∀ (s : State) (c : Code) (m : Module), codeAt s.cid s.ctx s.win.ctl.pc s.super s.m = .ok (c, m) → decode c = none →
    s.fetched = .stop (.fault { cause := .illop }))

/-- A step of a context runs the instruction that its PC names: `exec` of the decoded instruction, on the state whose line buffer
holds the line. The line comes from the buffer, or from a FULL bank of the own LM that no guard closes (R97–R106, R189, R190). -/
def Obligations.StepRunsDecoded : Prop :=
  (∀ (s t : State) (key who : Nat) (b : List Byte) (i : Instr), t = moving s → Ready t key → s.open_.isSome = true ∨ s.agenda = [] →
    (t.core.ctx t.ctx).line = some ⟨t.win.ctl.pc.toNat / 64 * 64, b, who⟩ → addrBad b t.win.ctl.pc = none →
    decodeAt b (slotOfPc t.win.ctl.pc) = some i → step s = exec i t) ∧
  (∀ (s t : State) (key base : Nat) (i : Instr), t = moving s → Ready t key → s.open_.isSome = true ∨ s.agenda = [] →
    (t.core.ctx t.ctx).line = none → base = t.win.ctl.pc.toNat / 64 * 64 → base < 2 ^ 19 →
    t.super = true ∨ t.m.lmGuard t.cid t.cid base 64 .fetch = false →
    (t.m.phy (t.m.pid t.cid)).bank (base / 0x8000) = 0 → bit (t.m.phy (t.m.pid t.cid)).failed (base / 0x8000) = false →
    t.m.badNow (t.m.lmAt t.cid base) 64 = false →
    addrBad (t.m.lmRead t.cid base 64) t.win.ctl.pc = none →
    decodeAt (t.m.lmRead t.cid base 64) (slotOfPc t.win.ctl.pc) = some i → step s = exec i { t with m := filled t base })

/-- R105, R106, R132: at an address whose line is malformed, that names no slot of its line, or whose word is no instruction, a step
raises BADLINE, BADTGT or ILLOP there. -/
def Obligations.StepRaisesAtBadAddress : Prop :=
  ∀ (s t : State) (key who : Nat) (b : List Byte), t = moving s → Ready t key → t.Running → s.open_.isSome = true ∨ s.agenda = [] →
    (t.core.ctx t.ctx).line = some ⟨t.win.ctl.pc.toNat / 64 * 64, b, who⟩ →
    (lineOk b = false → step s = .next (t.faulted { cause := .badline, addr := t.win.ctl.pc })) ∧
    (lineOk b = true → bit t.win.ctl.pc 0 = true ∨ slotOfPc t.win.ctl.pc = 0 ∨ lineHc b < slotOfPc t.win.ctl.pc →
      step s = .next (t.faulted { cause := .badtgt, addr := t.win.ctl.pc })) ∧
    (addrBad b t.win.ctl.pc = none → decodeAt b (slotOfPc t.win.ctl.pc) = none →
      step s = .next (t.faulted { cause := .illop }))

/-- The order in which agents move is the model's choice (DESIGN CHOICE, log entry 1), and so are errors of coded words and of banks
that the agenda names (log 147), and which contexts wait on the scoreboard in a cycle (log 3): outside an open group the first entry of
the agenda moves; an event is run as `exec` runs it, a context takes the focus and the rotation of R68 passes the turn from the context
that dispatched last to the first one that dispatches, cycles pass, an error strikes, the host stores to its memory or installs the
owner key (log 1), or a bank fails under a creation. -/
def Obligations.StepFollowsAgenda : Prop :=
  (∀ (s t : State) (rest : List Move), s.open_ = none → t = settled s →
    (∀ i, s.agenda = .event i :: rest → encode i = none → step s = exec i { t with agenda := rest }) ∧
    (∀ c k, s.agenda = .run c k :: rest → step s = State.turn (State.rotated State.turn { t with cid := c, ctx := k, agenda := rest })) ∧
    (∀ n, s.agenda = .elapse n :: rest →
      step s = .next { t with agenda := rest, m := { t.m with time := t.m.time + n } }) ∧
    (∀ x hard, s.agenda = .upset x hard :: rest → step s = .next { t with agenda := rest, m := t.m.strike x hard }) ∧
    (∀ c k b, s.agenda = .bankFails c k b :: rest →
      step s = .next { t with agenda := rest, m := (({ t with agenda := rest } : State).creationLost c k b).getD t.m }) ∧
    (∀ pa bs, s.agenda = .hostStore pa bs :: rest → step s = .next { t with agenda := rest, m := t.m.hostStore pa bs }) ∧
    (∀ h, s.agenda = .ownerKey h :: rest → step s = .next { t with agenda := rest, m := t.m.installKey h }) ∧
    (s.agenda = [] → step s = State.turn (t.rotated State.turn)) ∧
    ((t.core.ctx t.ctx).act = none → State.turn t = .next { t with m := { t.m with time := t.m.time + 1 } })) ∧
  (∀ t : State, t.ctx < 4 → ∃ k, k < 4 ∧ t.rotated State.turn = { t with ctx := k } ∧
    (k = t.ctx ∨ t.dispatches State.turn k = true ∧ Config.scoreboard t.m.time t.cid k = false) ∧
    ∀ j, j < 4 → turnsBehind t j < turnsBehind t k →
      t.dispatches State.turn j = false ∨ Config.scoreboard t.m.time t.cid j = true)

/-- R85, R93, R249, R286: what reset leaves: the special registers of every core, every LM bank FULL with every byte 0, every block
of group memory in ZERO mode, every decode table 0 with GEN 0, and every latch empty. -/
def Obligations.ResetState : Prop :=
  (∀ (cid k : Nat) (sw : Word),
    (∀ n ∈ [0x000, 0x001, 0x005, 0x010, 0x011, 0x012, 0x014, 0x015, 0x017, 0x018, 0x020, 0x021, 0x022, 0x023, 0x024, 0x025, 0x026,
        0x027], State.reset.m.csrRead cid k sw n = 0#64) ∧
    State.reset.m.csrRead cid k sw 0x019 = 1#64 ∧ State.reset.m.csrRead cid k sw 0x013 = 0x400000#64 ∧
    State.reset.m.csrRead cid k sw 0x016 = 0x7C000#64) ∧
  (∀ pid b, (State.reset.m.phy pid).bank b = 0) ∧ (∀ a, Mem.get State.reset.m.mem a = 0#8) ∧
  (∀ g b, decodeBlock (Tab.get (0, []) (State.reset.m.group g).blocks b).1 (Tab.get (0, []) (State.reset.m.group g).blocks b).2
      ((State.reset.m.group g).table (recSlot (Tab.get (0, []) (State.reset.m.group g).blocks b).1)) = List.replicate 256 0#8) ∧
  (∀ g n k, (((State.reset.m.group g).table n).getD k 0 = 0) ∧ (State.reset.m.group g).gen n = 0) ∧
  (∀ t n, Tab.find (State.reset.m.tile t).latch n = none)

/-- The invariants of the model hold at reset: the memory is in canonical form and no group is open. -/
def Obligations.ResetKeepsForm : Prop := State.reset.MemOk ∧ State.reset.GroupOk

/-- R77: in every step, of any agent and of any instruction, a group that is left open has an entry that waits for its consumer. -/
def Obligations.StepKeepsGroups : Prop := ∀ s t : State, s.GroupOk → step s = .next t → t.GroupOk

/-! ## Operands -/

namespace Sys2Proof.Claims

/-- The value of a live register or of `z` (R69, R83). -/
def plainValue (w : Win) (o : Opnd) : Option Word :=
  if o.toNat < 32 then
    if w.live o.toNat = true ∧ w.bad.contains o.toNat = false then some (w.gr o.toNat) else none
  else if o = 41#6 then some 0#64
  else none

/-- A register or `z`. -/
def PlainCode (o : Opnd) : Prop := o.toNat < 32 ∨ o = 41#6

/-- Nothing but the focused activation, its core's instruction count and the dispatch cycle differs. -/
structure SameOutside (s t : State) : Prop where
  mem : ∀ a, Mem.get t.m.mem a = Mem.get s.m.mem a
  rest : t.m = { s.m with time := t.m.time, cores := t.m.cores }
  cores : ∀ c, c ≠ s.cid → t.m.core c = s.m.core c
  core : t.m.core s.cid =
    { s.m.core s.cid with acts := (t.m.core s.cid).acts, last := (t.m.core s.cid).last, turn := (t.m.core s.cid).turn
                          spec := { (s.m.core s.cid).spec with inst := (s.m.core s.cid).spec.inst + 1#64 } }
  acts : ∀ k, k ≠ s.key → t.m.act s.cid k = s.m.act s.cid k
  act : t.m.act s.cid s.key = { s.m.act s.cid s.key with win := some t.win }
  focus : t.cid = s.cid ∧ t.ctx = s.ctx ∧ t.agenda = s.agenda

/-- The words that stand in a link buffer: that of `nbl` (true) or `nbr` (R71). -/
def linkWords (left : Bool) (p : Ports) : List Word := if left then p.nbl else p.nbr
/-- The buffer with other words. -/
def popped (s : State) (left : Bool) (rest : List Word) : State :=
  { s with m := s.m.onCore s.cid fun c =>
      { c with ports := if left then { c.ports with nbl := rest } else { c.ports with nbr := rest } } }
/-- The words that stand in, or are on the way to, the buffer that takes what the core sends to the right (true) or left (R71). -/
def onward (s : State) (right : Bool) : Nat :=
  if right then (s.m.core (rightOf s.cid)).ports.nbl.length + (s.m.core (rightOf s.cid)).ports.flyL.length
  else (s.m.core (leftOf s.cid)).ports.nbr.length + (s.m.core (leftOf s.cid)).ports.flyR.length
/-- A word on its way to the right or left neighbour. -/
def linkSent (s : State) (right : Bool) (v : Word) : State :=
  { s with m := s.m.onCore (if right then rightOf s.cid else leftOf s.cid) fun x =>
      { x with ports := if right then { x.ports with flyL := x.ports.flyL ++ [v] }
                        else { x.ports with flyR := x.ports.flyR ++ [v] } } }

end Sys2Proof.Claims

/-- R69, R82, R395: live registers and `z` give their values; a K bit makes its register dead once every read is done, and
nothing but the window changes. -/
def Obligations.RegisterOperandsRead : Prop :=
  ∀ (s : State) (l : List Src) (dst : Option (Put × Opnd)) (vs : List Word),
    (∀ d, dst = some d → PlainCode d.2) → l.map (fun o => plainValue s.win o.code) = vs.map some →
    ∃ t, operands l dst s = .ok (vs, t) ∧ t = s.setWin t.win ∧ (∀ k, t.win.gr k = s.win.gr k) ∧ t.win.v = s.win.v ∧
      (∀ k, k < 32 → t.win.live k = (s.win.live k && !(l.any fun o => o.k && o.code.toNat == k))) ∧
      t.win.ctl.pc = s.win.ctl.pc ∧ t.win.ctl.sw = s.win.ctl.sw ∧ t.win.ctl.livev = s.win.ctl.livev

/-- R69, R71, R77: `qld` and `qsd` give their oldest entry, and a value written to `qsd` joins its queue. A read of `nbl` or `nbr`
gives the oldest word of its link buffer and waits while that is empty; with K the word goes on in the same direction, and the read
waits, popping nothing, while the onward buffer has no room. A write of `nbr` sends the word to the right neighbour and a write of
`nbl` to the left one, and waits while that buffer has no room. That a link buffer holds four words, those on the way counted, is
the model's reading (log entry 36). -/
def Obligations.QueueAndLinkOperands : Prop :=
  (∀ (s : State) (g : Group0) (u : Use) (n : Nat) (v : Word) (rest : List (Nat × Word)), s.open_ = some g →
      g.ld = (n, v) :: rest → readSrc ⟨32#6, false, u⟩ s = .ok (v, { s with open_ := some { g with ld := rest } })) ∧
  (∀ (s : State) (g : Group0) (u : Use) (n : Nat) (v : Word) (rest : List (Nat × Word)), s.open_ = some g →
      g.sd = (n, v) :: rest → readSrc ⟨33#6, false, u⟩ s = .ok (v, { s with open_ := some { g with sd := rest } })) ∧
  (∀ (s : State) (g : Group0) (v : Word), s.open_ = some g →
      writeDst 33#6 v s = .ok ((), { s with open_ := some { g with sd := g.sd ++ [(g.n, v)] } })) ∧
  (∀ (s : State) (left k : Bool) (u : Use), linkWords left s.core.ports = [] →
      readSrc ⟨if left then 34#6 else 35#6, k, u⟩ s = .error .stall) ∧
  (∀ (s : State) (left : Bool) (u : Use) (v : Word) (rest : List Word), linkWords left s.core.ports = v :: rest →
      readSrc ⟨if left then 34#6 else 35#6, false, u⟩ s = .ok (v, popped s left rest) ∧
      (onward (popped s left rest) left < 4 →
        readSrc ⟨if left then 34#6 else 35#6, true, u⟩ s = .ok (v, linkSent (popped s left rest) left v)) ∧
      (4 ≤ onward (popped s left rest) left → readSrc ⟨if left then 34#6 else 35#6, true, u⟩ s = .error .stall)) ∧
  (∀ (s : State) (right : Bool) (v : Word),
      (onward s right < 4 → writeDst (if right then 35#6 else 34#6) v s = .ok ((), linkSent s right v)) ∧
      (4 ≤ onward s right → writeDst (if right then 35#6 else 34#6) v s = .error .stall))

/-- R82: a register written becomes live with the value; `z` discards it. -/
def Obligations.DestinationWritten : Prop :=
  (∀ (s : State) (a : Opnd) (v : Word), a.toNat < 32 →
      ∃ t, writeDst a v s = .ok ((), t) ∧ t = s.setWin t.win ∧ t.win.gr a.toNat = v ∧ t.win.live a.toNat = true ∧
        (∀ k, k ≠ a.toNat → t.win.gr k = s.win.gr k) ∧ (∀ k, k < 32 → k ≠ a.toNat → t.win.live k = s.win.live k)) ∧
  (∀ (s : State) (v : Word), writeDst 41#6 v s = .ok ((), s))

/-! ## Integer instructions -/

/-- R135, R136, R139, R397, R414, R444, R448: majors 0x01, 0x02, 0x04 and 0x06 write the exact result modulo 2^64. -/
def Obligations.IntegerArithmeticResult : Prop := ∀ i r, arithRow i = some r → Completes i r

/-- R137, R399, R464: logic and shifts, a register's count being taken modulo 64. -/
def Obligations.LogicAndShiftResult : Prop := ∀ i r, logicRow i = some r → Completes i r

/-- R405, R409, R422, R440, R473: CLZ, CTZ, POPC and BSWP; CSEL, EXTR, INSR, LDI and SET. -/
def Obligations.CountSelectAndMoveResult : Prop :=
  (∀ i r, countRow i = some r → Completes i r) ∧
  (∀ i r, i.wf = true → moveRow i = some r → Completes i r)

namespace Sys2Proof.Claims
/-- The rows of the integer families together. -/
def intRow (i : Instr) : Option Row :=
  (arithRow i).or ((logicRow i).or ((countRow i).or (moveRow i)))
end Sys2Proof.Claims

/-- R82, R83, R103, R135: on live registers and `z`, at a commit point without SS, an integer instruction completes: the
destination register holds the result, the PC stands at the next instruction, and every other register, every vector register,
the status word, every special register but the count of instructions, every byte of memory and every other part of the
machine is unchanged. -/
def Obligations.IntegerRegisterForms : Prop :=
  ∀ (i : Instr) (r : Row) (s : State) (vs : List Word), i.wf = true → intRow i = some r → s.Running → s.open_ = none →
    swSs s.sw = false → r.srcs.map (fun o => plainValue s.win o.code) = vs.map some → PlainCode r.dst.2 →
    ∃ t, exec i s = .next t ∧ SameOutside s t ∧ t.open_ = none ∧
      t.win.ctl.pc = seqNext (s.hc s.win.ctl.pc) s.win.ctl.pc ∧ t.win.ctl.sw = s.win.ctl.sw ∧ t.win.v = s.win.v ∧
      t.win.ctl.livev = s.win.ctl.livev ∧
      (r.dst.2.toNat < 32 → t.win.gr r.dst.2.toNat = r.val vs ∧ t.win.live r.dst.2.toNat = true) ∧
      (∀ k, k < 32 → k ≠ r.dst.2.toNat → t.win.gr k = s.win.gr k ∧
        t.win.live k = (s.win.live k && !(r.srcs.any fun o => o.k && o.code.toNat == k)))

/-- R69, R76, R80, R81, R83: a code from 42 up in any role, source or destination, and in an address or access-half role any code but a
register or `z`, raises BADOPND before anything is read; where every operand is a register or `z` and some source is dead, the cause is
DEADREG; and an integer instruction whose operands fault has no effect but the fault: the machine is taken back to the commit point and
the fault is delivered. -/
def Obligations.OperandFaults : Prop :=
  (∀ (s : State) (l : List Src) (dst : Option (Put × Opnd)) (o : Src), o ∈ l →
     (42 ≤ o.code.toNat ∨ (o.use = .addr ∧ ¬ PlainCode o.code)) →
     operands l dst s = .error (.fault { cause := .badopnd })) ∧
  (∀ (s : State) (l : List Src) (u : Put) (a : Opnd), 42 ≤ a.toNat →
     operands l (some (u, a)) s = .error (.fault { cause := .badopnd })) ∧
  (∀ (s : State) (l : List Src) (dst : Option (Put × Opnd)) (o : Src), (∀ x ∈ l, PlainCode x.code) →
     (∀ d, dst = some d → PlainCode d.2) → o ∈ l → o.code.toNat < 32 → s.win.live o.code.toNat = false →
     operands l dst s = .error (.fault { cause := .deadreg })) ∧
  (∀ (i : Instr) (r : Row) (s : State) (f : FInfo), intRow i = some r → s.Running →
     operands r.srcs (some r.dst) s.begun = .error (.fault f) → exec i s = .next (s.faulted f))

/-! ## Scalar floating point -/

namespace Sys2Proof.Claims

/-- What a row of the floating-point entries that sets flags names: sources, destination, rounding field where it rounds, and
the result and flags under a rounding mode and an RSH value. -/
structure FpRow where
  srcs : List Src
  a : Opnd
  rm : Option Nat
  val : Nat → Nat → List Word → Nat × Nat
  /-- The result as the register holds it (R423). -/
  out : Nat → Word := fun v => BitVec.ofNat 64 v

/-- The low bits of operand i that hold a value of type ty (R423). -/
def low (ty : BitVec 4) (l : List Word) (i : Nat) : Nat := (arg l i).toNat % 2 ^ Num.widthOf ty.toNat

/-- FADD, FSUB, FMUL, FDIV, FSQRT, FMA, FCMP and FCVT (R424, R426, R427). -/
def fpRow : Instr → Option FpRow
  | .fadd f => some ⟨[⟨f.b, f.kb, .exec⟩, ⟨f.c, f.kc, .exec⟩], f.a, some f.rm.toNat, fun mode h l =>
      (Num.fmtOf f.ty.toNat).deliver mode h false
        (Num.addVal mode ((Num.fmtOf f.ty.toNat).val (low f.ty l 0)) ((Num.fmtOf f.ty.toNat).val (low f.ty l 1))), BitVec.ofNat 64⟩
  | .fsub f => some ⟨[⟨f.b, f.kb, .exec⟩, ⟨f.c, f.kc, .exec⟩], f.a, some f.rm.toNat, fun mode h l =>
      (Num.fmtOf f.ty.toNat).deliver mode h false
        (Num.addVal mode ((Num.fmtOf f.ty.toNat).val (low f.ty l 0)) ((Num.fmtOf f.ty.toNat).val (low f.ty l 1)).neg), BitVec.ofNat 64⟩
  | .fmul f => some ⟨[⟨f.b, f.kb, .exec⟩, ⟨f.c, f.kc, .exec⟩], f.a, some f.rm.toNat, fun mode h l =>
      (Num.fmtOf f.ty.toNat).deliver mode h false
        (Num.mulVal ((Num.fmtOf f.ty.toNat).val (low f.ty l 0)) ((Num.fmtOf f.ty.toNat).val (low f.ty l 1))), BitVec.ofNat 64⟩
  | .fdiv f => some ⟨[⟨f.b, f.kb, .exec⟩, ⟨f.c, f.kc, .exec⟩], f.a, some f.rm.toNat, fun mode h l =>
      (Num.fmtOf f.ty.toNat).deliver mode h false
        (Num.divVal ((Num.fmtOf f.ty.toNat).val (low f.ty l 0)) ((Num.fmtOf f.ty.toNat).val (low f.ty l 1))), BitVec.ofNat 64⟩
  | .fsqrt f => some ⟨[⟨f.b, f.kb, .exec⟩], f.a, some f.rm.toNat, fun mode h l =>
      (Num.fmtOf f.ty.toNat).deliver mode h false (Num.sqrtVal ((Num.fmtOf f.ty.toNat).val (low f.ty l 0))), BitVec.ofNat 64⟩
  | .fma f => some ⟨[⟨f.b, f.kb, .exec⟩, ⟨f.c, f.kc, .exec⟩, ⟨f.d, f.kd, .exec⟩], f.a, some f.rm.toNat, fun mode h l =>
      (Num.fmtOf f.ty.toNat).deliver mode h false
        (Num.fmaVal mode ((Num.fmtOf f.ty.toNat).val (low f.ty l 0)) ((Num.fmtOf f.ty.toNat).val (low f.ty l 1))
          ((Num.fmtOf f.ty.toNat).val (low f.ty l 2))), BitVec.ofNat 64⟩
  | .fcmp f => some ⟨[⟨f.b, f.kb, .exec⟩, ⟨f.c, f.kc, .exec⟩], f.a, none, fun _ _ l =>
      let (v, fl) := (Num.fmtOf f.ty.toNat).cmp f.cnd.toNat (low f.ty l 0) (low f.ty l 1)
      (v.toNat, fl), BitVec.ofNat 64⟩
  | .fcvt f => some ⟨[⟨f.b, f.kb, .exec⟩], f.a, some f.rm.toNat, fun mode h l =>
      Num.convert f.src.toNat f.dst.toNat mode h f.sat (low f.src l 0),
      fun v => if f.dst.toNat ≤ 3 then trunc64 (signedOf (Num.widthOf f.dst.toNat) v) else BitVec.ofNat 64 v⟩
  | _ => none

/-- FMIN, FMAX and FCLS, which round nothing and set no flag (R425). -/
def fpPickRow : Instr → Option Row
  | .fmin f => some ⟨[⟨f.b, f.kb, .exec⟩, ⟨f.c, f.kc, .exec⟩], (.exec, f.a), fun l =>
      BitVec.ofNat 64 ((Num.fmtOf f.ty.toNat).minMax false (low f.ty l 0) (low f.ty l 1))⟩
  | .fmax f => some ⟨[⟨f.b, f.kb, .exec⟩, ⟨f.c, f.kc, .exec⟩], (.exec, f.a), fun l =>
      BitVec.ofNat 64 ((Num.fmtOf f.ty.toNat).minMax true (low f.ty l 0) (low f.ty l 1))⟩
  | .fcls f => some ⟨[⟨f.b, f.kb, .exec⟩], (.exec, f.a), fun l => BitVec.ofNat 64 ((Num.fmtOf f.ty.toNat).cls (low f.ty l 0))⟩
  | _ => none

/-- The status word changed by g. -/
def withSw (s : State) (g : Word → Word) : State := s.setWin { s.win with ctl := { s.win.ctl with sw := g s.win.ctl.sw } }

/-- The rounding mode of a field: code 7 takes RM of the status word (R124). -/
def modeOf (rm : Nat) (sw : Word) : Nat := if rm = 7 then swRm sw else rm

/-- The mode, the RSH value and the state after an instruction has taken its mode: RSH takes RSHC and advances it (R94, R148). -/
def taken (s : State) : Option Nat → Nat × Nat × State
  | none => (0, 0, s)
  | some rm =>
    if modeOf rm s.sw = 4 then
      (4, Num.rshHash s.core.spec.seed.toNat 0 (swRshc s.sw).toNat, withSw s swTick)
    else (modeOf rm s.sw, 0, s)

end Sys2Proof.Claims

/-- R94, R423–R427: FADD, FSUB, FMUL, FDIV, FSQRT, FMA, FCMP and FCVT complete whatever operands they have: the result under the
rounding mode of the instruction goes to A, the flags are ORed into the status word, and a rounding under RSH takes and advances
RSHC. FMIN, FMAX and FCLS complete, write A, and leave the status word alone. -/
def Obligations.FloatResult : Prop :=
  (∀ (i : Instr) (r : FpRow) (s s1 s3 : State) (l : List Word), fpRow i = some r → s.Running →
     operands r.srcs (some (.exec, r.a)) s.begun = .ok (l, s1) →
     writeDst r.a (r.out (r.val (taken s1 r.rm).1 (taken s1 r.rm).2.1 l).1)
         (withSw (taken s1 r.rm).2.2 fun w => swOr w (r.val (taken s1 r.rm).1 (taken s1 r.rm).2.1 l).2) = .ok ((), s3) →
     exec i s = .next (s.retire s3)) ∧
  (∀ i r, fpPickRow i = some r → Completes i r)

namespace Sys2Proof.Claims
/-- The number (−1)^neg · m · 2^e. -/
def ratOf (neg : Bool) (m : Nat) (e : Int) : ℚ := (if neg then -1 else 1) * (m : ℚ) * (2 : ℚ) ^ e
/-- Order and equality of values other than NaN; both zeros are the number 0. -/
def ValLt : Num.Val → Num.Val → Prop
  | .fin s m e, .fin t n k => ratOf s m e < ratOf t n k
  | .fin _ _ _, .inf t => t = false
  | .inf s, .fin _ _ _ => s = true
  | .inf s, .inf t => s = true ∧ t = false
  | _, _ => False
def ValEq : Num.Val → Num.Val → Prop
  | .fin s m e, .fin t n k => ratOf s m e = ratOf t n k
  | .inf s, .inf t => s = t
  | _, _ => False
/-- The conditions of FCMP (R128, R426): eq, lt, le, un, ne. -/
def FcmpHolds (cnd : Nat) (x y : Num.Val) : Prop :=
  match cnd with
  | 0 => ValEq x y
  | 1 => ValLt x y
  | 2 => ValLt x y ∨ ValEq x y
  | 3 => x = .nan ∨ y = .nan
  | _ => ¬ ValEq x y
end Sys2Proof.Claims

/-- R426: FCMP writes 1 when its condition holds and 0 otherwise. −0 equals +0. With a NaN operand eq, lt and le give 0, un and ne
give 1, and lt and le set NV, bit 12 of the status word; the other conditions set no flag. -/
def Obligations.FcmpResult : Prop :=
  ∀ (f : FcmpF) (s s1 s3 : State) (l : List Word) (v : Word) (sw : Word), Instr.wf (.fcmp f) = true →
    s.Running → operands [⟨f.b, f.kb, .exec⟩, ⟨f.c, f.kc, .exec⟩] (some (.exec, f.a)) s.begun = .ok (l, s1) →
    let x := (Num.fmtOf f.ty.toNat).val (low f.ty l 0)
    let y := (Num.fmtOf f.ty.toNat).val (low f.ty l 1)
    (FcmpHolds f.cnd.toNat x y → v = 1#64) → (¬ FcmpHolds f.cnd.toNat x y → v = 0#64) →
    (x = .nan ∨ y = .nan → f.cnd = 1#3 ∨ f.cnd = 2#3 → sw = s1.win.ctl.sw ||| 0x1000#64) →
    (¬ ((x = .nan ∨ y = .nan) ∧ (f.cnd = 1#3 ∨ f.cnd = 2#3)) → sw = s1.win.ctl.sw) →
    writeDst f.a v (withSw s1 fun _ => sw) = .ok ((), s3) → exec (.fcmp f) s = .next (s.retire s3)

/-! ## Memory instructions -/

namespace Sys2Proof.Claims

/-- A write noted in the group of the instruction (R77). -/
def noted (s : State) : State :=
  match s.open_ with
  | some g => { s with open_ := some { g with wrote := g.n + 1 } }
  | none => s

/-- The value of 2^size loaded bytes (R438). -/
def loaded (size : BitVec 2) (sx : Bool) (bs : List Byte) : Word :=
  if sx then trunc64 (signedOf (8 * 2 ^ size.toNat) (leNat bs)) else BitVec.ofNat 64 (leNat bs)

/-- The focused context with a reservation, or none. -/
def reserving (s : State) (r : Option Resv) : State :=
  { s with m := s.m.onCore s.cid fun c => c.onCtx s.ctx fun x => { x with resv := r } }

/-- The lines of a list taken one after the other on behalf of activation `aid` in context `who`: with `drop` they go, a dirty one
after its write-back; otherwise a dirty one is written back and stays, clean. One whose home has no room is put off (R380), and with
`drop` one that another context holds reserved (R223). -/
def flushedLines (cid who aid : Nat) (drop : Bool) : List Nat → Module → Module
  | [], m => m
  | l :: ls, m =>
    let putOff (m : Module) : Module := m.onCore cid fun c => { c with flushes := c.flushes ++ [(aid, l, drop)] }
    match (m.core cid).held l with
    | none => flushedLines cid who aid drop ls m
    | some x =>
      if drop = true ∧ (m.core cid).defers m.time l (some who) = true then flushedLines cid who aid drop ls (putOff m)
      else if drop = false ∧ x.st ≠ 3 then flushedLines cid who aid drop ls m
      else
        match m.writeBack cid l (if drop then 0 else 2) with
        | .ok _ n => flushedLines cid who aid drop ls n
        | _ => flushedLines cid who aid drop ls (putOff (m.noRoom l))

/-- LM bytes of the own core that an access of the focused activation may touch: inside one 64-byte line, allowed by the guards,
in a bank that is FULL (R85, R168, R439). -/
structure LocalOk (s : State) (off n : Nat) (k : LmAcc) : Prop where
  fits : off < 2 ^ 19 ∧ 0 < n ∧ off % 64 + n ≤ 64
  guard : s.super = true ∨ s.m.lmGuard s.cid s.cid off n k = false
  full : (s.m.phy (s.m.pid s.cid)).bank (off / 0x8000) = 0
  works : bit (s.m.phy (s.m.pid s.cid)).failed (off / 0x8000) = false
  reach : s.m.reach (siteOf s.cid) (siteOf s.cid) = true

/-- Nobody watches or waits on a range of locations. -/
def Unwatched (m : Module) (loc n : Nat) : Prop :=
  m.watched loc n = [] ∧ (m.bwait.filter fun w => meet w.loc 32 loc n) = []

end Sys2Proof.Claims

/-- R438, R439: LD completes with the value that the access reads, extended as the form says. -/
def Obligations.LoadResult : Prop :=
  (∀ (f : LdX) (s s1 s2 : State) (l : List Word) (bs : List Byte) (m' : Module), s.Running →
    operands [⟨f.b, f.kb, .addr⟩, ⟨f.c, f.kc, .addr⟩] (some (.load, f.a)) s.begun = .ok (l, s1) →
    memLoad s1.cid s1.ctx (arg l 0 + arg l 1).toNat (2 ^ f.size.toNat) s1.super s1.m = .ok (bs, m') →
    writeDst f.a (loaded f.size f.sx bs) { s1 with m := m' } = .ok ((), s2) →
    exec (.ldIndex f) s = .next (s.retire s2)) ∧
  (∀ (f : LdD) (s s1 s2 : State) (l : List Word) (bs : List Byte) (m' : Module), s.Running →
    operands [⟨f.b, f.kb, .addr⟩] (some (.load, f.a)) s.begun = .ok (l, s1) →
    memLoad s1.cid s1.ctx (arg l 0 + f.disp.signExtend 64).toNat (2 ^ f.size.toNat) s1.super s1.m = .ok (bs, m') →
    writeDst f.a (loaded f.size f.sx bs) { s1 with m := m' } = .ok ((), s2) →
    exec (.ldDisp f) s = .next (s.retire s2))

/-- R479: ST completes with the low bytes of its data written at its address. -/
def Obligations.StoreResult : Prop :=
  (∀ (f : StX) (s s1 : State) (l : List Word) (m' : Module), s.Running →
    operands [⟨f.b, f.kb, .addr⟩, ⟨f.c, f.kc, .addr⟩, ⟨f.a, f.ka, .data⟩] none s.begun = .ok (l, s1) →
    memStore s1.cid s1.ctx (arg l 0 + arg l 1).toNat (leBytes (2 ^ f.size.toNat) (arg l 2).toNat) s1.super s1.m = .ok ((), m') →
    exec (.stIndex f) s = .next (s.retire (noted { s1 with m := m' }))) ∧
  (∀ (f : StD) (s s1 : State) (l : List Word) (m' : Module), s.Running →
    operands [⟨f.b, f.kb, .addr⟩, ⟨f.a, f.ka, .data⟩] none s.begun = .ok (l, s1) →
    memStore s1.cid s1.ctx (arg l 0 + f.disp.signExtend 64).toNat (leBytes (2 ^ f.size.toNat) (arg l 1).toNat) s1.super s1.m
      = .ok ((), m') →
    exec (.stDisp f) s = .next (s.retire (noted { s1 with m := m' })))

/-- R2, R85, R90, R163: a load from a FULL bank of the own LM gives the bytes that stand there and writes no byte of memory; one
that meets an uncorrectable word raises UNCORR. -/
def Obligations.LocalLoadBytes : Prop :=
  ∀ (s : State) (off n : Nat), LocalOk s off n .read →
    (s.m.badNow (s.m.lmAt s.cid off) n = false →
      ∃ m', memLoad s.cid s.ctx off n s.super s.m = .ok (s.m.lmRead s.cid off n, m') ∧ m'.mem = s.m.mem ∧ m'.cores = s.m.cores) ∧
    (s.m.badNow (s.m.lmAt s.cid off) n = true →
      memLoad s.cid s.ctx off n s.super s.m = .error (.fault
        { cause := .uncorr, addr := BitVec.ofNat 64 off, side := [.found (s.m.lmAt s.cid off) n] }))

/-- R2, R85, R480: a store to a FULL bank of the own LM that nobody watches changes no byte outside the stored bytes; where all of
them may be written, they read as the data, least significant byte first. -/
def Obligations.LocalStoreBytes : Prop :=
  ∀ (s : State) (off : Nat) (bs : List Byte), LocalOk s off bs.length .write → Unwatched s.m (s.m.lmAt s.cid off) bs.length →
    ∃ m', memStore s.cid s.ctx off bs s.super s.m = .ok ((), m') ∧
      (∀ a, a < s.m.lmAt s.cid off ∨ s.m.lmAt s.cid off + bs.length ≤ a → Mem.get m'.mem a = Mem.get s.m.mem a) ∧
      (Mem.wf s.m.mem = true → (∀ o, off ≤ o → o < off + bs.length → s.core.writable o = 0xFF) →
        meet off bs.length 0x7F800 8 = false → Mem.read m'.mem (s.m.lmAt s.cid off) bs.length = bs)

/-- R439, R480: an LD or ST that crosses a 64-byte line raises MISALIGN. -/
def Obligations.LineCrossingRaises : Prop :=
  ∀ (cid who va n : Nat) (bs : List Byte) (super : Bool) (m : Module),
    (64 < va % 64 + n → memLoad cid who va n super m = .error (.fault { cause := .misalign, addr := BitVec.ofNat 64 va })) ∧
    (64 < va % 64 + bs.length →
      memStore cid who va bs super m = .error (.fault { cause := .misalign, addr := BitVec.ofNat 64 va }))

/-- R222, R441: LDRS loads zero-extended and reserves the line; STC writes 0 where it stored and 1 where it did not, and ends the
reservation either way. On the own LM, STC without a reservation on the line writes no byte. -/
def Obligations.ReservationResult : Prop :=
  (∀ (f : LdrsX) (s s1 s2 : State) (l : List Word) (v : Nat) (r : Resv) (m' : Module), s.Running →
    operands [⟨f.b, f.kb, .addr⟩, ⟨f.c, f.kc, .addr⟩] (some (.reg, f.a)) s.begun = .ok (l, s1) →
    ldrsAt s1.cid s1.ctx (arg l 0 + arg l 1).toNat (if f.dw then 8 else 4) s1.super s1.m = .ok ((v, r), m') →
    writeDst f.a (BitVec.ofNat 64 v) (reserving { s1 with m := m' } (some r)) = .ok ((), s2) →
    exec (.ldrsIndex f) s = .next (s.retire s2)) ∧
  (∀ (f : LdrsD) (s s1 s2 : State) (l : List Word) (v : Nat) (r : Resv) (m' : Module), s.Running →
    operands [⟨f.b, f.kb, .addr⟩] (some (.reg, f.a)) s.begun = .ok (l, s1) →
    ldrsAt s1.cid s1.ctx (arg l 0 + f.disp.signExtend 64).toNat (if f.dw then 8 else 4) s1.super s1.m = .ok ((v, r), m') →
    writeDst f.a (BitVec.ofNat 64 v) (reserving { s1 with m := m' } (some r)) = .ok ((), s2) →
    exec (.ldrsDisp f) s = .next (s.retire s2)) ∧
  (∀ (f : StcF) (s s1 s2 : State) (l : List Word) (wrote : Bool) (m' : Module), s.Running →
    operands [⟨f.b, f.kb, .addr⟩, ⟨f.c, f.kc, .addr⟩] (some (.reg, f.a)) s.begun = .ok (l, s1) →
    stcAt s1.cid s1.ctx (arg l 0).toNat (leBytes (if f.dw then 8 else 4) (arg l 1).toNat) s1.super (s1.core.ctx s1.ctx).resv s1.m
      = .ok (wrote, m') →
    writeDst f.a (if wrote then 0#64 else 1#64) (noted (reserving { s1 with m := m' } none)) = .ok ((), s2) →
    exec (.stc f) s = .next (s.retire s2)) ∧
  (∀ (s : State) (off : Nat) (bs : List Byte) (r : Option Resv), LocalOk s off bs.length .write → off % bs.length = 0 →
     (∀ x, r = some x → x.line ≠ lineOf (s.m.lmAt s.cid off)) →
     ∃ m', stcAt s.cid s.ctx off bs s.super r s.m = .ok (false, m') ∧ m'.mem = s.m.mem)

/-- R31, R85, R169, R187, R415, R416, R428, R429, R456, R457: with no stash PREF only goes on, and SMAP raises PERM where a byte of its
range lies in GROUP or CFG and otherwise only goes on; with one they fill lines (the model's reading, log entries 47 and 48); SFLUSH and
SINV go on at once: that they write back or drop the lines they meet as they commit, and leave for later only those that they must put
off, is the model's choice (DESIGN CHOICE, log entry 49). ICINV drops lines of the instruction cache; FBAR empties the line buffer of the
context once the activation's SFLUSH and SINV are complete, and waits before; DROP.ret, DROP.off and WAKE act on each LM bank of the mask
in rising order (log entry 50). -/
def Obligations.LineAndBankInstructionsComplete : Prop :=
  (∀ (f : RangeOp) (s s1 : State) (l : List Word), s.Running →
    operands [⟨f.b, f.kb, .addr⟩, ⟨f.c, f.kc, .addr⟩] none s.begun = .ok (l, s1) →
    exec (.pref f) s = .next (s.retire (if s1.core.stashNb = 0 then s1 else
      { s1 with m := prefFrom s1.cid s1.ctx s1.super (lineCount (arg l 0).toNat (arg l 1).toNat) ((arg l 0).toNat / 64 * 64) 64 s1.m }))) ∧
  (∀ (f : RangeOp) (s s1 : State) (l : List Word), s.Running →
    operands [⟨f.b, f.kb, .addr⟩, ⟨f.c, f.kc, .addr⟩] none s.begun = .ok (l, s1) → s1.core.stashNb = 0 →
    (inGroup (arg l 0).toNat (arg l 1).toNat = false → inCfg (arg l 0).toNat (arg l 1).toNat = false →
      exec (.smap f) s = .next (s.retire s1)) ∧
    (inGroup (arg l 0).toNat (arg l 1).toNat = true ∨ inCfg (arg l 0).toNat (arg l 1).toNat = true →
      ∃ a, exec (.smap f) s = .next (s.faulted { cause := .perm, addr := a }))) ∧
  (∀ (f : RangeOp) (s s1 : State) (l : List Word) (m' : Module), s.Running →
    operands [⟨f.b, f.kb, .addr⟩, ⟨f.c, f.kc, .addr⟩] none s.begun = .ok (l, s1) → s1.core.stashNb ≠ 0 →
    smapFrom s1.cid s1.ctx s1.super (lineCount (arg l 0).toNat (arg l 1).toNat) ((arg l 0).toNat / 64 * 64) 0 s1.m = .ok ((), m') →
    exec (.smap f) s = .next (s.retire { s1 with m := m' })) ∧
  (∀ (f : RangeOp) (s s1 : State) (l : List Word), s.Running →
    operands [⟨f.b, f.kb, .addr⟩, ⟨f.c, f.kc, .addr⟩] none s.begun = .ok (l, s1) →
    inGroup (arg l 0).toNat (arg l 1).toNat = false → inCfg (arg l 0).toNat (arg l 1).toNat = false →
    let lines := s1.core.linesIn (arg l 0).toNat (arg l 1).toNat
    let m' := s1.m.onCore s1.cid fun c => { c with prefs := c.prefs.filter fun p => !overlaps (arg l 0).toNat (arg l 1).toNat p.1 }
    exec (.sflush f) s = .next (s.retire { s1 with m := flushedLines s1.cid s1.ctx s1.aid false lines s1.m }) ∧
    exec (.sinv f) s = .next (s.retire { s1 with m := flushedLines s1.cid s1.ctx s1.aid true lines m' })) ∧
  (∀ (f : RangeOp) (s s1 : State) (l : List Word), s.Running →
    operands [⟨f.b, f.kb, .addr⟩, ⟨f.c, f.kc, .addr⟩] none s.begun = .ok (l, s1) →
    let m' := s1.m.onCore s1.cid fun c =>
      { c with icache := if 2 ^ 15 ≤ (arg l 1).toNat then []
                         else c.icache.filter fun e => !overlaps (arg l 0).toNat (arg l 1).toNat e.1 }
    exec (.icinv f) s = .next (s.retire { s1 with m := m' })) ∧
  (∀ s : State, s.Running →
    let m' := s.begun.m.onCore s.cid fun c => c.onCtx s.ctx fun x => { x with line := none }
    (s.begun.m.unflushed s.cid s.aid = false → exec .fbar s = .next (s.retire { s.begun with m := m' })) ∧
    (s.begun.m.unflushed s.cid s.aid = true → exec .fbar s = .next (s.rollback s.groupNow.base))) ∧
  (∀ (f : BankMask) (s : State), s.Running →
     (∀ g i, (i, g) ∈ [(Instr.dropRet f, Module.dropRetBank), (.dropOff f, Module.dropOffBank), (.wake f, Module.wakeBank)] →
       let m' := ((upFrom 0 16).filter fun b => bit f.mask b).foldl (fun m b => g m s.cid b) s.begun.m
       exec i s = .next (s.retire { s.begun with m := m' })))

/-- R85, R415: a bank that is FULL and not protected is OFF after DROP.off, and its bytes are gone; one that is FULL goes to
RETAIN under DROP.ret and keeps its bytes; an OFF bank that is not protected wakes under WAKE, FULL 24 cycles later. -/
def Obligations.BankStates : Prop :=
  (∀ (f : BankMask) (s : State) (b : Nat), s.Running → bit f.mask b = true → b < 16 →
    (s.m.phy (s.m.pid s.cid)).bank b = 0 → s.m.bankHeld s.cid b = false →
    ∃ t, exec (.dropOff f) s = .next (s.retire t) ∧ (t.m.phy (s.m.pid s.cid)).bank b = 2) ∧
  (∀ (f : BankMask) (s : State) (b : Nat), s.Running → bit f.mask b = true → b < 16 →
    (s.m.phy (s.m.pid s.cid)).bank b = 0 → s.core.stashNb = 0 →
    ∃ t, exec (.dropRet f) s = .next (s.retire t) ∧ (t.m.phy (s.m.pid s.cid)).bank b = 1) ∧
  (∀ (f : BankMask) (s : State) (b : Nat), s.Running → bit f.mask b = true → b < 16 →
    (s.m.phy (s.m.pid s.cid)).bank b = 2 → s.m.bankHeld s.cid b = false →
    (b = 15 → ∀ k, k < 15 → bit f.mask k = false) →
    ∃ t, exec (.wake f) s = .next (s.retire t) ∧ (t.m.phy (s.m.pid s.cid)).bank b = 3 ∧
      Tab.get 0 (t.m.phy (s.m.pid s.cid)).wake b = s.begun.m.time + 24) ∧
  ∀ (m : Module) (cid b : Nat), b < 16 → (m.phy (m.pid cid)).bank b = 0 →
    (m.bankHeld cid b = false →
      ((m.dropOffBank cid b).phy (m.pid cid)).bank b = 2 ∧
      ∀ o, b * 0x8000 ≤ o → o < b * 0x8000 + 0x8000 → Mem.get (m.dropOffBank cid b).mem (m.lmAt cid o) = 0#8) ∧
    ((m.core cid).stashNb = 0 →
      ((m.dropRetBank cid b).phy (m.pid cid)).bank b = 1 ∧ (m.dropRetBank cid b).mem = m.mem)

/-! ## Synchronisation -/

namespace Sys2Proof.Claims

/-- A running context's instruction has read its operands: values l, state s₁. -/
def Reads (s : State) (srcs : List Src) (dst : Option (Put × Opnd)) (l : List Word) (s1 : State) : Prop :=
  s.Running ∧ operands srcs dst s.begun = .ok (l, s1)

/-- The next number of an ordered atomic taken, one more modulo 2^16 for its home or owner (R220). -/
def numbered (o : Bool) (va : Nat) (s : State) : State :=
  let home := match s.m.target s.cid va with
    | .dram h => h
    | .lm t _ => 1024 + t
    | _ => 0
  if o then { s with m := s.m.onAct s.cid s.key fun a => { a with onum := Tab.put a.onum home ((Tab.get 0 a.onum home + 1) % 65536) } }
  else s

/-- The values of AtomicRmw (R218) on w-bit words: add, and, or, xor, min, max, minu, maxu, swap and cas. -/
def updated (opc w old c d : Nat) : Nat :=
  match opc with
  | 0 => (old + c) % 2 ^ w
  | 1 => old &&& c
  | 2 => old ||| c
  | 3 => old ^^^ c
  | 4 => if signedOf w old ≤ signedOf w c then old else c
  | 5 => if signedOf w old < signedOf w c then c else old
  | 6 => if old ≤ c then old else c
  | 7 => if old ≤ c then c else old
  | 8 => c
  | _ => if old = d then c else old

/-- The focused activation suspended from state s by the instruction at pc (R44, R360). -/
def asleep (s : State) (pc : Word) (k : Nat) (a v : Word) (dst : Opnd) (w : WaitOn) : State :=
  let t := s.setWin { s.win with ctl := { s.win.ctl with waitk := BitVec.ofNat 4 k, waita := a, waitv := v } }
  let m := t.m.onAct s.cid s.key fun x =>
    { x with wait := w, dst := dst, grace := none, stepAt := if swSs s.sw then some pc else x.stepAt }
  { t with m := m.parkOrTrap s.cid s.key .suspended }

/-- An instruction that may suspend is allowed: outside upcall code and handlers, with no queue entry unconsumed (R47, R77, R350). -/
structure MaySleep (s : State) : Prop where
  upc : swUpc s.sw = false
  hnd : s.win.ctl.hnd = false
  queue : s.ldQ = [] ∧ s.sdQ = []

/-- The context's reservation ended. -/
def unreserved (s : State) : State := reserving s none

/-- Every earlier write of the activation has been accepted by its home, and its stash maintenance is complete (R204, R205, R458). -/
def Settled (s : State) : Prop := s.m.unwritten s.cid s.aid = false ∧ s.m.unflushed s.cid s.aid = false

/-- A barrier object with an arrival of c counted, saturating at its target; the phase that completes turns (R227). -/
def arrived (o : BarObj) (c : Nat) : BarObj :=
  let n := min (o.count + c) o.target
  if n = o.target ∧ o.pend = 0 then { o with phase := !o.phase, count := 0 } else { o with count := n }
/-- What such an arrival answers: the phase it met, and 1 in bit 8 where it completed it (R227). -/
def arrivalAnswer (o : BarObj) (c : Nat) : Nat :=
  o.phase.toNat + if min (o.count + c) o.target = o.target ∧ o.pend = 0 then 256 else 0

/-- An LM location that no field of the core's own structures covers, so that a store changes it whole (R4, R5). -/
def PlainLm (m : Module) (loc n : Nat) : Prop :=
  ∀ c off, m.lmOwner loc = some (c, off) → (∀ o, off ≤ o → o < off + n → (m.core c).writable o = 0xFF) ∧ meet off n 0x7F800 0x40 = false

/-- A combined arrival of a collective unit that a further one may still join (R231). -/
def Joinable (m : Module) (loc : Nat) (b : Combine) : Prop := b.loc = loc ∧ b.res = none ∧ m.time ≤ b.until_

/-- An `.o` operation has room among the core's 64 unacknowledged ones (R220). -/
def OrdRoom (o : Bool) (s : State) : Prop := o = true → (s.m.late.filter fun e => e.cid == s.cid && e.num.isSome).length < 64

end Sys2Proof.Claims

/-- R203, R204, R430, R458: FENCE goes on, changing nothing, once every earlier write and message of its agent is accepted and its stash
maintenance is complete, or at once where its scope is the core; with order acquire it waits for the stash maintenance alone. Inside a
queue group it waits for the writes of the group too, and for the messages committed before the group (DEDUCED, log entry 129). -/
def Obligations.FenceCompletes : Prop :=
  ∀ (f : FenceF) (s : State), s.Running →
    let q := s.groupNow.ld ++ s.groupNow.sd
    let m := if q.isEmpty then s.begun.m else s.groupNow.base
    (f.order = 3#2 → ∀ e ∈ q, s.groupNow.wrote ≤ e.1 + 1) →
    (f.scope = 0#4 ∨ s.begun.m.unflushed s.cid s.aid = false ∧
      (f.order = 0#2 ∨ (s.begun.m.unwritten s.cid s.aid = false ∧ m.unsent s.cid s.aid = false))) →
    exec (.fence f) s = .next (s.retire s.begun)

/-- R215–R220, R225, R400, R459, R461, R462: ATOM writes the old value to A; RED and REDX write none; XREAD writes the sum of its
cell rounded as it says, ORs its flags and takes RSHC under RSH. -/
def Obligations.AtomicInstructionsComplete : Prop :=
  (∀ (f : AtomF) (s s1 s2 : State) (l : List Word) (old : Nat) (m' : Module),
    Reads s [⟨f.b, f.kb, .addr⟩, ⟨f.c, f.kc, .addr⟩, ⟨f.d, f.kd, .addr⟩] (some (.load, f.a)) l s1 → OrdRoom f.o s1 →
    atomAt s1.cid s1.ctx (arg l 0).toNat (if f.dw then 64 else 32) f.opc.toNat ((arg l 1).toNat % 2 ^ (if f.dw then 64 else 32))
      ((arg l 2).toNat % 2 ^ (if f.dw then 64 else 32)) s1.super f.o s1.m = .ok (old, m') →
    writeDst f.a (BitVec.ofNat 64 old) (noted (numbered f.o (arg l 0).toNat { s1 with m := m' })) = .ok ((), s2) →
    exec (.atom f) s = .next (s.retire s2)) ∧
  (∀ (f : RedF) (s s1 : State) (l : List Word) (m' : Module),
    Reads s [⟨f.b, f.kb, .addr⟩, ⟨f.a, f.ka, .addr⟩] none l s1 → OrdRoom f.o s1 →
    redAt s1.cid s1.ctx (arg l 0).toNat (if f.dw then 64 else 32) f.opc.toNat ((arg l 1).toNat % 2 ^ (if f.dw then 64 else 32))
      s1.super (if f.o then some (s1.ordNum (arg l 0).toNat) else none) s1.m = .ok ((), m') →
    exec (.red f) s = .next (s.retire (noted (numbered f.o (arg l 0).toNat { s1 with m := m' })))) ∧
  (∀ (f : RedxF) (s s1 : State) (l : List Word) (m' : Module),
    Reads s [⟨f.b, f.kb, .addr⟩, ⟨f.a, f.ka, .addr⟩] none l s1 →
    redxAt s1.cid s1.ctx (arg l 0).toNat f.fmt.toNat ((arg l 1).toNat % 2 ^ (redxFmt f.fmt.toNat).w) s1.super s1.m = .ok ((), m') →
    exec (.redx f) s = .next (s.retire (noted { s1 with m := m' }))) ∧
  (∀ (f : XreadF) (s s1 s2 : State) (l : List Word) (cell : Nat) (m' : Module),
    Reads s [⟨f.b, f.kb, .addr⟩] (some (.reg, f.a)) l s1 →
    xreadAt s1.cid s1.ctx (arg l 0).toNat s1.super s1.m = .ok (cell, m') →
    let t := taken { s1 with m := m' } (some f.rm.toNat)
    let r := Num.xread cell (Num.fmtOf f.ty.toNat) t.1 t.2.1
    writeDst f.a (BitVec.ofNat 64 r.1) (withSw t.2.2 fun w => swOr w r.2) = .ok ((), s2) →
    exec (.xread f) s = .next (s.retire s2))

/-- R216, R218: on an aligned word of the own LM that nobody watches, an atomic answers the old value and stores the new one of
AtomicRmw; every other byte is unchanged. -/
def Obligations.LocalAtomicResult : Prop :=
  ∀ (s : State) (off n opc c d : Nat) (h : Bool), (n = 4 ∨ n = 8) → opc ≤ 9 → c < 2 ^ (8 * n) → d < 2 ^ (8 * n) →
    off % n = 0 → LocalOk s off n .rmw → s.m.badNow (s.m.lmAt s.cid off) n = false → Unwatched s.m (s.m.lmAt s.cid off) n →
    Mem.wf s.m.mem = true → (∀ o, off ≤ o → o < off + n → s.core.writable o = 0xFF) → meet off n 0x7F800 0x40 = false →
    ∃ m', atomAt s.cid s.ctx off (8 * n) opc c d s.super h s.m = .ok (leNat (Mem.read s.m.mem (s.m.lmAt s.cid off) n), m') ∧
      Mem.read m'.mem (s.m.lmAt s.cid off) n
        = leBytes n (updated opc (8 * n) (leNat (Mem.read s.m.mem (s.m.lmAt s.cid off) n)) c d) ∧
      ∀ a, a < s.m.lmAt s.cid off ∨ s.m.lmAt s.cid off + n ≤ a → Mem.get m'.mem a = Mem.get s.m.mem a

/-- R226, R227, R231, R402: BARI, BARA, BART, BARW and BARV complete with the status that the object gives; BARA at a network barrier
with the answer that its site's collective unit holds for it, whatever has become of the object since. Where no room is left for a
waiter's registration BARW suspends all the same, to register 64 cycles later: how many waiters a place has room for is the model's own
(Config.barRoom; DESIGN CHOICE, log entry 15), and so is the wait for a registration (DEDUCED, log entry 91). -/
def Obligations.BarrierInstructionsComplete : Prop :=
  ∀ (f : BarF) (s s1 : State) (loc : Nat) (dram : Bool) (c va : Word), s.Running →
    barOperands f s.begun = .ok ((loc, dram, c, va), s1) →
    (∀ s2, (s1.m.bwait.any fun w => w.loc == loc) = false → (bits c 31 0 = 0 ∨ 2 ^ 24 ≤ bits c 31 0) →
      writeDst f.a 3#64 s1 = .ok ((), s2) → exec (.bari f) s = .next (s.retire s2)) ∧
    (∀ m' s2, (s1.m.bwait.any fun w => w.loc == loc) = false → 0 < bits c 31 0 → bits c 31 0 < 2 ^ 24 →
      s1.m.barPut loc dram (barEncode 0 ⟨bits c 31 0, 0, 0, false, true, f.scope.toNat⟩) = .ok () m' →
      writeDst f.a 0#64 { s1 with m := m'.barRegister loc f.scope.toNat } = .ok ((), s2) →
      exec (.bari f) s = .next (s.retire s2)) ∧
    (∀ r m' s2, Settled s.begun → (s1.m.site (siteOf s1.cid)).answered loc s1.cid s1.key = none →
      ((s1.m.barObj loc).v = false ∨ bits c 31 0 = 0 ∨ 2 ^ 24 ≤ bits c 31 0 ∨ s1.m.isNetBar loc = false) →
      (s1.m.leaveComb (siteOf s1.cid) s1.cid s1.key).bara loc dram (bits c 31 0) = .ok r m' →
      writeDst f.a (BitVec.ofNat 64 r) { s1 with m := m' } = .ok ((), s2) → exec (.bara f) s = .next (s.retire s2)) ∧
    (∀ i b r s2, Settled s.begun →
      (s1.m.site (siteOf s1.cid)).joined loc s1.cid s1.key = some (i, b) → b.res = some r →
      (let ws := b.waiters.filter (· ≠ (s1.cid, s1.key))
       let m' := s1.m.onSite (siteOf s1.cid) fun x =>
         { x with comb := if ws.isEmpty then dropAt x.comb i else setAt x.comb i { b with waiters := ws } }
       writeDst f.a (BitVec.ofNat 64 r) { s1 with m := m' } = .ok ((), s2)) → exec (.bara f) s = .next (s.retire s2)) ∧
    (∀ s2, Settled s.begun → (s1.m.barObj loc).v = false → writeDst f.a 2#64 s1 = .ok ((), s2) →
      exec (.bart f) s = .next (s.retire s2)) ∧
    (∀ s2, Settled s.begun → (s1.m.barObj loc).v = true → 2 ^ 31 ≤ bits c 31 0 → writeDst f.a 3#64 s1 = .ok ((), s2) →
      exec (.bart f) s = .next (s.retire s2)) ∧
    (∀ done m' s2, Settled s.begun → (s1.m.barObj loc).v = true → bits c 31 0 < 2 ^ 31 →
      s1.m.barChange loc dram { s1.m.barObj loc with pend := ((s1.m.barObj loc).pend + bits c 31 0) % 2 ^ 32 } = .ok done m' →
      writeDst f.a 0#64 { s1 with m := m' } = .ok ((), s2) → exec (.bart f) s = .next (s.retire s2)) ∧
    (MaySleep s → ∀ s2 v, (s1.m.barObj loc).v = false ∧ v = 2#64 ∨
        (s1.m.barObj loc).v = true ∧ (s1.m.barObj loc).phase ≠ bit c 0 ∧ v = 0#64 →
      writeDst f.a v s1 = .ok ((), s2) → exec (.barw f) s = .next (s.retire s2)) ∧
    (MaySleep s → (s1.m.barObj loc).v = true → (s1.m.barObj loc).phase = bit c 0 →
      let room := (s1.m.bwait.filter fun w => placeOf w.loc == placeOf loc).length < Config.barRoom
      let m := if room then { s1.m with bwait := s1.m.bwait ++ [⟨loc, s1.cid, s1.key⟩] } else s1.m
      exec (.barw f) s = .next (s.leave (asleep { s1 with m := m } s.win.ctl.pc 2 va (BitVec.ofNat 64 (bits c 0 0)) f.a
        (.bar loc room (s1.m.time + 64) 0)))) ∧
    (∀ g : BarvF, f = ⟨g.a, g.b, 41#6, g.kb, false, g.scope⟩ → Settled s.begun →
      (∀ s2, (s1.m.barObj loc).v = false → writeDst g.a 2#64 s1 = .ok ((), s2) → exec (.barv g) s = .next (s.retire s2)) ∧
      (∀ m' s2, (s1.m.barObj loc).v = true →
        s1.m.barPut loc dram (barEncode (s1.m.barWord loc) { s1.m.barObj loc with v := false }) = .ok () m' →
        writeDst g.a 0#64 { s1 with m := m'.wakeBar loc 2 } = .ok ((), s2) → exec (.barv g) s = .next (s.retire s2)))

/-- R227, R231: an arrival of c at a valid object answers the phase and whether it completed; the count saturates at the target, and
completion with no pending byte turns the phase and clears the count. So in LM and, where the home takes the write, in DRAM, with no
waiter and outside the network kind; while the home has no room the arrival waits. At a network barrier BARA waits, and its count joins
the arrival that its site's collective unit is combining for the object, or opens one of 8 cycles (log entry 69, DESIGN CHOICE); the unit's
one arrival of the sum does the same to the object, and the waiters of a completed phase wait for its completion multicast. -/
def Obligations.BarrierArrival : Prop :=
  (∀ (m : Module) (loc c : Nat), isLm loc = true → Mem.wf m.mem = true → (m.barObj loc).v = true → c < 2 ^ 24 → Unwatched m loc 32 →
    m.isNetBar loc = false → PlainLm m loc 32 →
    ∃ m', m.bara loc false c = .ok (arrivalAnswer (m.barObj loc) c) m' ∧ m'.barObj loc = arrived (m.barObj loc) c) ∧
  (∀ (m : Module) (loc c : Nat), isLm loc = false → loc % 32 = 0 → Mem.wf m.mem = true → (m.barObj loc).v = true → c < 2 ^ 24 →
    m.holders (lineOf loc) = [] → Unwatched m (lineOf loc) 64 → m.isNetBar loc = false →
    let w := m.dramWrite loc (leBytes 32 (barEncode (m.barWord loc) (arrived (m.barObj loc) c))) true
    match w with
    | .ok () _ => ∃ m', m.bara loc true c = .ok (arrivalAnswer (m.barObj loc) c) m' ∧ m'.barObj loc = arrived (m.barObj loc) c
    | .full l => m.bara loc true c = .full l
    | .defer .. => False) ∧
  (∀ (f : BarF) (s s1 : State) (loc : Nat) (dram : Bool) (c va : Word), s.Running → barOperands f s.begun = .ok ((loc, dram, c, va), s1) →
    Settled s.begun → (s1.m.site (siteOf s1.cid)).answered loc s1.cid s1.key = none → (s1.m.barObj loc).v = true →
    0 < bits c 31 0 → bits c 31 0 < 2 ^ 24 → s1.m.isNetBar loc = true →
    ((s1.m.site (siteOf s1.cid)).joined loc s1.cid s1.key = none → exec (.bara f) s = .next (s.rollback
      (s.groupNow.base.putAsk s1.cid (.arrive (siteOf s1.cid) loc (bits c 31 0) s1.cid s1.key)))) ∧
    (((s1.m.site (siteOf s1.cid)).joined loc s1.cid s1.key).isSome = true → exec (.bara f) s = .next (s.rollback s.groupNow.base))) ∧
  (∀ (m : Module) (site loc c cid key : Nat), (∀ b ∈ (m.site site).comb, (cid, key) ∉ b.waiters) →
    let out := ((m.putAsk cid (.arrive site loc c cid key)).site site).comb
    ((∀ b ∈ (m.site site).comb, ¬ Joinable m loc b) → out = (m.site site).comb ++ [⟨loc, c, m.time + 7, [(cid, key)], none⟩]) ∧
    (∀ pre b post, (m.site site).comb = pre ++ b :: post → (∀ x ∈ pre, ¬ Joinable m loc x) → Joinable m loc b →
      out = pre ++ { b with count := b.count + c, waiters := b.waiters ++ [(cid, key)] } :: post)) ∧
  (∀ (m : Module) (loc c : Nat), isLm loc = true → Mem.wf m.mem = true → (m.barObj loc).v = true → m.watched loc 32 = [] →
    m.isNetBar loc = true → PlainLm m loc 32 →
    let done := min ((m.barObj loc).count + c) (m.barObj loc).target = (m.barObj loc).target ∧ (m.barObj loc).pend = 0
    ∃ m', m.arriveAt loc false c = .ok (arrivalAnswer (m.barObj loc) c) m' ∧ m'.barObj loc = arrived (m.barObj loc) c ∧
      m'.bwait = (if done then m.bwait.filter (fun w => w.loc ≠ loc) else m.bwait) ∧
      m'.bdone = m.bdone ++ (if done then m.bwait.filter (fun w => w.loc = loc) else []))

/-- R233, R235, R469: SEMSET sets a semaphore of the tile, SEMS adds with saturation, and SEMW goes on where its value suffices and
suspends where it does not, once no operation of its cycle can still change the value. The operations of one cycle act in the order of
R235, SEMSET by core slot before SEMS. -/
def Obligations.SemaphoreInstructions : Prop :=
  ∀ (f : SemF) (s s1 : State) (l : List Word), Reads s [⟨f.c, f.kc, .addr⟩] none l s1 →
    (Settled s.begun →
      let put (v rank : Nat) : State := { s1 with m := s1.m.semPut (tileOf s1.cid) f.n.toNat (BitVec.ofNat 32 v) rank }
      let now := ((s1.m.tile (tileOf s1.cid)).sem f.n.toNat).toNat
      (s1.m.semTurn (tileOf s1.cid) f.n.toNat (slotOf s1.cid) = true →
        exec (.semset f) s = .next (s.retire (put (bits (arg l 0) 31 0) (slotOf s1.cid)))) ∧
      exec (.sems f) s = .next (s.retire (put (min (now + bits (arg l 0) 31 0) (2 ^ 32 - 1)) 8))) ∧
    (MaySleep s → s1.m.semFinal (tileOf s1.cid) f.n.toNat = false → exec (.semw f) s = .next (s.rollback s.groupNow.base)) ∧
    (MaySleep s → s1.m.semFinal (tileOf s1.cid) f.n.toNat = true →
      (bits (arg l 0) 31 0 ≤ ((s1.m.tile (tileOf s1.cid)).sem f.n.toNat).toNat → exec (.semw f) s = .next (s.retire s1)) ∧
      (((s1.m.tile (tileOf s1.cid)).sem f.n.toNat).toNat < bits (arg l 0) 31 0 →
        exec (.semw f) s = .next (s.leave (asleep s1 s.win.ctl.pc 3 (f.n.zeroExtend 64) (BitVec.ofNat 64 (bits (arg l 0) 31 0)) 41#6
          (.sem f.n.toNat (bits (arg l 0) 31 0)))))) ∧
    (∀ (m : Module) (t n rank : Nat) (v : BitVec 32),
      ((m.semPut t n v rank).tile t).sem n = v ∧ (∀ k, k ≠ n → ((m.semPut t n v rank).tile t).sem k = (m.tile t).sem k) ∧
      (m.semPut t n v rank).semFinal t n = false ∧
      ∀ r, (m.semPut t n v rank).semTurn t n r = true ↔ rank ≤ r)

/-- R53, R224, R236, R237, R436, R437, R500: JPOLL answers a job's state; JWAIT, WAIT, WAITRS and JOIN answer where what they wait for
has come, and suspend where it has not. -/
def Obligations.WaitInstructions : Prop :=
  (∀ (f : JobF) (s s1 : State) (l : List Word), Reads s [⟨f.b, f.kb, .addr⟩] (some (.reg, f.a)) l s1 →
    let st := (if f.cp then s1.core.jobCp else s1.core.jobMx).state (bits (arg l 0) 15 0)
    (∀ s2, writeDst f.a (BitVec.ofNat 64 st.code) s1 = .ok ((), s2) → exec (.jpoll f) s = .next (s.retire s2)) ∧
    (MaySleep s → (st = .complete ∨ st = .faulted) → ∀ s2, writeDst f.a (BitVec.ofNat 64 st.code) s1 = .ok ((), s2) →
      exec (.jwait f) s = .next (s.retire s2)) ∧
    (MaySleep s → (st = .queued ∨ st = .running) →
      exec (.jwait f) s = .next (s.leave (asleep s1 s.win.ctl.pc 4 (BitVec.ofNat 64 (bits (arg l 0) 15 0)) 0#64 f.a
        (.job f.cp (bits (arg l 0) 15 0)))))) ∧
  (∀ (f : Un) (s s1 : State) (l : List Word), Reads s [⟨f.b, f.kb, .addr⟩] (some (.reg, f.a)) l s1 → MaySleep s →
    (bits (arg l 0) 31 0 = 0 → ∀ s2, writeDst f.a 0#64 s1 = .ok ((), s2) → exec (.wait f) s = .next (s.retire s2)) ∧
    (0 < bits (arg l 0) 31 0 →
      exec (.wait f) s = .next (s.leave (asleep s1 s.win.ctl.pc 6 0#64 (BitVec.ofNat 64 (bits (arg l 0) 31 0)) f.a
        (.cycles (s1.m.time + bits (arg l 0) 31 0))))) ∧
    ((s1.core.ctx s1.ctx).resv = none → ∀ s2, writeDst f.a 2#64 s1 = .ok ((), s2) →
      exec (.waitrs f) s = .next (s.retire s2)) ∧
    (∀ r, (s1.core.ctx s1.ctx).resv = some r → 16 ≤ s1.core.mons.length → ∀ s2,
      writeDst f.a 2#64 (unreserved s1) = .ok ((), s2) → exec (.waitrs f) s = .next (s.retire s2)) ∧
    (∀ r, (s1.core.ctx s1.ctx).resv = some r → s1.core.mons.length < 16 →
      let n := bits (arg l 0) 31 0
      let m := (unreserved s1).m.onCore s1.cid fun c => { c with mons := c.mons ++ [⟨r.line, s1.key⟩] }
      exec (.waitrs f) s = .next (s.leave (asleep { s1 with m := m } s.win.ctl.pc 5 r.va (BitVec.ofNat 64 n) f.a
        (.resv (if n = 0 then none else some (s1.m.time + n)))))) ∧
    (∀ v loc m', joinRead s1.cid s1.ctx (arg l 0).toNat s1.super s1.m = .ok ((v, loc), m') →
      (v.toInt ≤ 0 → ∀ s2, writeDst f.a v { s1 with m := m' } = .ok ((), s2) → exec (.join f) s = .next (s.retire s2)) ∧
      (0 < v.toInt →
        let mon := loc.isSome && decide (s1.core.mons.length < 16)
        let m := if mon then m'.onCore s1.cid fun c => { c with mons := c.mons ++ [⟨lineOf (loc.getD 0), s1.key⟩] } else m'
        exec (.join f) s = .next (s.leave (asleep { s1 with m := m } s.win.ctl.pc 1 (arg l 0) 0#64 f.a
          (.join (arg l 0) s.win.ctl.pc mon (if mon then none else some (s1.m.time + 256))))))))

/-- R38, R44: a suspension frees the context and writes the activation back: it is SUSPENDED with no window, and the control words
of its workspace hold its PC, its status word without reserved bits and what it waits for. -/
def Obligations.SuspensionWritesBack : Prop :=
  ∀ (s : State) (pc : Word) (k : Nat) (a v : Word) (dst : Opnd) (w : WaitOn), s.act.st = .issuing s.ctx →
    (s.core.ctx s.ctx).act = some s.key → s.act.win = some s.win → s.m.flushBad s.cid s.act.wp s.win = none →
    Mem.wf s.m.mem = true → s.act.wp % 64 = 0 → Unwatched s.m (s.m.lmAt s.cid s.act.wp) 1344 →
    let t := asleep s pc k a v dst w
    (t.m.act s.cid s.key).st = .suspended ∧ (t.m.act s.cid s.key).win = none ∧ (t.m.act s.cid s.key).wait = w ∧
      (t.m.act s.cid s.key).dst = dst ∧ ((t.m.core s.cid).ctx s.ctx).act = none ∧
      (let c := Ctl.decode (Mem.read t.m.mem (t.m.lmAt s.cid (s.act.wp + 1280)) 64)
       c.pc = s.win.ctl.pc ∧ c.sw = s.win.ctl.sw &&& swMask ∧ c.liveg = s.win.ctl.liveg ∧ c.livev = s.win.ctl.livev ∧
         c.joina = s.win.ctl.joina ∧ c.waitk = BitVec.ofNat 4 k ∧ c.waita = a ∧ c.waitv = v)

/-! ## Control transfers -/

namespace Sys2Proof.Claims

/-- The target of LDISP and SLOT from an instruction at pc (R112). -/
def targetOf (pc : Word) (ldisp : Int) (slot : Nat) : Word := trunc64 ((pc.toNat / 64 * 64 : Nat) + 64 * ldisp + 2 * slot)

/-- A transfer to t from state s commits in state u: its line passes the checks of R104, or its fetch faults, which is raised there. -/
def Lands (s : State) (t : Word) (u : State) : Prop :=
  (∃ b m', lineFor s.cid s.ctx t s.super s.m = .ok (b, m') ∧ addrBad b t = none ∧ u = State.setPc { s with m := m' } t) ∨
  (∃ f, lineFor s.cid s.ctx t s.super s.m = .error (.fault f) ∧ u = s.setPc t)

/-- The checks of R104 let a transfer to t from state s commit. -/
def Passes (s : State) (t : Word) : Prop :=
  (∃ b m', lineFor s.cid s.ctx t s.super s.m = .ok (b, m') ∧ addrBad b t = none) ∨
  ∃ f, lineFor s.cid s.ctx t s.super s.m = .error (.fault f)

/-- A transfer to t from state s that R104 refuses: BADLINE of a malformed line, or BADTGT of an odd address, slot 0, or a slot
beyond HC. -/
def Refused (s : State) (t : Word) (c : Cause) : Prop :=
  ∃ b m', lineFor s.cid s.ctx t s.super s.m = .ok (b, m') ∧
    ((c = .badline ∧ lineOk b = false) ∨
     (c = .badtgt ∧ lineOk b = true ∧ (bit t 0 = true ∨ slotOfPc t = 0 ∨ lineHc b < slotOfPc t)))

/-- A call of t with its link in A: the target is checked before the operands are read (R81) and again in the state s₁ after them, then
the link is written. -/
def CallsTo (s s1 : State) (a : Opnd) (t : Word) (u : State) : Prop :=
  ∃ s2, Passes s.begun t ∧ Passes s1 t ∧ writeDst a (seqNext (s.hc s.win.ctl.pc) s.win.ctl.pc) s1 = .ok ((), s2) ∧ Lands s2 t u

/-- URET goes back to its activation: UPC is 1, no queue entry is unconsumed, and its record arms no page wait (R351, R358). -/
structure GoesBack (s : State) : Prop where
  running : s.Running
  upc : bit s.sw 1 = true
  queue : s.ldQ = [] ∧ s.sdQ = []
  page : (FaultRec.decode (s.m.lmRead s.cid (s.win.ctl.waitv.toNat % 2 ^ 19) 64)).pw = false ∧ s.act.pwCancel = false

end Sys2Proof.Claims

/-- R81, R104: a transfer whose target R104 refuses has no effect but the fault, which names the target: no link is written, and nothing of
the record of a URET is restored. So CALL, CALLR, B, BC where its condition holds, JMP, RET and URET. The target of a call is checked
before its operands. -/
def Obligations.RefusedTransfers : Prop :=
  (∀ (f : Rel16) (s : State) (c : Cause), s.Running → Refused s.begun (targetOf s.win.ctl.pc f.ldisp.toInt f.slot.toNat) c →
    exec (.callShort f) s = .next (s.faulted { cause := c, addr := targetOf s.win.ctl.pc f.ldisp.toInt f.slot.toNat })) ∧
  (∀ (f : Rel48) (s : State) (c : Cause), s.Running → Refused s.begun (targetOf s.win.ctl.pc f.ldisp.toInt f.slot.toNat) c →
    exec (.callLong f) s = .next (s.faulted { cause := c, addr := targetOf s.win.ctl.pc f.ldisp.toInt f.slot.toNat })) ∧
  (∀ (f : Br16) (s : State) (c : Cause), s.Running → Refused s.begun (targetOf s.win.ctl.pc f.ldisp.toInt f.slot.toNat) c →
    exec (.bShort f) s = .next (s.faulted { cause := c, addr := targetOf s.win.ctl.pc f.ldisp.toInt f.slot.toNat })) ∧
  (∀ (f : Br48) (s : State) (c : Cause), s.Running → Refused s.begun (targetOf s.win.ctl.pc f.ldisp.toInt f.slot.toNat) c →
    exec (.bLong f) s = .next (s.faulted { cause := c, addr := targetOf s.win.ctl.pc f.ldisp.toInt f.slot.toNat })) ∧
  (∀ (f : Bc16) (s s1 : State) (l : List Word) (c : Cause), Reads s [⟨f.b, f.kb, .addr⟩, ⟨f.c, f.kc, .addr⟩] none l s1 →
    condOf f.cond (arg l 0) (arg l 1) = true → Refused s1 (targetOf s.win.ctl.pc f.ldisp.toInt f.slot.toNat) c →
    exec (.bcShort f) s = .next (s.faulted { cause := c, addr := targetOf s.win.ctl.pc f.ldisp.toInt f.slot.toNat })) ∧
  (∀ (f : Bc48) (s s1 : State) (l : List Word) (c : Cause), Reads s [⟨f.b, f.kb, .addr⟩, ⟨f.c, f.kc, .addr⟩] none l s1 →
    condOf f.cond (arg l 0) (arg l 1) = true → Refused s1 (targetOf s.win.ctl.pc f.ldisp.toInt f.slot.toNat) c →
    exec (.bcLong f) s = .next (s.faulted { cause := c, addr := targetOf s.win.ctl.pc f.ldisp.toInt f.slot.toNat })) ∧
  (∀ (s : State) (c : Cause), GoesBack s → Refused s.begun s.win.ctl.waita c →
    exec .uret s = .next (s.faulted { cause := c, addr := s.win.ctl.waita })) ∧
  (∀ (f : Src1) (s s1 : State) (l : List Word) (c : Cause), Reads s [⟨f.b, f.kb, .addr⟩] none l s1 → Refused s1 (arg l 0) c →
    exec (.jmp f) s = .next (s.faulted { cause := c, addr := arg l 0 }) ∧
    exec (.ret f) s = .next (s.faulted { cause := c, addr := arg l 0 })) ∧
  (∀ (f : Un) (s s1 : State) (l : List Word) (c : Cause), Reads s [⟨f.b, f.kb, .addr⟩] (some (.reg, f.a)) l s1 →
    (PlainCode f.b ∧ Refused s.begun (arg l 0) c ∨ ¬ PlainCode f.b ∧ Refused s1 (arg l 0) c) → exec (.callr f) s = .next (s.faulted { cause := c, addr := arg l 0 }))

/-- R104, R112, R396, R398, R401, R403, R406, R435, R463, R474, R475: ADPC writes its address; B, JMP and RET go to their targets; CALL
and CALLR also write the address of the next instruction; BC goes where its condition holds and on to the next instruction where not. A
transfer commits where the line of its target cannot be read, and the fault is raised there; that this holds of every fault, of a NOROUTE
and of a PKEY too, is the model's choice (DESIGN CHOICE, log entry 138). And where its condition holds, SKIP passes over the 1 to 4
instructions that follow it: inside its line, by that many heads; across lines, by sequential flow. -/
def Obligations.ControlTransfersComplete : Prop :=
  (∀ (f : Rel16) (s s1 s2 u : State), Reads s [] (some (.reg, f.a)) [] s1 →
    (writeDst f.a (targetOf s.win.ctl.pc f.ldisp.toInt f.slot.toNat) s1 = .ok ((), s2) →
      exec (.adpcShort f) s = .next (s.retire s2)) ∧
    (CallsTo s s1 f.a (targetOf s.win.ctl.pc f.ldisp.toInt f.slot.toNat) u → exec (.callShort f) s = .next (s.retire u))) ∧
  (∀ (f : Rel48) (s s1 s2 u : State), Reads s [] (some (.reg, f.a)) [] s1 →
    (writeDst f.a (targetOf s.win.ctl.pc f.ldisp.toInt f.slot.toNat) s1 = .ok ((), s2) →
      exec (.adpcLong f) s = .next (s.retire s2)) ∧
    (CallsTo s s1 f.a (targetOf s.win.ctl.pc f.ldisp.toInt f.slot.toNat) u → exec (.callLong f) s = .next (s.retire u))) ∧
  (∀ (f : Br16) (s u : State), s.Running → Lands s.begun (targetOf s.win.ctl.pc f.ldisp.toInt f.slot.toNat) u →
    exec (.bShort f) s = .next (s.retire u)) ∧
  (∀ (f : Br48) (s u : State), s.Running → Lands s.begun (targetOf s.win.ctl.pc f.ldisp.toInt f.slot.toNat) u →
    exec (.bLong f) s = .next (s.retire u)) ∧
  (∀ (f : Bc16) (s s1 u : State) (l : List Word), Reads s [⟨f.b, f.kb, .addr⟩, ⟨f.c, f.kc, .addr⟩] none l s1 →
    (condOf f.cond (arg l 0) (arg l 1) = false → exec (.bcShort f) s = .next (s.retire s1)) ∧
    (condOf f.cond (arg l 0) (arg l 1) = true → Lands s1 (targetOf s.win.ctl.pc f.ldisp.toInt f.slot.toNat) u →
      exec (.bcShort f) s = .next (s.retire u))) ∧
  (∀ (f : Bc48) (s s1 u : State) (l : List Word), Reads s [⟨f.b, f.kb, .addr⟩, ⟨f.c, f.kc, .addr⟩] none l s1 →
    (condOf f.cond (arg l 0) (arg l 1) = false → exec (.bcLong f) s = .next (s.retire s1)) ∧
    (condOf f.cond (arg l 0) (arg l 1) = true → Lands s1 (targetOf s.win.ctl.pc f.ldisp.toInt f.slot.toNat) u →
      exec (.bcLong f) s = .next (s.retire u))) ∧
  (∀ (f : Src1) (s s1 u : State) (l : List Word), Reads s [⟨f.b, f.kb, .addr⟩] none l s1 → Lands s1 (arg l 0) u →
    exec (.jmp f) s = .next (s.retire u) ∧ exec (.ret f) s = .next (s.retire u)) ∧
  (∀ (f : Un) (s s1 u : State) (l : List Word), Reads s [⟨f.b, f.kb, .addr⟩] (some (.reg, f.a)) l s1 →
    CallsTo s s1 f.a (arg l 0) u → exec (.callr f) s = .next (s.retire u)) ∧
  (∀ (f : SkipF) (s s1 : State) (l : List Word), Reads s [⟨f.b, f.kb, .addr⟩, ⟨f.c, f.kc, .addr⟩] none l s1 →
     (condOf f.cond (arg l 0) (arg l 1) = false → exec (.skip f) s = .next (s.retire s1)) ∧
     (∀ b who, condOf f.cond (arg l 0) (arg l 1) = true →
       (s1.core.ctx s1.ctx).line = some ⟨s.win.ctl.pc.toNat / 64 * 64, b, who⟩ →
       (slotOfPc s.win.ctl.pc + (f.n.toNat + 1) + 1 ≤ lineHc b →
         exec (.skip f) s = .next (s.retire (s1.setPc (s.win.ctl.pc + BitVec.ofNat 64 (2 * (f.n.toNat + 2)))))) ∧
       (∀ t m', skipFrom s1.cid s1.ctx s1.super b s.win.ctl.pc (f.n.toNat + 2) s1.m = .ok (t, m') →
         exec (.skip f) s = .next (s.retire (State.setPc { s1 with m := m' } t)))))

/-! ## Activations -/

namespace Sys2Proof.Claims

/-- The task record that SPAWN pushes (R50, R51): entry, join word, domain, rounding mode and counter, parent, and the live
registers g0–g7 as they stood before the operands were read. -/
def spawned (s s1 : State) (dom : BitVec 3) (e j : Word) : TaskRec :=
  { pc := e, joina := j, dom := min dom.toNat s.win.ctl.dom.toNat, rm := swRm s.sw, rshc := swRshc s.sw
    parent := s1.m.selfHandle s1.cid, g := (upFrom 0 8).map fun k => if s.win.live k then s.win.gr k else 0#64 }

/-- The issuing cycles up to now counted against the activation's budget (R64). -/
def counted (s : State) : State := { s with m := s.m.onAct s.cid s.key (·.count s.m.time) }

/-- The packet that carries a migration to core d, from the reply slot k (R59). -/
def migration (s s1 : State) (d k : Nat) : Packet :=
  { kind := .migration, dsite := siteOf d, dl := logOf d, ssite := siteOf s1.cid, sl := logOf s1.cid, pkey := s1.core.spec.pk
    seq := s1.core.ni.seq, svcn := s1.m.vcn s1.cid, dvcn := s1.m.vcn d, gen := (s1.m.site (siteOf s1.cid)).epoch
    dmod := s1.m.modnum.toNat, smod := s1.m.modnum.toNat, va := s.win.ctl.pc, len := 128, slot := k, aid := s1.aid
    actKey := s1.key, here := siteOf s1.cid, payload := migPayload s1.win }

/-- The module in which a migration is ready to leave: the ports are closed, the reply slot is taken, the packet is named. -/
def leaving (s s1 : State) (d k : Nat) (va : Word) : Module :=
  let p := migration s s1 d k
  let m := (s1.m.takeSeq s1.cid).2.closePorts s1.cid s1.aid
  let w := { s1.win with ctl := { s1.win.ctl with waitk := 10#4 } }
  let m := m.onAct s1.cid s1.key fun a => { a with win := some w, grace := none, mig := some m.nextPkt, migTo := va }
  m.onCore s1.cid fun c => { c with ni := { c.ni with slots := Tab.put c.ni.slots k ⟨p, m.time, .none_⟩ } }

/-- The state in which it has left: the activation is written back and MIGRATING. -/
def migrating (s s1 : State) (d k : Nat) (va : Word) : State :=
  { s1 with m := ((leaving s s1 d k va).park s1.cid s1.key .migrating).post (migration s s1 d k) }

/-- The state in which SPAWN has read the registers g0–g7 (R90). -/
def readEight (s s1 : State) : State := s1.setWin (s1.win.found ((upFrom 0 8).filter s.win.live))

end Sys2Proof.Claims

/-- R44, R50–R53, R58, R59, R329, R419, R420, R446, R477: END decrements the join word and releases the activation; YIELD makes it
READY; SPAWN pushes its task record and answers 0, or 1 where the deque is full,
unless a live one of g0–g7 is uncorrectable; MIGR goes on where its target is the own core, and
otherwise sends the activation away. YIELD and MIGR count the cycles issued so far against the budget first. -/
def Obligations.ActivationInstructions : Prop :=
  (∀ (s : State) (m' : Module), s.Running → s.key ≠ 64 → s.ldQ = [] → s.sdQ = [] →
    (s.win.ctl.joina ≠ 0#64 → Settled s.begun) → s.begun.m.endJoin s.cid s.begun.win.ctl = some m' →
    let m := if swUpc s.sw then m'.clearV s.cid (s.win.ctl.waitv.toNat % 2 ^ 19) else m'
    exec .endAct s = .next (s.leave { s.begun with m := m.release s.cid s.key })) ∧
  (∀ s : State, s.Running → MaySleep s →
    let b := counted s.begun
    let c := { b.win.ctl with waitk := 7#4, cls := if s.win.ctl.path = 5#3 then s.win.ctl.cls else 4#3, budget := s.core.spec.budget }
    let t := b.setWin { b.win with ctl := c }
    let m := t.m.onAct s.cid s.key fun a => { a with grace := none, stepAt := if swSs s.sw then some s.win.ctl.pc else a.stepAt }
    exec .yield s = .next (s.leave { t with m := m.parkOrTrap s.cid s.key .ready })) ∧
  (∀ (f : SpawnF) (s s1 s2 : State) (l : List Word), Reads s [⟨f.b, f.kb, .addr⟩, ⟨f.c, f.kc, .addr⟩] (some (.reg, f.a)) l s1 →
    (∀ k, k < 8 → s.win.live k = true → s.win.bad.contains k = false) →
    bits (arg l 1) 2 0 = 0 → bit (arg l 1) 63 = false →
    (64 ≤ s1.core.desc.n → writeDst f.a 1#64 (readEight s s1) = .ok ((), s2) → exec (.spawn f) s = .next (s.retire s2)) ∧
    (s1.core.desc.n < 64 → s1.m.dqOk s1.cid = true → s1.m.dqFree s1.cid = true → Settled (readEight s s1) →
      (let t := readEight s s1
       writeDst f.a 0#64 { t with m := t.m.dqPush t.cid (spawned s s1 f.dom (arg l 0) (arg l 1)) } = .ok ((), s2)) →
      exec (.spawn f) s = .next (s.retire s2))) ∧
  (∀ (f : Src1) (s s1 : State) (l : List Word) (d : Nat), Reads s [⟨f.b, f.kb, .addr⟩] none l s1 → MaySleep s →
    bits s1.win.ctl.liveg 31 10 = 0 → s1.win.ctl.livev = 0#16 →
    s1.m.ownerCore s1.cid (arg l 0).toNat = some d →
    let b := counted s1
    (d = s1.cid → exec (.migr f) s = .next (s.retire b)) ∧
    (∀ k, d ≠ s1.cid → Settled b → b.m.unsent s1.cid s1.aid = false → b.m.freeReply s1.cid = some k →
      (leaving s b d k (arg l 0)).flushBad s1.cid s1.act.wp b.win = none →
      exec (.migr f) s = .next (s.leave (migrating s b d k (arg l 0)))))

/-- R52, R44: an activation that has ended is gone with its slot and its context. -/
def Obligations.EndReleases : Prop :=
  ∀ (m : Module) (cid key : Nat), key < 64 →
    let t := m.release cid key
    Tab.find (t.core cid).acts key = none ∧ bit (t.core cid).desc.held key = false ∧
      (∀ k, (m.act cid key).st = .issuing k → ((t.core cid).ctx k).act = none) ∧
      (∀ o ∈ (t.core cid).mons, o.key ≠ key) ∧ (∀ w ∈ t.bwait, ¬ (w.cid = cid ∧ w.key = key))

/-- R40, R50, R54: a record pushed on a deque with room stands at its LIFO end: it is what the core itself takes next, and the count
goes up by one. -/
def Obligations.DequePushThenPop : Prop :=
  ∀ (m : Module) (cid : Nat) (r : TaskRec), Mem.wf m.mem = true → (m.core cid).desc.n < 64 → (m.core cid).desc.lifo < 64 →
    m.dqOk cid = true → m.bad (m.lmAt cid (dqOff (m.core cid).desc.lifo)) 96 = false → r.dom < 8 → r.rm < 8 → r.g.length = 8 → Unwatched m (m.lmAt cid (dqOff (m.core cid).desc.lifo)) 96 →
    ∃ m', (m.dqPush cid r).dqPop cid = some (r, m') ∧ (m'.core cid).desc = (m.core cid).desc ∧
      ((m.dqPush cid r).core cid).desc.n = (m.core cid).desc.n + 1

/-! ## Messages, handles and streams -/

namespace Sys2Proof.Claims

/-- The payload of a message: len bytes at c, aligned, inside LM, as a load of the core reads them (R303). -/
structure Payload (s : State) (c : Word) (len : Nat) (bs : List Byte) (t : State) : Prop where
  aligned : c.toNat % 8 = 0
  inside : c.toNat + len ≤ 2 ^ 19
  read : ∃ m', lmLoad s.cid s.cid c.toNat len s.super c.toNat s.m = .ok (bs, m') ∧ t = { s with m := m' }

/-- A unicast packet sent from reply slot k (R301, R319): it takes the next number and waits for injection. -/
def sent (s : State) (k : Nat) (p : Packet) : State :=
  let p := { p with seq := s.core.ni.seq, slot := k }
  let m := (s.m.takeSeq s.cid).2.onCore s.cid fun c =>
    { c with ni := { c.ni with slots := Tab.put c.ni.slots k ⟨p, s.m.time, .none_⟩ } }
  { s with m := m.post p }

/-- A multicast sent (R309, R310): one packet that names its destinations, and their record. -/
def multicast (s : State) (ord : Bool) (ds : List Nat) (bs : List Byte) : State :=
  let q := s.core.ni.seq
  let m := (s.m.takeSeq s.cid).2
  let m := m.post
    { headerOf s 0 bs with
      gen := (m.site (siteOf s.cid)).epoch, dmod := m.modnum.toNat, ord := ord, mc := true, seq := q, dests := ds }
  { s with m := m.onCore s.cid fun c => { c with ni := { c.ni with mrecs := c.ni.mrecs ++ [⟨q.toNat, s.aid, ord, ds⟩] } } }

/-- The ports of the core changed. -/
def onPorts (s : State) (f : Ports → Ports) : State := { s with m := s.m.onCore s.cid fun c => { c with ports := f c.ports } }

/-- A control word of SOPEN and SCLOSE that names stream n and a direction, outside a handler (R468). -/
structure StreamWord (s : State) (c : Word) (n : Nat) (recv : Bool) : Prop where
  zero : bits c 63 3 = 0
  num : bits c 1 0 = n
  dir : bit c 2 = recv
  hnd : s.win.ctl.hnd = false

end Sys2Proof.Claims

/-- R24, R301–R303, R309, R310, R445, R471: SEND, SENDX and MCAST read their payload and hand their packets to the NI, with the
header that R295 gives them; each takes the next number of the core, SEND and SENDX a reply slot, and MCAST a record of its
destinations. A handle that the checks of R24 refuse raises BADHANDLE with the handle as its address, once the operands are read
and the address is aligned; a payload address off a dword raises MISALIGN. -/
def Obligations.MessagesSent : Prop :=
  (∀ (f : SendF) (s s1 t : State) (l : List Word) (bs : List Byte) (k : Nat),
    Reads s [⟨f.b, f.kb, .addr⟩, ⟨f.c, f.kc, .addr⟩] none l s1 → s1.m.handleOk (siteOf s1.cid) (arg l 0) = true →
    Payload s1 (arg l 1) f.len.toNat bs t → Settled t → t.m.freeReply t.cid = some k →
    exec (.send f) s = .next (s.retire (noted (sent t k { headerOf t (arg l 0) bs with ord := f.ord })))) ∧
  (∀ (f : SendxF) (s s1 t u : State) (l : List Word) (bs : List Byte) (k : Nat),
    Reads s [⟨f.b, f.kb, .addr⟩, ⟨f.c, f.kc, .addr⟩] none l s1 → sendxOk f.xf.toNat f.par.toNat f.len.toNat = true →
    s1.m.handleOk (siteOf s1.cid) (arg l 0) = true → Payload s1 (arg l 1) f.len.toNat bs t →
    u = (if xfRsh f.xf.toNat f.par.toNat t.sw then withSw t swTick else t) → Settled u → u.m.freeReply u.cid = some k →
    exec (.sendx f) s = .next (s.retire (noted (sent u k
      { headerOf t (arg l 0) bs with ord := f.ord, opc := 1, xf := f.xf.toNat, par := f.par.toNat })))) ∧
  (∀ (f : SendF) (s s1 t : State) (l : List Word) (bs : List Byte),
    Reads s [⟨f.b, f.kb, .addr⟩, ⟨f.c, f.kc, .addr⟩] none l s1 → mcastOk (arg l 0) = true →
    s1.m.mcastSet s1.cid (arg l 0) ≠ [] → Payload s1 (arg l 1) f.len.toNat bs t → Settled t → t.core.ni.mrecs.length < 4 →
    exec (.mcast f) s = .next (s.retire (noted (multicast t f.ord (s1.m.mcastSet s1.cid (arg l 0)) bs)))) ∧
  (∀ (f : SendF) (s s1 : State) (l : List Word), Reads s [⟨f.b, f.kb, .addr⟩, ⟨f.c, f.kc, .addr⟩] none l s1 →
     ((arg l 1).toNat % 8 ≠ 0 → exec (.send f) s = .next (s.faulted { cause := .misalign, addr := arg l 1 })) ∧
     ((arg l 1).toNat % 8 = 0 → s1.m.handleOk (siteOf s1.cid) (arg l 0) = false →
       exec (.send f) s = .next (s.faulted { cause := .badhandle, addr := arg l 0 })))

namespace Sys2Proof.Claims
/-- R434: what HQRY answers for position p under shape k: i and j, reduced modulo the extents in a ring and a torus, name a VCN of
the partition that is not vacant, whose handle r is; where they do not, r is 0. -/
def ShapeGives (s : State) (k p r : Word) : Prop :=
  let e := Tab.get (0#64, 0#64) (s.m.site (siteOf s.cid)).shapes (bits k 3 0)
  let kind := bits e.1 1 0
  let dx : Int := bits e.1 47 32; let dy : Int := bits e.1 63 48
  let around := kind = 1 ∨ kind = 3
  let i0 := signedOf 32 (bits p 31 0); let j0 := signedOf 32 (bits p 63 32)
  let v (i j : Int) : Int := (bits e.1 31 16 : Int) + i * signedOf 16 (bits e.2 15 0) + j * signedOf 16 (bits e.2 31 16)
  let named (i j : Int) : Prop :=
    0 ≤ v i j ∧ v i j < (128 * s.m.nOf (siteOf s.cid) : Nat) ∧ s.m.coreOfVcn (siteOf s.cid) (v i j).toNat ≠ none
  let sound := bit e.1 15 = true ∧ dx ≠ 0 ∧ dy ≠ 0 ∧ (kind ≤ 1 → dy = 1)
  let isHandle (i j : Int) : Prop :=
    bits r 15 0 = (v i j).toNat % 2 ^ 16 ∧ bits r 31 16 = s.m.modnum.toNat ∧
      bits r 47 32 = (s.m.site (siteOf s.cid)).epoch % 2 ^ 16 ∧ bits r 63 48 = handleCheck r
  (¬ sound → r = 0#64) ∧
  (sound → around → (named (i0 % dx) (j0 % dy) → isHandle (i0 % dx) (j0 % dy)) ∧ (¬ named (i0 % dx) (j0 % dy) → r = 0#64)) ∧
  (sound → ¬ around → 0 ≤ i0 ∧ i0 < dx ∧ 0 ≤ j0 ∧ j0 < dy → (named i0 j0 → isHandle i0 j0) ∧ (¬ named i0 j0 → r = 0#64)) ∧
  (sound → ¬ around → ¬ (0 ≤ i0 ∧ i0 < dx ∧ 0 ≤ j0 ∧ j0 < dy) → r = 0#64)
end Sys2Proof.Claims

/-- R434: HQRY writes the handle that a shape gives for a position, 0 where it gives none, and raises BADOPND for a shape number above
15. HSELF writes the core's own handle (R432); a handle holds its VCN, module and epoch with their check, and any change of the
check alone is noticed (R22). -/
def Obligations.HandleInstructions : Prop :=
  (∀ (f : Dest) (s s1 s2 : State), Reads s [] (some (.reg, f.a)) [] s1 → writeDst f.a (s1.m.selfHandle s1.cid) s1 = .ok ((), s2) →
    exec (.hself f) s = .next (s.retire s2)) ∧
  (∀ (f : Bin) (s s1 : State) (l : List Word), Reads s [⟨f.b, f.kb, .addr⟩, ⟨f.c, f.kc, .addr⟩] (some (.reg, f.a)) l s1 →
    (bits (arg l 1) 63 4 ≠ 0 → exec (.hqry f) s = .next (s.faulted { cause := .badopnd })) ∧
    (bits (arg l 1) 63 4 = 0 → ∀ r s2, ShapeGives s1 (arg l 1) (arg l 0) r → writeDst f.a r s1 = .ok ((), s2) →
      exec (.hqry f) s = .next (s.retire s2))) ∧
  (∀ vcn mod gen, vcn < 2 ^ 16 → mod < 2 ^ 16 → gen < 2 ^ 16 →
    let h := mkHandle vcn mod gen
    bits h 15 0 = vcn ∧ bits h 31 16 = mod ∧ bits h 47 32 = gen ∧ bits h 63 48 = handleCheck h ∧
      ∀ (m : Module) (s : Nat) (g : Word), bits g 47 0 = bits h 47 0 → bits g 63 48 ≠ bits h 63 48 → m.handleOk s g = false)

/-- R311, R313, R467, R468: SOPEN binds a send or a receive port and answers 0, or says why not; SCLOSE closes one, or where its stream is
broken takes STREAMBRK; SBIND binds a stream register to a copy job. That a receive port opened for the handle of a peer module waits for
a sender that no stream has is the model's reading (DEDUCED, log entry 95). -/
def Obligations.StreamInstructions : Prop :=
  (∀ (f : Bin) (s s1 s2 : State) (l : List Word) (n : Nat),
    Reads s [⟨f.b, f.kb, .addr⟩, ⟨f.c, f.kc, .addr⟩] (some (.reg, f.a)) l s1 → StreamWord s1 (arg l 1) n true →
    (f.b ≠ 41#6 → s1.m.handleOk (siteOf s1.cid) (arg l 0) = true) →
    (s1.core.boundTo s1.aid n = true → writeDst f.a 3#64 s1 = .ok ((), s2) → exec (.sopen f) s = .next (s.retire s2)) ∧
    (s1.core.boundTo s1.aid n = false → (Tab.find s1.core.ports.recv n).isSome = true → writeDst f.a 4#64 s1 = .ok ((), s2) →
      exec (.sopen f) s = .next (s.retire s2)) ∧
    (s1.core.boundTo s1.aid n = false → Tab.find s1.core.ports.recv n = none →
      let from_ := if f.b = 41#6 then none
        else if bits (arg l 0) 31 16 = s1.m.modnum.toNat then s1.m.coreOfVcn (siteOf s1.cid) (bits (arg l 0) 15 0) else some niAgent
      writeDst f.a 0#64 (onPorts s1 fun p =>
        { p with recv := Tab.put p.recv n { aid := s1.aid, from_ := from_, last := s1.m.time } }) = .ok ((), s2) →
      exec (.sopen f) s = .next (s.retire s2))) ∧
  (∀ (f : Bin) (s s1 s2 : State) (l : List Word) (n : Nat),
    Reads s [⟨f.b, f.kb, .addr⟩, ⟨f.c, f.kc, .addr⟩] (some (.reg, f.a)) l s1 → StreamWord s1 (arg l 1) n false →
    s1.m.handleOk (siteOf s1.cid) (arg l 0) = true → bits (arg l 0) 31 16 = s1.m.modnum.toNat →
    let mine := s1.core.ports.send.any fun p => p.aid == s1.aid && !p.closing
    let used := (s1.core.ports.send.filter fun p => !p.closing).length
    (mine = true → writeDst f.a 1#64 s1 = .ok ((), s2) → exec (.sopen f) s = .next (s.retire s2)) ∧
    (mine = false → 4 ≤ used → writeDst f.a 2#64 s1 = .ok ((), s2) → exec (.sopen f) s = .next (s.retire s2)) ∧
    (∀ d, mine = false → used < 4 → s1.m.coreOfVcn (siteOf s1.cid) (bits (arg l 0) 15 0) = some d →
      writeDst f.a 0#64 (onPorts s1 fun p => { p with send := p.send ++ [{ aid := s1.aid, dcid := d, n := n, last := s1.m.time }] })
        = .ok ((), s2) → exec (.sopen f) s = .next (s.retire s2))) ∧
  (∀ (f : ScloseF) (s s1 s2 : State) (l : List Word) (n : Nat), Reads s [⟨f.c, f.kc, .addr⟩] (some (.reg, f.a)) l s1 →
    (StreamWord s1 (arg l 0) n true →
      ((Tab.find s1.core.ports.recv n).any (·.aid == s1.aid) = true →
        writeDst f.a 0#64 { s1 with m := s1.m.endRecv s1.cid n } = .ok ((), s2) → exec (.sclose f) s = .next (s.retire s2)) ∧
      ((Tab.find s1.core.ports.recv n).any (·.aid == s1.aid) = false → writeDst f.a 1#64 s1 = .ok ((), s2) →
        exec (.sclose f) s = .next (s.retire s2))) ∧
    (StreamWord s1 (arg l 0) n false →
      ((s1.core.ports.send.any fun p => p.aid == s1.aid && !p.closing) = false → writeDst f.a 1#64 s1 = .ok ((), s2) →
        exec (.sclose f) s = .next (s.retire s2)) ∧
      (∀ p, s1.core.ports.send.find? (fun p => p.aid == s1.aid && !p.closing) = some p → p.route ≠ 3 →
        writeDst f.a 0#64 { s1 with m := s1.m.onCore s1.cid fun c => c.closeSend s1.aid } = .ok ((), s2) →
        exec (.sclose f) s = .next (s.retire s2)) ∧
      (∀ p, s1.core.ports.send.find? (fun p => p.aid == s1.aid && !p.closing) = some p → p.route = 3 →
        exec (.sclose f) s = .next (s.faulted { cause := .streambrk, side := [.sport s.cid s.aid] })))) ∧
  (∀ (f : SbindF) (s s1 s2 : State) (l : List Word), Reads s [⟨f.b, f.kb, .addr⟩, ⟨f.c, f.kc, .addr⟩] (some (.reg, f.a)) l s1 →
    (∀ k, s1.m.bindRefusal s1.cid s1.aid f.n.toNat (bits (arg l 0) 15 0) (arg l 1) = some k →
      writeDst f.a (BitVec.ofNat 64 k) s1 = .ok ((), s2) → exec (.sbind f) s = .next (s.retire s2)) ∧
    (s1.m.bindRefusal s1.cid s1.aid f.n.toNat (bits (arg l 0) 15 0) (arg l 1) = none →
      writeDst f.a 0#64 (onPorts s1 fun p =>
        { p with binds := (p.binds.filter fun b => !(b.aid == s1.aid && b.n == f.n.toNat))
            ++ [⟨s1.aid, f.n.toNat, bits (arg l 0) 15 0, (arg l 1).toNat⟩] }) = .ok ((), s2) →
      exec (.sbind f) s = .next (s.retire s2)))

/-! ## Engine commands -/

namespace Sys2Proof.Claims

/-- A matrix command as its reference entry gives it (R449–R453): operands, destination of the job ID, synchronisation items, the
condition on the operands' fields under which it is accepted, its rounding field, and the words that the unit keeps. -/
structure MatrixRow where
  srcs : List Src
  dst : Opnd
  sig : EngSig
  op : MxOp
  ok : List Word → Prop
  rm : List Word → Option Nat
  words : List Word → Word × Word × Word

/-- R242: a source descriptor. -/
def SourceOk (p : Word) : Prop :=
  bits p 2 0 = 0 ∧ bits p 26 24 = 0 ∧ bits p 63 37 = 0 ∧ (bit p 23 = true ∨ bits p 22 0 < 2 ^ 19)
/-- R243: a region of blocks. -/
def RegionOk (q : Word) : Prop :=
  1 ≤ bits q 5 3 ∧ bits q 2 0 + bits q 5 3 ≤ 6 ∧ 1 ≤ bits q 13 10 ∧ bits q 9 6 + bits q 13 10 ≤ 12
/-- R244: types 0, 4 and 10–14; SC is 1 for type 14, either for 12 and 13, and 0 for the others. -/
def TypeOk (t : Nat) (sc : Bool) : Prop :=
  (t = 0 ∨ t = 4 ∨ 10 ≤ t ∧ t ≤ 14) ∧ (t = 14 → sc = true) ∧ (t = 12 ∨ t = 13 ∨ t = 14 ∨ sc = false)
/-- R244: a latch shape, whose image fills 24,576 bytes at the most. -/
def LatchOk (q : Word) : Prop :=
  TypeOk (bits q 3 0) (bit q 17) ∧ 8 ≤ bits q 14 4 ∧ bits q 14 4 ≤ 1024 ∧ bits q 14 4 % 8 = 0 ∧ 1 ≤ bits q 16 15 ∧
    bits q 63 41 = 0 ∧ (mxShape q).image ≤ 24576
/-- R244: the control word of MXMMA. -/
def ControlOk (q : Word) : Prop := RegionOk q ∧ TypeOk (bits q 17 14) (bit q 18) ∧ bits q 63 43 = 0
/-- R245: the two words of MXDRN. -/
def DrainOk (p q : Word) : Prop :=
  RegionOk q ∧ bits p 63 52 = 0 ∧ bits q 63 28 = 0 ∧ bits p 2 0 = 0 ∧ bits p 21 19 = 0 ∧ 8 ≤ bits p 31 19 ∧ bits p 32 32 = 0 ∧
    2 ≤ bits q 27 24 ∧ bits q 27 24 ≤ 6 ∧
    (if bit q 22 then bits q 17 14 ≤ 2 ∧ bits q 20 18 = 0
     else 9 ≤ bits q 17 14 ∧ bits q 17 14 ≤ 13 ∧ (bits q 20 18 ≤ 4 ∨ bits q 20 18 = 7)) ∧
    32 * bits q 13 10 * (mxDst p q).w ≤ bits p 31 19 ∧ bits p 18 0 + 32 * bits q 5 3 * bits p 31 19 + 8 ≤ 2 ^ 19

def matrixRow : Instr → Option MatrixRow
  | .mxld f => some ⟨[⟨f.p, f.kp, .addr⟩, ⟨f.q, f.kq, .addr⟩], f.a, f.sig, .ld, fun l => SourceOk (arg l 0) ∧ LatchOk (arg l 1),
      fun _ => none, fun l => (arg l 0, arg l 1, 0#64)⟩
  | .mxmma f => some ⟨[⟨f.p, f.kp, .addr⟩, ⟨f.q, f.kq, .addr⟩], f.a, f.sig, .mma, fun l => SourceOk (arg l 0) ∧ ControlOk (arg l 1),
      fun _ => none, fun l => (arg l 0, arg l 1, 0#64)⟩
  | .mxdrn f => some ⟨[⟨f.p, f.kp, .addr⟩, ⟨f.q, f.kq, .addr⟩, ⟨f.h, f.kh, .addr⟩], f.a, f.sig, .drn,
      fun l => DrainOk (arg l 0) (arg l 1),
      fun l => if bit (arg l 1) 22 then none else some (bits (arg l 1) 20 18), fun l => (arg l 0, arg l 1, arg l 2)⟩
  | .mxrot f => some ⟨[], f.a, f.sig, .rot f.n.toNat, fun _ => True, fun _ => none, fun _ => (0#64, 0#64, 0#64)⟩
  | .mxzero f => some ⟨[⟨f.q, f.kq, .addr⟩], f.a, f.sig, .zero, fun l => RegionOk (arg l 0) ∧ bits (arg l 0) 63 14 = 0,
      fun _ => none, fun l => (0#64, arg l 0, 0#64)⟩
  | .mxgang f => some ⟨[], f.a, f.sig, .gang (2 ^ f.n.toNat), fun _ => True, fun _ => none, fun _ => (0#64, 0#64, 0#64)⟩
  | _ => none

/-- Leader and size of a slot's gang: itself alone where it has joined none (R247). -/
def gangAt (x : Tile) (k : Nat) : Nat × Nat := Tab.get (k, 1) x.gang k
/-- R262: three flags for each member, from bit 0; the gang's size as a power of two in [25:24]; the slot's place in [28:26]. -/
def statusWord (x : Tile) (k : Nat) : Word :=
  BitVec.ofNat 64 (((upFrom 0 (gangAt x k).2).map fun j => Tab.get 0 x.aflags ((gangAt x k).1 + j) % 8 * 8 ^ j).sum
    + 2 ^ 24 * Nat.log2 (gangAt x k).2 + 2 ^ 26 * (k - (gangAt x k).1))

/-- The flags of the gang of slot k cleared. -/
def flagsCleared (x : Tile) (k : Nat) : Tile :=
  { x with
    aflags := (upFrom (gangAt x k).1 (gangAt x k).2).foldl (fun a k => Tab.put a k 0) x.aflags
    zeroAt := x.zeroAt.map fun z => (z.1, (upFrom (gangAt x k).1 (gangAt x k).2).foldl Tab.del z.2) }
/-- The tile as an MXSTAT of a cycle reads it: flags that an MXZERO of that cycle has cleared still count (R465). -/
def withZeroed (x : Tile) (time : Nat) : Tile :=
  match x.zeroAt with
  | some z =>
    if z.1 = time then { x with aflags := z.2.foldl (fun a e => Tab.put a e.1 (Tab.get 0 a e.1 ||| e.2)) x.aflags } else x
  | none => x

/-- Latches, accumulators, flags and queues of every tile, and group memory, as they were. -/
def UnitsKept (s t : State) : Prop := t.m.tiles = s.m.tiles ∧ t.m.groups = s.m.groups

/-- What a push takes from its issuer (R87, R148, R236, R241, R268): everything earlier is accepted; the counter advances where the
command rounds under RSH; the next ring entry of the context is taken, with the next job ID of the core's sequence, which the
destination receives. `cp` tells the copy engine from the matrix unit; u is the state after, b what the command keeps. -/
def PushesFrom (i : Instr) (cp : Bool) (sig : EngSig) (a : Opnd) (rm : Option Nat) (s t : State) (b : Issuer) (u : State) : Prop :=
  let mode := match rm with
    | some 7 => swRm t.sw
    | some r => r
    | none => 0
  let t1 := if rm.isSome = true ∧ mode = 4 then withSw t swTick else t
  let job := (if cp then t.core.jobCp.last else t.core.jobMx.last) % 65535 + 1
  let push (j : JobSeq) : JobSeq := { last := j.last % 65535 + 1, st := Tab.put j.st (j.last % 65535 + 1) .queued }
  Settled t ∧
  ∃ seq m, t1.m.cprPush t.cid t.ctx (((encode i).map (·.head)).getD 0) job s.win.ctl.pc t.win.ctl = some (seq, m) ∧
    (let m1 := m.onCore t.cid fun c => if cp then { c with jobCp := push c.jobCp } else { c with jobMx := push c.jobMx }
     writeDst a (BitVec.ofNat 64 job) { t1 with m := m1 } = .ok ((), u)) ∧
    b = { cid := t.cid, key := t.key, aid := t.aid, ctx := t.ctx, seq := seq, job := job, pc := s.win.ctl.pc, super := t.super
          pk := t.core.spec.pk, seed := t.core.spec.seed, sw := t.sw, rshc := swRshc t.sw, rm := mode, sig := sig }

/-- The state after the commit of a push (R360: a STEP names its sequence number and job). -/
def issued (s t : State) (b : Issuer) : State := t.commit s.key s.win.ctl.pc (swSs s.sw) (.step b.seq b.job)

/-- A copy command in queue q of its tile, behind those that wait, to start four cycles later at the earliest; one pushed
before a late fault of its queue is delivered is cancelled (R266, R268, R274). -/
def copyQueued (t u : State) (q : Nat) (c : CpCmd) : State :=
  { u with m := u.m.onTile (tileOf t.cid) fun x =>
      { x with cpq := Tab.put x.cpq q (Tab.get [] x.cpq q ++ [{ c with due := u.m.time + 4, cancel := x.cpcancel.contains q }]) } }

/-- The queue of a push: the core's own, or a system queue (R266). -/
def copyQueue (s : State) (sq : BitVec 2) : Nat := if sq = 0#2 then slotOf s.cid else 7 + sq.toNat
/-- That queue has room, and the push may name it (R266). -/
def QueueOk (s : State) (sq : BitVec 2) : Prop :=
  (sq = 0#2 ∨ s.super = true) ∧ (Tab.get [] (s.m.tile (tileOf s.cid)).cpq (copyQueue s sq)).length < 16

/-- The copy commands of R407, with their operations. -/
def copyRow : Instr → Option (CpOp × CpF)
  | .cpy f => some (.cpy, f)
  | .cp2d f => some (.cp2d, f)
  | .gath f => some (.gath, f)
  | .scat f => some (.scat, f)
  | .cpyx f => some (.cpyx, f)
  | _ => none

end Sys2Proof.Claims

/-- R157, R241–R245, R247, R261, R262, R449–R454: a matrix command whose descriptors keep their rules joins the queue of its core's
slot, behind the commands that wait there, and its destination receives the job ID; every other queue, every latch, accumulator and flag,
and group memory stay as they were; a descriptor that breaks a rule raises ILLOP.
MXSTAT writes the flags of the gang's accumulators, its size and the core's place in it, the flags of the steps that take effect
in this cycle ORed first and those that an MXZERO of this cycle clears still there (R465); MXSTAT.clr also clears the flags. -/
def Obligations.MatrixCommandsQueue : Prop :=
  (∀ (i : Instr) (r : MatrixRow) (s t : State) (l : List Word), matrixRow i = some r → Reads s r.srcs (some (.reg, r.dst)) l t →
     (¬ r.ok l → exec i s = .next (s.faulted { cause := .illop })) ∧
     (∀ (b : Issuer) (u : State), r.ok l →
       (r.op = .drn → t.m.handleOk (siteOf t.cid) (arg l 2) = true ∧ bits (arg l 2) 31 16 = t.m.modnum.toNat) →
       (Tab.get [] (t.m.tile (tileOf t.cid)).mxq (slotOf t.cid)).length < 16 →
       PushesFrom i false r.sig r.dst (r.rm l) s t b u →
       let m := u.m.onTile (tileOf t.cid) fun x =>
         let c : MxCmd := { op := r.op, p := (r.words l).1, q := (r.words l).2.1, h := (r.words l).2.2, by_ := b
                            ready := u.m.time + 4, cancel := x.mxcancel.contains (slotOf t.cid) }
         { x with mxq := Tab.put x.mxq (slotOf t.cid) (Tab.get [] x.mxq (slotOf t.cid) ++ [c]) }
       UnitsKept s u ∧ exec i s = .next (issued s { u with m := m } b))) ∧
  (∀ (f : Dest) (s t u : State), Reads s [] (some (.reg, f.a)) [] t →
     let n := t.m.dueSteps (tileOf t.cid) (t.m.tile (tileOf t.cid)).steps.length
     let x := withZeroed (n.tile (tileOf t.cid)) n.time
     let m := n.onTile (tileOf t.cid) fun x => flagsCleared x (slotOf t.cid)
     (writeDst f.a (statusWord x (slotOf t.cid)) { t with m := n } = .ok ((), u) → exec (.mxstat f) s = .next (s.retire u)) ∧
     (writeDst f.a (statusWord x (slotOf t.cid)) { t with m := m } = .ok ((), u) → exec (.mxstatClr f) s = .next (s.retire u)))

/-- R266–R270, R276, R286, R288, R407, R408, R418, R431: a copy command whose descriptor keeps its rules joins its queue and its
destination receives the job ID: CPY with its length in H; the others with the 64 bytes at H, aligned in the own LM; DTLD with its
entries and slot in H. Every other queue of the tile, its latches, accumulators and flags, and group memory stay as they were. -/
def Obligations.CopyCommandsQueue : Prop :=
  (∀ (f : CpF) (s t u : State) (l : List Word) (b : Issuer),
    Reads s [⟨f.p, f.kp, .addr⟩, ⟨f.q, f.kq, .addr⟩, ⟨f.h, f.kh, .addr⟩] (some (.reg, f.a)) l t → f.dsc = false →
    QueueOk t f.sq → bits (arg l 2) 63 32 = 0 → PushesFrom (.cpy f) true f.sig f.a none s t b u →
    let d : CpDesc := { len := bits (arg l 2) 31 0 }
    (CpCmd.groupOk { op := .cpy, p := arg l 0, q := arg l 1, h := arg l 2, d := d } = true) →
    UnitsKept s u ∧ exec (.cpy f) s =
      .next (issued s (copyQueued t u (copyQueue t f.sq) { op := .cpy, p := arg l 0, q := arg l 1, h := arg l 2, d := d, by_ := b }) b)) ∧
  (∀ (i : Instr) (op : CpOp) (f : CpF) (s t u : State) (l : List Word) (b : Issuer) (bs : List Byte) (m : Module),
    copyRow i = some (op, f) → Reads s [⟨f.p, f.kp, .addr⟩, ⟨f.q, f.kq, .addr⟩, ⟨f.h, f.kh, .addr⟩] (some (.reg, f.a)) l t →
    (op = .cpy → f.dsc = true) → QueueOk t f.sq → (arg l 2).toNat % 64 = 0 → (arg l 2).toNat < 2 ^ 19 →
    lmLoad t.cid t.cid (arg l 2).toNat 64 t.super (arg l 2).toNat t.m = .ok (bs, m) →
    let c : CpCmd := { op := op, p := arg l 0, q := arg l 1, h := arg l 2, d := CpDesc.decode (leNat bs) }
    t.m.descOk { c with by_ := { cid := t.cid, super := t.super } } (leNat bs) = true → (op = .cpyx → c.spans = false) →
    PushesFrom i true f.sig f.a (if op = .cpyx then xfRm c.d.xf c.d.par else none) s { t with m := m } b u →
    UnitsKept s u ∧ exec i s = .next (issued s (copyQueued t u (copyQueue t f.sq) { c with by_ := b }) b)) ∧
  (∀ (f : DtldF) (s t u : State) (l : List Word) (b : Issuer),
    Reads s [⟨f.q, f.kq, .addr⟩, ⟨f.h, f.kh, .addr⟩] (some (.reg, f.a)) l t → QueueOk t f.sq →
    (arg l 0).toNat % 8 = 0 → 1 ≤ bits (arg l 1) 12 4 → bits (arg l 1) 12 4 ≤ 256 → bits (arg l 1) 63 13 = 0 →
    PushesFrom (.dtld f) true f.sig f.a none s t b u →
    UnitsKept s u ∧ exec (.dtld f) s = .next (issued s (copyQueued t u (copyQueue t f.sq)
      { op := .dtld, q := arg l 0, h := arg l 1, d := { len := bits (arg l 1) 12 4 }, by_ := b }) b))

/-! ## Vector instructions -/

namespace Sys2Proof.Claims

/-- A vector source, and a general source. -/
def vsrc (a : Opnd) (k : Bool) : Option VSrc := some ⟨a, k, true⟩
def gsrc (a : Opnd) (k : Bool) : Option VSrc := some ⟨a, k, false⟩

/-- The compute forms of R489: A is read for the lanes that it keeps, under F = 0 and a mask; floats round with RM. -/
def vform (f : VecF) (c d : Option VSrc) (rounds : Bool) : VUse :=
  { b := vsrc f.b f.kb, c := c, d := d, m := gsrc f.m f.km, dst := some (true, f.a), keep := !f.zero && f.m ≠ opZ
    rm := if rounds && decide (8 ≤ f.ty.toNat) then some f.rm.toNat else none }
/-- The memory forms of R497. -/
def vload (f : VMemF) (c : Option VSrc) : VUse :=
  { b := gsrc f.b f.kb, c := c, m := gsrc f.m f.km, dst := some (true, f.a) }
def vstore (f : VMemF) (c : Option VSrc) : VUse :=
  { b := gsrc f.b f.kb, c := c, d := vsrc f.a f.ka, m := gsrc f.m f.km }

/-- What each vector instruction reads, writes and rounds (R489, R492, R495, R497, R499). -/
def vectorRow : Instr → Option VUse
  | .vadd f => some (vform f (vsrc f.c f.kc) none true)
  | .vsub f => some (vform f (vsrc f.c f.kc) none true)
  | .vmul f => some (vform f (vsrc f.c f.kc) none true)
  | .vfma f => some (vform f (vsrc f.c f.kc) (vsrc f.d f.kd) true)
  | .vmin f => some (vform f (vsrc f.c f.kc) none false)
  | .vmax f => some (vform f (vsrc f.c f.kc) none false)
  | .vabs f => some (vform f none none false)
  | .vneg f => some (vform f none none false)
  | .vand f => some (vform f (vsrc f.c f.kc) none false)
  | .vor f => some (vform f (vsrc f.c f.kc) none false)
  | .vxor f => some (vform f (vsrc f.c f.kc) none false)
  | .vshl f => some (vform f (vsrc f.c f.kc) none false)
  | .vshr f => some (vform f (vsrc f.c f.kc) none false)
  | .vsar f => some (vform f (vsrc f.c f.kc) none false)
  | .vcmp f => some { vform f (vsrc f.c f.kc) none false with dst := some (false, f.a), keep := false }
  | .vsel f => some (vform f (vsrc f.c f.kc) (gsrc f.d f.kd) false)
  | .vcvt f => some { vform f none none false with rm := some f.rm.toNat }
  | .vdot f => some (vform f (vsrc f.c f.kc) (vsrc f.d f.kd) true)
  | .vred f => some { vform f none none false with
      keep := false, rm := if 8 ≤ f.ty.toNat then some f.rm.toNat else none }
  | .vperm f => some (vform f (vsrc f.c f.kc) none false)
  | .vld f => some (vload f none)
  | .vst f => some (vstore f none)
  | .vlds f => some (vload f (gsrc f.c f.kc))
  | .vsts f => some (vstore f (gsrc f.c f.kc))
  | .vgath f => some (vload f (vsrc f.c f.kc))
  | .vmov f => some { b := vsrc f.b f.kb, dst := some (true, f.a) }
  | .vbc f => some { b := gsrc f.b f.kb, dst := some (true, f.a) }
  | .vext f => some { b := vsrc f.b f.kb, dst := some (false, f.a) }
  | .vins f => some { b := vsrc f.b f.kb, c := gsrc f.c f.kc, dst := some (true, f.a) }
  | _ => none

/-- R486: fields of the right kind. -/
def KindOk (vec : Bool) (a : Opnd) : Prop := if vec then a.toNat < 16 else a.toNat < 32 ∨ a.toNat = 41
def RolesOk (u : VUse) : Prop := (∀ x ∈ u.srcs, KindOk x.vec x.code) ∧ ∀ p, u.dst = some p → KindOk p.1 p.2
/-- R82, R83, R486: every register that is read is live. -/
def AllLive (s : State) (u : VUse) : Prop := ∀ r ∈ u.reads, if r.1 then s.win.liveV r.2 = true else s.win.live r.2 = true
/-- No general register that is read holds an uncorrectable word. -/
def Sound (s : State) (u : VUse) : Prop := ∀ r ∈ u.reads, r.1 = false → r.2 ∉ s.win.bad

/-- RSHC as a vector instruction takes it at commit: advanced once where its mode is RSH (R487). -/
def ticked (s : State) (u : VUse) : State :=
  match u.rm with
  | some r => if modeOf r s.sw = 4 then withSw s swTick else s
  | none => s

/-- The instruction committed (R82, R87, R487, R488): its operands captured, its ring entry in m under number n, errors in what it reads
found (R90), its last uses dead, its destination live with what it held, and the instruction at the end of the core's vector
queue. -/
def vectorQueued (i : Instr) (u : VUse) (s : State) (n : Nat) (m : Module) : State :=
  let b := s.begun
  let value (dflt : Nat) (x : Option VSrc) : Nat :=
    match x with
    | none => dflt
    | some x => if x.code = opZ then dflt else if x.vec then (s.win.vr x.code.toNat).toNat else (s.win.gr x.code.toNat).toNat
  let old := match u.dst with
    | some (true, a) => if s.win.liveV a.toNat then s.win.vr a.toNat else 0
    | _ => 0
  let t := { ticked b u with m := m.regLost s.cid s.key u.readKeys }
  let t := t.setWin (vecRegs b.m.time t.win u)
  let op : VOp :=
    { i := i, key := s.key, ctx := s.ctx, aid := s.aid, seq := n, pc := s.win.ctl.pc, sw := s.sw, rshc := swRshc s.sw
      seed := s.core.spec.seed, b := value 0 u.b, c := value 0 u.c, d := value 0 u.d, m := value (2 ^ 512 - 1) u.m, old := old
      bad := u.reads.any fun r => r.1 && s.win.bad.contains (32 + r.2), started := false, pos := 0, got := 0 }
  { t with m := t.m.onCore s.cid fun c => { c with vq := c.vq ++ [op] } }

/-- The result of R157 and R487 where it lands in a window: the destination holds it and is live, and nothing else changes. -/
def RetiresInto (w x : Win) (dst : Option (Bool × Opnd)) (v : Nat) : Prop :=
  (∀ r, r < 16 → (∀ a, dst = some (true, a) → a.toNat ≠ r) → x.vr r = w.vr r ∧ x.liveV r = w.liveV r) ∧
  (∀ r, r < 32 → (∀ a, dst = some (false, a) → a.toNat ≠ r) → x.gr r = w.gr r ∧ x.live r = w.live r) ∧
  (∀ a, dst = some (true, a) → a.toNat < 16 → x.vr a.toNat = BitVec.ofNat 512 v ∧ x.liveV a.toNat = true) ∧
  (∀ a, dst = some (false, a) → a.toNat < 32 → x.gr a.toNat = BitVec.ofNat 64 v ∧ x.live a.toNat = true) ∧
  x.ctl.sw = w.ctl.sw ∧ x.ctl.pc = w.ctl.pc

/-- What a vector instruction leaves of the machine when it commits, from s to t: every register that it does not name as destination
keeps its value, and is dead where a last use has killed it; latches, accumulators, engine queues and group memory stay; and so
does every byte of memory but the 32 of its ring entry, at loc. -/
def VectorFrame (u : VUse) (s t : State) (loc : Nat) : Prop :=
  (∀ r, r < 16 → (∀ a, u.dst = some (true, a) → a.toNat ≠ r) → t.win.vr r = s.win.vr r ∧
    (t.win.liveV r = true ↔ s.win.liveV r = true ∧ ∀ x ∈ u.srcs, x.k = true → x.vec = true → x.code.toNat ≠ r)) ∧
  (∀ r, r < 32 → (∀ a, u.dst = some (false, a) → a.toNat ≠ r) → t.win.gr r = s.win.gr r ∧
    (t.win.live r = true ↔ s.win.live r = true ∧ ∀ x ∈ u.srcs, x.k = true → x.vec = false → x.code.toNat ≠ r)) ∧
  UnitsKept s t ∧ ∀ a, a < loc ∨ loc + 32 ≤ a → Mem.get t.m.mem a = Mem.get s.m.mem a

/-- The lanewise forms, with the VOP codes of R129. -/
def laneForm : Instr → Option (Nat × VecF)
  | .vadd f => some (0, f)
  | .vsub f => some (1, f)
  | .vmul f => some (2, f)
  | .vfma f => some (3, f)
  | .vmin f => some (4, f)
  | .vmax f => some (5, f)
  | .vabs f => some (6, f)
  | .vneg f => some (7, f)
  | .vand f => some (8, f)
  | .vor f => some (9, f)
  | .vxor f => some (10, f)
  | .vshl f => some (11, f)
  | .vshr f => some (12, f)
  | .vsar f => some (13, f)
  | .vcmp f => some (14, f)
  | .vsel f => some (15, f)
  | .vperm f => some (19, f)
  | _ => none

/-- Lane i of a result: what an active lane gets; else the old lane, or zero under F (R490). -/
def laneOf (o : VOp) (f : VecF) (w i : Nat) (v : Nat) : Nat :=
  if Nat.testBit o.m i then v else if f.zero then 0 else laneAt w o.old.toNat i

/-- The exact integer results of R490. -/
def laneExact (vop : Nat) (x y z : Int) : Int :=
  match vop with
  | 0 => x + y
  | 1 => x - y
  | 2 => x * y
  | 3 => x * y + z
  | 4 => if x ≤ y then x else y
  | 5 => if x ≤ y then y else x
  | 6 => if x < 0 then -x else x
  | _ => -x
/-- R138, R490: modulo 2^w, or the nearest value of the type. -/
def laneNarrow (ty : Nat) (sat : Bool) (x : Int) : Nat :=
  truncTo (Num.widthOf ty) (if sat then max (Num.intMin ty) (min (Num.intMax ty) x) else x)

/-- The comparisons of R492 on integers. -/
def laneHolds (cnd : Nat) (x y : Int) : Bool :=
  match cnd with
  | 0 => decide (x = y)
  | 1 => decide (x < y)
  | 2 => decide (x ≤ y)
  | _ => decide (x ≠ y)

/-- The rounding mode and the RSH value of lane i (R147, R148, R487). -/
def laneMode (o : VOp) (f : VecF) : Nat := modeOf f.rm.toNat o.sw
def laneHash (o : VOp) (i : Nat) : Nat := Num.rshHash o.seed.toNat i o.rshc.toNat
/-- The float results of R490 in lane i, with their flags. -/
def floatLane (o : VOp) (f : VecF) (vop i : Nat) : Nat × Nat :=
  let F := Num.fmtOf f.ty.toNat
  let b := laneAt F.w o.b i; let c := laneAt F.w o.c i; let d := laneAt F.w o.d i
  match vop with
  | 0 => F.deliver (laneMode o f) (laneHash o i) f.sat (Num.addVal (laneMode o f) (F.val b) (F.val c))
  | 1 => F.deliver (laneMode o f) (laneHash o i) f.sat (Num.addVal (laneMode o f) (F.val b) (F.val c).neg)
  | 2 => F.deliver (laneMode o f) (laneHash o i) f.sat (Num.mulVal (F.val b) (F.val c))
  | 3 => F.deliver (laneMode o f) (laneHash o i) f.sat (Num.fmaVal (laneMode o f) (F.val b) (F.val c) (F.val d))
  | 4 => (F.minMax false b c, 0)
  | 5 => (F.minMax true b c, 0)
  | 6 => (b % 2 ^ (F.w - 1), 0)
  | _ => ((b + 2 ^ (F.w - 1)) % 2 ^ F.w, 0)
/-- The flags of the active lanes below n, ORed. -/
def flagsOf (o : VOp) (n : Nat) (g : Nat → Nat × Nat) : Nat :=
  ((upFrom 0 n).filter fun i => Nat.testBit o.m i).foldl (fun a i => a ||| (g i).2) 0
/-- Element i of a VCVT (R493). -/
def convertLane (o : VOp) (f : VecF) (i : Nat) : Nat × Nat :=
  Num.convert f.d.toNat f.ty.toNat (laneMode o f) (laneHash o i) f.sat (laneAt (Num.widthOf f.d.toNat) o.b i)
/-- Destination lane j of a VDOT (R154, R494). -/
def dotLane (o : VOp) (f : VecF) (j : Nat) : Nat × Nat :=
  let w := Num.widthOf f.ty.toNat
  let F := Num.fmtOf f.ty.toNat
  let els := upFrom (32 / w * j) (32 / w)
  if f.ty.toNat ≤ 7 then
    (laneNarrow 2 f.sat (Num.intVal 2 (laneAt 32 o.d j)
      + (els.map fun i => Num.intVal f.ty.toNat (laneAt w o.b i) * Num.intVal f.ty.toNat (laneAt w o.c i)).sum), 0)
  else
    let s := els.foldl (fun (a : Num.Sum) i => a.addEx (Num.mulVal (F.val (laneAt w o.b i)) (F.val (laneAt w o.c i)))) {}
    Num.f32.deliver (laneMode o f) (laneHash o j) false ((s.addEx (Num.f32.val (laneAt 32 o.d j)).addend).ex (laneMode o f))
/-- The tree of R154 on 2^n elements, some of them absent, with the flags of its combinations ORed: element i of the next level is f of
elements 2i and 2i + 1. -/
def treeOf (f : Nat → Nat → Nat → Nat × Nat) : Nat → (Nat → Option Nat) → Option Nat × Nat
  | 0, x => (x 0, 0)
  | n + 1, x =>
    let y (i : Nat) : Option Nat × Nat :=
      match x (2 * i), x (2 * i + 1) with
      | some a, some b => (some (f i a b).1, (f i a b).2)
      | some a, none => (some a, 0)
      | none, z => (z, 0)
    let r := treeOf f n fun i => (y i).1
    (r.1, ((upFrom 0 (2 ^ n)).foldl (fun a i => a ||| (y i).2) 0) ||| r.2)
/-- A combination of VRED at output position i (R495): ROP. -/
def combined (o : VOp) (f : VecF) (i a b : Nat) : Nat × Nat :=
  let ty := f.ty.toNat
  let F := Num.fmtOf ty
  match f.d.toNat with
  | 0 =>
    if ty ≤ 7 then (laneNarrow ty f.sat (Num.intVal ty a + Num.intVal ty b), 0)
    else F.deliver (laneMode o f) (laneHash o i) f.sat (Num.addVal (laneMode o f) (F.val a) (F.val b))
  | 1 =>
    if ty ≤ 7 then (laneNarrow ty false (min (Num.intVal ty a) (Num.intVal ty b)), 0) else (F.minMax false a b, 0)
  | 2 =>
    if ty ≤ 7 then (laneNarrow ty false (max (Num.intVal ty a) (Num.intVal ty b)), 0) else (F.minMax true a b, 0)
  | 3 => (a &&& b, 0)
  | 4 => (a ||| b, 0)
  | _ => (a ^^^ b, 0)

/-- The memory forms of R497. -/
def memForm : Instr → Option (Nat × VMemF)
  | .vld f => some (0, f)
  | .vst f => some (1, f)
  | .vlds f => some (2, f)
  | .vsts f => some (3, f)
  | .vgath f => some (4, f)
  | _ => none
/-- The bits that one access moves: those of an element, and for two E2M1 elements those of their byte (R497). -/
def elemWidth (f : VMemF) : Nat := if f.ty.toNat = 14 then 8 else Num.widthOf f.ty.toNat
/-- The address of element i (R497). -/
def elemAddr (o : VOp) (form : Nat) (f : VMemF) (i : Nat) : Nat :=
  truncTo 64 ((o.b : Int) + f.disp.toInt +
    (if form ≤ 1 then ((i * (elemWidth f / 8) : Nat) : Int)
     else if form ≤ 3 then (i : Int) * signedOf 64 o.c
     else signedOf 32 (laneAt 32 o.c i) * ((elemWidth f / 8 : Nat) : Int)))

/-- The lanes of R491. -/
def laneLogic (vop w x y : Nat) : Nat :=
  match vop with
  | 8 => x &&& y
  | 9 => x ||| y
  | 10 => x ^^^ y
  | 11 => x * 2 ^ (y % w) % 2 ^ w
  | 12 => x / 2 ^ (y % w)
  | _ => truncTo w (signedOf w x / ((2 ^ (y % w) : Nat) : Int))

end Sys2Proof.Claims

/-- R82, R87, R94, R486, R487, R489, R497, R499: a vector instruction whose fields are of the right kind and whose registers are live,
under VE = 1 and with its ring entry free, commits: it takes the sequence number n, and the vector unit gets it with its
operands as they stand. Its frame: what `VectorFrame` says, where no BRK stands in its group and nobody watches the ring entry; and a
result that retires changes its destination alone. That a float VRED of every operation takes RSHC is DEDUCED (log entry 139), and that
operands are captured at commit is the model's choice (DESIGN CHOICE, log entry 37). -/
def Obligations.VectorInstructionsQueue : Prop :=
  (∀ (i : Instr) (u : VUse) (s : State) (n : Nat) (m : Module), vectorRow i = some u → s.Running → bit s.sw 3 = true → RolesOk u →
    AllLive s u → Sound s u →
    (ticked s.begun u).m.cprPush s.cid s.ctx (((encode i).map (·.head)).getD 0) 0 s.win.ctl.pc s.begun.win.ctl = some (n, m) →
    exec i s = .next (s.retire (vectorQueued i u s n m)) ∧
    (let loc := s.m.lmAt s.cid (s.core.cprAt s.ctx (s.core.ctx s.ctx).seq.toNat)
     s.groupNow.brk = none → Mem.wf s.m.mem = true → Unwatched s.m loc 32 →
     VectorFrame u s (s.retire (vectorQueued i u s n m)) loc)) ∧
  (∀ (w : Win) (time : Nat) (dst : Option (Bool × Opnd)) (v : Nat), RetiresInto w (w.vecPut time dst v) dst v)

/-- R81, R94, R109, R486: a vector instruction under VE = 0 raises ILLOP; with a field of the wrong kind BADOPND; with a dead register
DEADREG; each before the next. -/
def Obligations.VectorRefuses : Prop :=
  ∀ (i : Instr) (u : VUse) (s : State), vectorRow i = some u → s.Running →
    (bit s.sw 3 = false → exec i s = .next (s.faulted { cause := .illop })) ∧
    (bit s.sw 3 = true → ¬ RolesOk u → exec i s = .next (s.faulted { cause := .badopnd })) ∧
    (bit s.sw 3 = true → RolesOk u → ¬ AllLive s u → exec i s = .next (s.faulted { cause := .deadreg }))

/-- R490–R499: what the vector unit computes when it runs an instruction. The lanes of a compute form, which changes nothing else: exact
integer arithmetic narrowed to the lane, floats rounded once with the flags of every active lane ORed, bitwise operations and shifts,
comparisons with zeros above the lanes, selection and permutation; an inactive lane keeps its old value, or is zero. VCVT, VDOT and VRED,
the tree of R154 with the flags of its combinations ORed. The moves. And the memory forms, element by element in ascending order: an
inactive one is passed over, an active one is loaded from or stored to its address, an unaligned one is MISALIGN, and a fault ends the
instruction. Stored elements that lie side by side in an aligned 8-byte piece are stored as one (R199). -/
def Obligations.VectorLanes : Prop :=
  (∀ (o : VOp) (cid : Nat) (m : Module) (vop : Nat) (f : VecF) (i : Nat), o.bad = false → laneForm o.i = some (vop, f) →
    f.ty.toNat ≤ 11 → i < lanesOf f.ty.toNat →
    let ty := f.ty.toNat
    let w := Num.widthOf ty
    let x := laneAt w o.b i; let y := laneAt w o.c i
    ∃ v fl, o.run cid m = (m, .done v fl) ∧
      (vop ≤ 7 → 8 ≤ ty → fl = flagsOf o (lanesOf ty) (floatLane o f vop) ∧
        laneAt w v i = laneOf o f w i ((floatLane o f vop i).1 % 2 ^ w)) ∧
      (vop = 14 → v < 2 ^ lanesOf ty) ∧
      (vop = 14 → 8 ≤ ty → fl = flagsOf o (lanesOf ty) (fun j => (0, ((Num.fmtOf ty).cmp f.rm.toNat (laneAt w o.b j) (laneAt w o.c j)).2)) ∧
        laneAt 1 v i = (if Nat.testBit o.m i ∧ ((Num.fmtOf ty).cmp f.rm.toNat x y).1 = true then 1 else 0)) ∧
      (vop ≤ 7 → ty ≤ 7 → fl = 0 ∧
        laneAt w v i =
          laneOf o f w i (laneNarrow ty f.sat (laneExact vop (Num.intVal ty x) (Num.intVal ty y) (Num.intVal ty (laneAt w o.d i))))) ∧
      (8 ≤ vop → vop ≤ 13 → fl = 0 ∧ laneAt w v i = laneOf o f w i (laneLogic vop w x y)) ∧
      (vop = 14 → ty ≤ 7 → fl = 0 ∧ laneAt 1 v i =
        (if Nat.testBit o.m i ∧ laneHolds f.rm.toNat (Num.intVal ty x) (Num.intVal ty y) = true then 1 else 0)) ∧
      (vop = 15 → fl = 0 ∧ laneAt w v i = laneOf o f w i (if Nat.testBit o.d i then x else y)) ∧
      (vop = 19 → fl = 0 ∧ laneAt w v i = laneOf o f w i (laneAt w o.b (y % lanesOf ty)))) ∧
  (∀ (o : VOp) (cid : Nat) (m : Module) (f : VecF) (i : Nat), o.bad = false → o.i = .vcvt f →
    let w := Num.widthOf f.ty.toNat
    let e := min (lanesOf f.ty.toNat) (lanesOf f.d.toNat)
    i < e → ∃ v fl, o.run cid m = (m, .done v fl) ∧ v < 2 ^ (w * e) ∧ fl = flagsOf o e (convertLane o f) ∧
      laneAt w v i = laneOf o f w i ((convertLane o f i).1 % 2 ^ w)) ∧
  (∀ (o : VOp) (cid : Nat) (m : Module) (f : VecF) (j : Nat), o.bad = false → o.i = .vdot f → j < 16 →
    ∃ v fl, o.run cid m = (m, .done v fl) ∧ fl = flagsOf o 16 (dotLane o f) ∧
      laneAt 32 v j = laneOf o f 32 j ((dotLane o f j).1 % 2 ^ 32)) ∧
  (∀ (o : VOp) (cid : Nat) (m : Module) (f : VecF), o.bad = false → o.i = .vred f → f.ty.toNat ≤ 11 →
    o.run cid m = (m,
      let x (i : Nat) : Option Nat := if Nat.testBit o.m i then some (laneAt (Num.widthOf f.ty.toNat) o.b i) else none
      let r := treeOf (combined o f) (Nat.log2 (lanesOf f.ty.toNat)) x
      .done (r.1.getD 0) r.2)) ∧
  (∀ (o : VOp) (cid : Nat) (m : Module) (f : VMovF) (i : Nat), o.bad = false → i < lanesOf f.ty.toNat →
    let w := Num.widthOf f.ty.toNat
    let n := f.lane.toNat
    (o.i = .vmov f → o.run cid m = (m, .done o.b 0)) ∧
    (o.i = .vbc f → ∃ v, o.run cid m = (m, .done v 0) ∧ laneAt w v i = o.b % 2 ^ w) ∧
    (o.i = .vext f → o.run cid m =
      (m, .done (if f.ty.toNat ≤ 3 then truncTo 64 (signedOf w (laneAt w o.b n)) else laneAt w o.b n) 0)) ∧
    (o.i = .vins f → n < lanesOf f.ty.toNat →
      ∃ v, o.run cid m = (m, .done v 0) ∧ laneAt w v i = if i = n then o.c % 2 ^ w else laneAt w o.b i)) ∧
  (∀ (o : VOp) (cid : Nat) (m : Module) (form : Nat) (f : VMemF), o.bad = false → memForm o.i = some (form, f) →
    let i := o.pos
    let w := elemWidth f
    let va := elemAddr o form f i
    let store := form = 1 ∨ form = 3
    (512 / w ≤ i → o.run cid m = (m, .done o.got 0)) ∧
    (i < 512 / w → Nat.testBit o.m i = false → o.run cid m = VOp.run { o with pos := i + 1 } cid m) ∧
    (i < 512 / w → Nat.testBit o.m i = true → va % (w / 8) ≠ 0 →
      o.run cid m = (m, .fault { cause := .misalign, addr := BitVec.ofNat 64 va })) ∧
    (i < 512 / w → Nat.testBit o.m i = true → va % (w / 8) = 0 → ¬ store → ∀ bs n,
      loadAt cid 4 va (w / 8) (swMode o.sw) true m = .ok (bs, n) →
      o.run cid m = VOp.run { o with pos := i + 1, got := o.got + leNat bs * 2 ^ (w * i) } cid n) ∧
    (i < 512 / w → Nat.testBit o.m i = true → va % (w / 8) = 0 → ¬ store → ∀ x,
      loadAt cid 4 va (w / 8) (swMode o.sw) true m = .error (.fault x) → o.run cid m = (m, .fault x)) ∧
    (i < 512 / w → Nat.testBit o.m i = true → va % (w / 8) = 0 → store →
      let k := o.piece form f i
      let data := leBytes (w / 8 * k) (o.d / 2 ^ (w * i) % 2 ^ (w * k))
      (∀ j, j < k → Nat.testBit o.m (i + j) = true ∧ elemAddr o form f (i + j) = va + w / 8 * j ∧ (va + w / 8 * j) / 8 = va / 8) ∧
      (∀ n, storeAt cid 4 va data (swMode o.sw) true m = .ok ((), n) → o.run cid m = VOp.run { o with pos := i + k } cid n) ∧
      (∀ x, storeAt cid 4 va data (swMode o.sw) true m = .error (.fault x) → o.run cid m = (m, .fault x))))

/-! ## Special registers, exceptions, and the return from them -/

namespace Sys2Proof.Claims

/-- R92, R93: the registers that there are; those that user mode may read; those that supervisor mode may write. User mode writes `c.sw`
alone. -/
def SpecialReg (n : Nat) : Prop := n ≤ 7 ∨ (0x010 ≤ n ∧ n ≤ 0x019) ∨ (0x020 ≤ n ∧ n ≤ 0x027)
def UserReads (n : Nat) : Prop := n ≤ 7 ∨ n = 0x013
def SuperWrites (n : Nat) : Prop :=
  n ≤ 2 ∨ n = 5 ∨ (0x010 ≤ n ∧ n ≤ 0x019) ∨ (0x020 ≤ n ∧ n ≤ 0x027)
def MayRead (s : State) (n : Nat) : Prop := SpecialReg n ∧ (s.super = true ∨ UserReads n)
def MayWrite (s : State) (n : Nat) : Prop := if s.super then SuperWrites n else n = 2

/-- The value of each special register (R93–R95, R411). -/
def specialValue (s : State) (n : Nat) : Word :=
  let p := s.core.spec
  match n with
  | 0x000 => p.cycV + BitVec.ofNat 64 (s.m.time - max p.cycT (s.m.site (siteOf s.cid)).ready)
  | 0x001 => p.inst
  | 0x002 => s.sw
  | 0x003 => s.m.selfHandle s.cid
  | 0x004 => p.lat
  | 0x005 => p.seed
  | 0x006 => BitVec.ofNat 64 ((s.m.phy (s.m.pid s.cid)).lmst)
  | 0x007 => (s.core.ctx s.ctx).seq.zeroExtend 64
  | 0x010 => BitVec.ofNat 64 ((s.core.ctx s.ctx).wp.toNat * 64)
  | 0x011 => p.pk.zeroExtend 64
  | 0x012 => p.hbnd
  | 0x013 => p.budget.zeroExtend 64
  | 0x014 => p.upvec
  | 0x015 => p.trvec
  | 0x016 => p.cpr
  | 0x017 => p.frec
  | 0x018 => p.stash
  | 0x019 => p.mxw.zeroExtend 64
  | _ => Tab.get 0 p.guards (n - 0x020)

/-- The special registers of the core changed. -/
def withSpec (s : State) (g : Spec → Spec) : State := { s with m := s.m.onCore s.cid fun c => { c with spec := g c.spec } }

/-- The writable bits of the status word (R94), of `c.hbnd`, `c.frec` and a guard register; the rest read 0 (R4). -/
def swBits : Nat := 0x0000FFFFFFFF1F7F
def hbndMask : Nat := 0x000000FFFFFFFFFF
def frecMask : Nat := 0x800000000007F000
def guardMask : Nat := 0x003F1FFF0007FFC0

/-- A write of v to special register n answers state t (R94, R188, R346, R412). User mode leaves MODE, UPC and SS of `c.sw` as they
are, RM is 0–4, VE 1 → 0 makes v0–v15 dead, and flags that an engine has ORed in this cycle are ORed after the write; `c.cpr` waits for
the outstanding entries, and the register alone is written (DEDUCED, log entry 39), over the CSA with a free value (DESIGN CHOICE, log
entry 127); `c.stash` waits for the lines that other contexts hold reserved and writes its lines back first. -/
def SpecialWritten (n : Nat) (v : Word) (s t : State) : Prop :=
  match n with
  | 0x000 => t = withSpec s fun p => { p with cycV := v, cycT := s.m.time }
  | 0x001 => t = withSpec s fun p => { p with inst := v - 1#64 }
  | 0x002 => (s.super = true ∨ bits v 2 0 = bits s.sw 2 0) ∧ bits v 6 4 ≤ 4 ∧
      (let c := s.win.ctl
       let dead := if bit c.sw 3 = true ∧ bit v 3 = false then 0#16 else c.livev
       let late := if s.win.orNow.1 = s.m.time then s.win.orNow.2 else 0
       t = s.setWin { s.win with ctl := { c with sw := swOr (v &&& BitVec.ofNat 64 swBits) late, livev := dead } })
  | 0x005 => t = { withSpec s fun p => { p with seed := v } with m := (withSpec s fun p => { p with seed := v }).m.stealInit s.cid }
  | 0x010 =>
      let put (c : Core) (k : Nat) : Core := c.onCtx k fun x => { x with wp := v.extractLsb' 6 13 }
      t = { s with m := s.m.onCore s.cid fun c => if bit v 63 then [0, 1, 2, 3].foldl put c else put c s.ctx }
  | 0x011 => t = withSpec s fun p => { p with pk := v.extractLsb' 0 32 }
  | 0x012 => t = withSpec s fun p => { p with hbnd := v &&& BitVec.ofNat 64 hbndMask }
  | 0x013 => t = withSpec s fun p => { p with budget := v.extractLsb' 0 32 }
  | 0x014 => t = withSpec s fun p => { p with upvec := v }
  | 0x015 => t = withSpec s fun p => { p with trvec := v }
  | 0x016 => s.m.cprBusy s.cid = false ∧
      (bits v 18 13 ≠ 0x3F → t = withSpec s fun p => { p with cpr := v &&& 0x7E000#64 }) ∧
      (bits v 18 13 = 0x3F → t = withSpec s fun p => { p with cpr := Config.cprFree v &&& 0x7E000#64 })
  | 0x017 => s.core.frecBad v = false ∧ t = withSpec s fun p => { p with frec := v &&& BitVec.ofNat 64 frecMask }
  | 0x018 => s.core.stashBad v = false ∧ (∀ l ∈ s.core.allLines, s.core.defers s.m.time l (some s.ctx) = false) ∧
      ∃ m, s.m.flushLines s.cid s.core.allLines = .ok () m ∧ t = { s with m := m.setStash s.cid (v &&& 0xFF#64) }
  | 0x019 => bits v 3 0 ≠ 0 ∧ t = withSpec s fun p => { p with mxw := v.extractLsb' 0 4 }
  | _ => t = withSpec s fun p => { p with guards := Tab.put p.guards (n - 0x020) (v &&& BitVec.ofNat 64 guardMask) }

/-- The commit of an instruction that a trap follows: it counts, and its group is closed. -/
def closed (s t : State) : State :=
  { t with m := t.m.onCore s.cid fun c => { c with spec := { c.spec with inst := c.spec.inst + 1#64 } }
           open_ := none }

/-- R345: cause c with sub-cause sub may be delivered as an upcall. -/
def UpcallCause (c : Cause) (sub : Nat) : Prop :=
  c ≠ .pkey ∧ c ≠ .uncorr ∧ c ≠ .hblock ∧ c ≠ .stepped ∧ c ≠ .brkpt ∧ c ≠ .oospace ∧
    (c = .late → sub ≠ Cause.uncorr.code ∧ sub ≠ Cause.pkey.code)

/-- The activation in slot `key` of core `cid` has window w, and R345 gives fault f as an upcall; its record's words can be written. -/
structure Upcalls (m : Module) (cid key : Nat) (w : Win) (f : FInfo) : Prop where
  win : (m.act cid key).win = some w
  slot : key < 64
  cause : UpcallCause f.cause f.sub
  hnd : w.ctl.hnd = false
  user : bit w.ctl.sw 0 = false
  upc : bit w.ctl.sw 1 = false
  en : bit (m.core cid).spec.frec 63 = true
  words : m.wordOk cid (bits (m.core cid).spec.frec 18 12 * 4096 + 64 * key) 64 = true

/-- The fields that every record has (R347): cause, sub-cause, V, PW, SEQ, JOB, the fault's PC and address, where it was, and whose. -/
def recordOf (m : Module) (cid : Nat) (w : Win) (f : FInfo) (pc : Word) : FaultRec :=
  { cause := if f.req then 0 else f.cause.code, sub := f.sub, v := true, pw := f.pw.isSome, seq := f.seq, job := f.job
    pc := f.pcAt.getD pc, addr := f.addr, vcn := m.vcn cid, psite := siteOf cid, pcore := m.pid cid % 144
    lgen := (m.site (siteOf cid)).lgen.toNat, aidv := w.ctl.aidv.toNat, aids := w.ctl.aids.toNat }

end Sys2Proof.Claims

/-- R92–R95, R410–R412: CSRR writes the value of the register; CSRW writes the register; CSRX does both, with the value before the
write. A number that names no register raises ILLOP, and so does a supervisor's write of a read-only register; an access that user
mode may not make raises PRIV. What a write of `c.cpr` does is in part the model's choice: over the CSA the register takes a free value
(DESIGN CHOICE, log entry 127), and otherwise the register alone is written (DEDUCED, log entry 39). -/
def Obligations.SpecialRegisters : Prop :=
  (∀ (f : CsrrF) (s t u : State), MayRead s f.n.toNat → Reads s [] (some (.exec, f.a)) [] t →
    writeDst f.a (specialValue t f.n.toNat) t = .ok ((), u) → exec (.csrr f) s = .next (s.retire u)) ∧
  (∀ (f : CsrwF) (s t u : State) (l : List Word), MayWrite s f.n.toNat → Reads s [⟨f.a, f.ka, .exec⟩] none l t →
    SpecialWritten f.n.toNat (arg l 0) t u → exec (.csrw f) s = .next (s.retire u)) ∧
  (∀ (f : CsrxF) (s t u v : State) (l : List Word), MayWrite s f.n.toNat → Reads s [⟨f.b, f.kb, .exec⟩] (some (.exec, f.a)) l t →
    SpecialWritten f.n.toNat (arg l 0) t u → writeDst f.a (specialValue t f.n.toNat) u = .ok ((), v) →
    exec (.csrx f) s = .next (s.retire v)) ∧
  (∀ (f : CsrrF) (s : State), s.Running →
    (¬ SpecialReg f.n.toNat → exec (.csrr f) s = .next (s.faulted { cause := .illop })) ∧
    (SpecialReg f.n.toNat → s.super = false → ¬ UserReads f.n.toNat → exec (.csrr f) s = .next (s.faulted { cause := .priv }))) ∧
  (∀ (i : Instr) (n : Nat) (s : State), s.Running → (∃ f : CsrwF, i = .csrw f ∧ f.n.toNat = n) ∨ (∃ f : CsrxF, i = .csrx f ∧ f.n.toNat = n) →
    (¬ SpecialReg n → exec i s = .next (s.faulted { cause := .illop })) ∧
    (SpecialReg n → s.super = true → ¬ SuperWrites n → exec i s = .next (s.faulted { cause := .illop })) ∧
    (SpecialReg n → s.super = false → n ≠ 2 → exec i s = .next (s.faulted { cause := .priv })))

/-- R362, R404, R455, R482: NOP changes nothing but the PC. BRK commits and then stops its activation as a supervisor trap; TRAP and
SVC commit and then enter the runtime or the supervisor with a requested record, TRAP as an upcall where R345 allows one; in
supervisor mode both raise ILLOP. That no upcall is taken either by an activation outside the 64 slots or where the words of the record
cannot be written is the model's reading (DEDUCED, log entry 25). -/
def Obligations.TrapInstructions : Prop :=
  (∀ s : State, s.Running → exec .nop s = .next (s.retire s.begun)) ∧
  (∀ s : State, s.Running → s.open_ = none →
    let t := closed s s.begun
    let r := { recordOf t.m s.cid t.win { cause := .brkpt } s.win.ctl.pc with kind := 1 }
    exec .brk s = .next { t with m := (t.m.trapAct s.cid s.key r).freeze s.cid s.key }) ∧
  (∀ (f : CodeF) (s : State), s.Running → s.open_ = none → s.super = false →
    let t := closed s s.begun
    let q : FInfo := { cause := .illop, addr := f.code.zeroExtend 64, req := true }
    (Upcalls t.m s.cid s.key t.win q → exec (.trap f) s = .next { t with m := t.m.upcallAct s.cid s.key t.win q s.win.ctl.pc }) ∧
    (¬ Upcalls t.m s.cid s.key t.win q → exec (.trap f) s =
      .next { t with m := t.m.trapAct s.cid s.key { recordOf t.m s.cid t.win q s.win.ctl.pc with kind := 1 } })) ∧
  (∀ (f : CodeF) (s : State), s.Running → s.super = true →
    exec (.trap f) s = .next (s.faulted { cause := .illop }) ∧ exec (.svc f) s = .next (s.faulted { cause := .illop })) ∧
  (∀ (f : CodeF) (s : State), s.Running → s.open_ = none → s.super = false →
    let t := closed s s.begun
    let q : FInfo := { cause := .hblock, addr := 0x10000#64 + f.code.zeroExtend 64, req := true }
    exec (.svc f) s = .next { t with m := t.m.trapAct s.cid s.key { recordOf t.m s.cid t.win q s.win.ctl.pc with kind := 1 } })

/-- R349: an upcall saves the resume PC in WAITA and the record's address in WAITV, sets WAITK and UPC, puts the record's address and
the cause in g8 and g9, and goes on at `c.upvec`; it writes the record, on whose bytes nobody waits, and nothing else of the
activation or of memory changes. -/
def Obligations.UpcallEntry : Prop :=
  ∀ (m : Module) (cid key : Nat) (w : Win) (f : FInfo) (pc : Word), Upcalls m cid key w f → f.side = [] → Mem.wf m.mem = true →
    Unwatched m (m.lmAt cid (bits (m.core cid).spec.frec 18 12 * 4096 + 64 * key)) 64 →
    let r := bits (m.core cid).spec.frec 18 12 * 4096 + 64 * key
    let m' := m.takeFault cid key f pc
    let rec_ := { recordOf m cid w f pc with
      kind := 0, l8 := w.live 8, l9 := w.live 9, save8 := if w.live 8 then w.gr 8 else 0, save9 := if w.live 9 then w.gr 9 else 0 }
    (∃ w', (m'.act cid key).win = some w' ∧ w'.ctl.pc = (m.core cid).spec.upvec ∧ w'.ctl.waita = w.ctl.pc ∧
      w'.ctl.waitv = BitVec.ofNat 64 r ∧ w'.ctl.waitk = 8#4 ∧ bit w'.ctl.sw 1 = true ∧
      (∀ k, k < 64 → k ≠ 1 → bit w'.ctl.sw k = bit w.ctl.sw k) ∧
      w'.live 8 = true ∧ w'.gr 8 = BitVec.ofNat 64 r ∧ w'.live 9 = true ∧
      w'.gr 9 = BitVec.ofNat 64 (rec_.cause + 256 * f.sub) ∧
      (∀ k, k < 32 → k ≠ 8 → k ≠ 9 → w'.live k = w.live k ∧ w'.gr k = w.gr k) ∧ w'.v = w.v ∧ w'.ctl.livev = w.ctl.livev ∧
      w'.ctl.cls = w.ctl.cls ∧ w'.ctl.budget = w.ctl.budget ∧ w'.ctl.joina = w.ctl.joina) ∧
    (m'.act cid key).st = (m.act cid key).st ∧ m'.lmRead cid r 64 = rec_.encode ∧
    (∀ a, a < m.lmAt cid r ∨ m.lmAt cid r + 64 ≤ a → Mem.get m'.mem a = Mem.get m.mem a)

/-- R352: a fault that R345 does not give as an upcall stops its activation: it is FAULTED, out of its context, with its PC in its
workspace, and where the next entry of the supervisor queue is free it holds the fault's record, of KIND 1. The faults that are no upcall
include those of an activation outside the 64 slots and those whose record cannot be written, which is the model's reading (DEDUCED, log
entry 25). Nobody waits on the bytes of the workspace or of the entry. -/
def Obligations.SupervisorTrap : Prop :=
  ∀ (m : Module) (cid key : Nat) (w : Win) (f : FInfo) (pc : Word), (m.act cid key).win = some w → key < 64 → ¬ Upcalls m cid key w f →
    f.side = [] → Mem.wf m.mem = true → m.flushBad cid (m.act cid key).wp w = none → (m.act cid key).wp + 1344 ≤ 0x7FC40 →
    (m.act cid key).wp % 64 = 0 → m.wordOk cid ((m.act cid key).wp + 1280) 64 = true → (m.core cid).sup.next < 15 →
    (m.supEntry cid (m.core cid).sup.next).v = false → Unwatched m (m.lmAt cid (m.act cid key).wp) 1344 →
    Unwatched m (m.lmAt cid (0x7FC40 + 64 * (m.core cid).sup.next)) 64 →
    let m' := m.takeFault cid key f pc
    (m'.act cid key).st = .faulted ∧ (m'.act cid key).win = none ∧
      (∀ k, (m.act cid key).st = .issuing k → ((m'.core cid).ctx k).act = none) ∧
      (Ctl.decode (Mem.read m'.mem (m.lmAt cid ((m.act cid key).wp + 1280)) 64)).pc = w.ctl.pc ∧
      m'.lmRead cid (0x7FC40 + 64 * (m.core cid).sup.next) 64 =
        ({ recordOf m cid w f pc with kind := 1, lost := (m.core cid).sup.lost } : FaultRec).encode ∧
      (m'.core cid).sup.next = ((m.core cid).sup.next + 1) % 15

/-- R347: where the fields of a fault record lie. -/
def Obligations.FaultRecordLayout : Prop :=
  ∀ r : FaultRec, r.cause < 256 → r.sub < 256 → r.kind < 4 → r.disp < 4 → r.lost < 256 → r.seq < 65536 → r.job < 65536 →
    r.vcn < 65536 → r.psite < 512 → r.pcore < 256 → r.lgen < 2 ^ 32 → r.sseq < 2 ^ 32 → r.svcn < 65536 → r.aidv < 65536 →
    r.aids < 2 ^ 32 →
    let x := leNat r.encode
    r.encode.length = 64 ∧ x % 2 ^ 8 = r.cause ∧ x / 2 ^ 8 % 2 ^ 8 = r.sub ∧ x / 2 ^ 16 % 4 = r.kind ∧
      x / 2 ^ 18 % 2 = r.v.toNat ∧ x / 2 ^ 19 % 2 = r.pw.toNat ∧ x / 2 ^ 20 % 2 = r.l8.toNat ∧ x / 2 ^ 21 % 2 = r.l9.toNat ∧
      x / 2 ^ 22 % 4 = r.disp ∧ x / 2 ^ 24 % 2 ^ 8 = r.lost ∧ x / 2 ^ 32 % 2 ^ 16 = r.seq ∧ x / 2 ^ 48 % 2 ^ 16 = r.job ∧
      x / 2 ^ 64 % 2 ^ 64 = r.pc.toNat ∧ x / 2 ^ 128 % 2 ^ 64 = r.addr.toNat ∧ x / 2 ^ 192 % 2 ^ 16 = r.vcn ∧
      x / 2 ^ 208 % 2 ^ 9 = r.psite ∧ x / 2 ^ 217 % 2 ^ 8 = r.pcore ∧ x / 2 ^ 256 % 2 ^ 32 = r.lgen ∧ x / 2 ^ 288 % 2 ^ 32 = r.sseq ∧
      x / 2 ^ 320 % 2 ^ 16 = r.svcn ∧ x / 2 ^ 336 % 2 ^ 16 = r.aidv ∧ x / 2 ^ 352 % 2 ^ 32 = r.aids ∧
      x / 2 ^ 384 % 2 ^ 64 = r.save8.toNat ∧ x / 2 ^ 448 = r.save9.toNat ∧ FaultRec.decode r.encode = r

namespace Sys2Proof.Claims

/-- The line of t is in the buffer of the focused context, or in a FULL bank of the own LM that no guard closes, and t names an
instruction in it; m′ is the module whose buffer holds the line (R104, R190). -/
def CodeStands (s : State) (t : Word) (m' : Module) : Prop :=
  let base := t.toNat / 64 * 64
  (∃ b who, (s.core.ctx s.ctx).line = some ⟨base, b, who⟩ ∧ addrBad b t = none ∧ m' = s.m) ∨
  ((∀ x, (s.core.ctx s.ctx).line = some x → x.base ≠ base) ∧ base < 2 ^ 19 ∧
    (s.super = true ∨ s.m.lmGuard s.cid s.cid base 64 .fetch = false) ∧
    (s.m.phy (s.m.pid s.cid)).bank (base / 0x8000) = 0 ∧ bit (s.m.phy (s.m.pid s.cid)).failed (base / 0x8000) = false ∧
    s.m.badNow (s.m.lmAt s.cid base) 64 = false ∧ addrBad (s.m.lmRead s.cid base 64) t = none ∧ m' = filled s base)

/-- What URET leaves: g8 and g9 as the record saved them, UPC and WAITK 0, the PC at WAITA, and the record's V bit 0 (R351). -/
def gone (s : State) (m' : Module) : State :=
  let off := s.win.ctl.waitv.toNat % 2 ^ 19
  let r := FaultRec.decode (s.m.lmRead s.cid off 64)
  let t : State := { s.begun with m := m' }
  let put (w : Win) (k : Nat) (l : Bool) (v : Word) : Win := if l then w.setG m'.time k v else w.killG k
  let w := put (put t.win 8 r.l8 r.save8) 9 r.l9 r.save9
  ({ t with m := m'.clearV s.cid off } : State).setWin
    { w with ctl := { w.ctl with sw := setBits w.ctl.sw 1 1 0, waitk := 0#4, pc := s.win.ctl.waita } }

/-- The focused activation is the trap activation, which may execute ERET, and serves entry i of its core (R353). -/
structure Serves (s : State) (i : Nat) : Prop where
  running : s.Running
  mode : s.super = true
  key : s.key = 64
  queue : s.ldQ = [] ∧ s.sdQ = []
  settled : Settled s.begun
  serving : s.core.sup.serving = some i
  entry : i < 15
  ctx : s.act.st = .issuing s.ctx

/-- Nothing but the return happens: nobody waits on the entry, its words can be written, no late fault of the trap activation is
pending, and no entry is deferred. -/
structure Alone (s : State) (i : Nat) : Prop where
  words : s.m.wordOk s.cid (supOff i) 64 = true
  quiet : Unwatched s.m (s.m.lmAt s.cid (supOff i)) 64
  wf : Mem.wf s.m.mem = true
  late : s.act.late = []
  defer : ∀ e ∈ s.core.acts, e.2.defer = none

/-- The trap activation has ended: it and its context are free, the core serves no entry, and the entry's V is 0. -/
def Ended (s t : State) (i : Nat) : Prop :=
  Tab.find (t.m.core s.cid).acts 64 = none ∧ ((t.m.core s.cid).ctx s.ctx).act = none ∧ (t.m.core s.cid).sup.serving = none ∧
    (t.m.supEntry s.cid i).v = false

/-- The activation that entry i names. -/
def named (s : State) (i : Nat) : Nat := Tab.get 64 s.core.sup.keys i

end Sys2Proof.Claims

/-- R133, R351, R353, R421, R485: URET restores g8 and g9 from the record, frees it, clears UPC and goes on where the activation was,
if the line there names an instruction; with a page wait armed it suspends, and with a cancelled one its activation goes FAULTED;
without UPC it raises ILLOP. ERET ends the trap activation, clears the V of the entry it serves, and for an entry of KIND 1 does to the
activation that the entry names what DISP says: 0 ends it, its join word being decremented, 1 makes it READY in class 4, and 2 and 3
raise ILLOP; an entry of KIND 2 names no activation, and no other is changed. In user mode ERET raises PRIV, outside the trap
activation ILLOP. -/
def Obligations.ExceptionReturns : Prop :=
  (∀ s : State, s.Running → bit s.sw 1 = false → exec .uret s = .next (s.faulted { cause := .illop })) ∧
  (∀ (s : State) (m' : Module), GoesBack s → CodeStands s.begun s.win.ctl.waita m' → exec .uret s = .next (s.retire (gone s m'))) ∧
  (∀ (s : State) (f : FInfo), GoesBack s → lineFor s.cid s.ctx s.win.ctl.waita s.begun.super s.begun.m = .error (.fault f) →
    exec .uret s = .next (s.retire (gone s s.begun.m))) ∧
  (∀ s : State, s.Running → bit s.sw 1 = true → s.ldQ = [] → s.sdQ = [] →
    let r := FaultRec.decode (s.m.lmRead s.cid (s.win.ctl.waitv.toNat % 2 ^ 19) 64)
    (r.pw = false → s.act.pwCancel = true →
      exec .uret s = .next (s.leave { s.begun with m := s.begun.m.cancelPage s.cid s.key })) ∧
    (r.pw = true →
      let t := s.begun.setWin { s.begun.win with ctl := { s.begun.win.ctl with pc := s.win.ctl.pc, waitk := 8#4 } }
      let m := t.m.onCore s.cid fun c => { c with spec := { c.spec with inst := c.spec.inst - 1#64 } }
      let m := m.onAct s.cid s.key fun a => { a with wait := .uret, dst := 41#6, grace := none }
      exec .uret s = .next (s.leave { t with m := m.parkOrTrap s.cid s.key .suspended }))) ∧
  (∀ s : State, s.Running → s.super = false → exec .eret s = .next (s.faulted { cause := .priv })) ∧
  (∀ s : State, s.Running → s.super = true → s.key ≠ 64 → exec .eret s = .next (s.faulted { cause := .illop })) ∧
  (∀ (s : State) (i : Nat), Serves s i → (s.m.supEntry s.cid i).kind = 1 → 2 ≤ (s.m.supEntry s.cid i).disp →
    exec .eret s = .next (s.faulted { cause := .illop })) ∧
  (∀ (s : State) (i : Nat), Serves s i → Alone s i → (s.m.supEntry s.cid i).kind ≠ 1 →
    ∃ t, exec .eret s = .next t ∧ Ended s t i ∧ ∀ k, k ≠ 64 → t.m.act s.cid k = s.m.act s.cid k) ∧
  (∀ (s : State) (i : Nat), Serves s i → Alone s i → (s.m.supEntry s.cid i).kind = 1 → (s.m.supEntry s.cid i).disp = 1 →
    named s i < 64 → (s.m.act s.cid (named s i)).win = none → (s.m.act s.cid (named s i)).wp + 1344 ≤ 0x7FC40 →
    s.m.wordOk s.cid ((s.m.act s.cid (named s i)).wp + 1280) 64 = true →
    ∃ t, exec .eret s = .next t ∧ Ended s t i ∧ (t.m.act s.cid (named s i)).st = .ready ∧
      (t.m.ctlOf s.cid (named s i)).cls = 4#3 ∧ (t.m.ctlOf s.cid (named s i)).pc = (s.m.ctlOf s.cid (named s i)).pc ∧
      ∀ k, k ≠ 64 → k ≠ named s i → t.m.act s.cid k = s.m.act s.cid k) ∧
  (∀ (s : State) (i : Nat), Serves s i → Alone s i → (s.m.supEntry s.cid i).kind = 1 → (s.m.supEntry s.cid i).disp = 0 →
    named s i < 64 → (s.m.act s.cid (named s i)).late = [] →
    let j := (s.m.ctlOf s.cid (named s i)).joina
    j = 0#64 ∨ bit j 63 = true →
    ∃ t, exec .eret s = .next t ∧ Ended s t i ∧ Tab.find (t.m.core s.cid).acts (named s i) = none ∧
      bit (t.m.core s.cid).desc.held (named s i) = false ∧ ∀ k, k ≠ 64 → k ≠ named s i → t.m.act s.cid k = s.m.act s.cid k) ∧
  (∀ (s : State) (i : Nat) (m : Module), Serves s i → (s.m.supEntry s.cid i).kind = 1 → (s.m.supEntry s.cid i).disp = 0 →
    named s i ≠ 64 →
    let c := s.begun.m.ctlOf s.cid (named s i)
    c.joina ≠ 0#64 → bit c.joina 63 = false → s.begun.m.unwritten s.cid c.aid = false → s.begun.m.unflushed s.cid c.aid = false →
    s.begun.m.endJoin s.cid c = some m → Unwatched m (m.lmAt s.cid (supOff i)) 64 →
    ∃ t, exec .eret s = .next t ∧ (t.m.core s.cid).sup.serving = none ∧ Tab.find (t.m.core s.cid).acts 64 = none ∧
      Tab.find (t.m.core s.cid).acts (named s i) = none)

/-! ## Events of a core -/

namespace Sys2Proof.Claims

/-- A suspended activation that waits for w. -/
def WaitsFor (m : Module) (cid key : Nat) (w : WaitOn) : Prop :=
  ∃ a, Tab.find (m.core cid).acts key = some a ∧ a.st = .suspended ∧ a.wait = w

/-- The monitors of an activation are free again (R224). -/
def unmonitored (m : Module) (cid key : Nat) : Module :=
  m.onCore cid fun c => { c with mons := c.mons.filter fun o => decide (o.key ≠ key) }

/-- An activation in a context of a core that may issue, its vector instructions retired in d. -/
def InContext (m d : Module) (cid ctx key : Nat) : Prop :=
  m.mayIssue cid = true ∧ ((m.core cid).ctx ctx).act = some key ∧ m.drain cid key = (true, d)

/-- The cycles that an activation has issued, counted up to now. -/
def countedIn (m : Module) (cid key : Nat) : Module := m.onAct cid key (·.count m.time)

/-- An activation that issues in a context with window w. -/
def Issues (m : Module) (cid key : Nat) (w : Win) : Prop :=
  (m.act cid key).win = some w ∧ ∃ k, (m.act cid key).st = .issuing k

/-- A context that a trap activation could take is open on a core. -/
def TrapOpen (m : Module) (cid : Nat) : Prop :=
  ∃ k, k < 4 ∧ ((m.core cid).ctx k).act = none ∧ m.trapRoom cid k = true

/-- What waits, and register banks (R84, R224, R228, R237): from m to m'. -/
def waitEvent (i : Instr) (m m' : Module) : Prop :=
  match i with
  | .joinReread cid key =>
    ∃ va pc mon next, WaitsFor m cid key (.join va pc mon (some next)) ∧ next ≤ m.time ∧
      ((∃ v old n, joinRead cid (100 + key) va.toNat (swMode (m.ctlOf cid key).sw) m = .ok ((v, old), n) ∧
          m' = if v.toInt ≤ 0 then (unmonitored n cid key).wake cid key (some v)
               else n.onAct cid key fun a => { a with wait := .join va pc mon (if mon then none else some (n.time + 256)) }) ∨
       (∃ f, joinRead cid (100 + key) va.toNat (swMode (m.ctlOf cid key).sw) m = .error (.fault f) ∧
          m' = ((unmonitored m cid key).setCtl cid key { m.ctlOf cid key with pc := pc }).wake cid key none))
  | .waitExpiry cid key => ∃ t, WaitsFor m cid key (.cycles t) ∧ t ≤ m.time ∧ m' = m.wake cid key (some 0)
  | .waitrsTimeout cid key =>
    ∃ t, WaitsFor m cid key (.resv (some t)) ∧ t < m.time ∧ m' = (unmonitored m cid key).wake cid key (some 1)
  | .barwRegistrationRetry cid key =>
    ∃ loc next k, WaitsFor m cid key (.bar loc false next k) ∧ next ≤ m.time ∧
      (let o := m.barObj loc
       let room := decide ((m.bwait.filter fun w => placeOf w.loc == placeOf loc).length < Config.barRoom)
       m' = if o.v = false then m.wake cid key (some 2)
            else if o.phase ≠ bit (m.ctlOf cid key).waitv 0 then m.wake cid key (some 0)
            else Module.onAct (if room = true then { m with bwait := m.bwait ++ [⟨loc, cid, key⟩] } else m) cid key
              fun a => { a with wait := .bar loc room (m.time + 64 * 2 ^ min (k + 1) 6) (k + 1) })
  | .neighbourWordArrival cid left =>
    let p := (m.core cid).ports
    ∃ v vs, if left = true then
        p.flyL = v :: vs ∧ p.nbl.length < 4 ∧
          m' = (m.onCore cid fun c => { c with ports := { p with flyL := vs, nbl := p.nbl ++ [v] } }).landed cid
      else
        p.flyR = v :: vs ∧ p.nbr.length < 4 ∧
          m' = (m.onCore cid fun c => { c with ports := { p with flyR := vs, nbr := p.nbr ++ [v] } }).landed cid
  | .registerBankIdle cid key bank =>
    ∃ w, (m.act cid key).win = some w ∧ bank < 8 ∧ w.bankLive bank = true ∧ bit w.ret bank = false ∧
      Tab.get 0 w.touch bank + 256 ≤ m.time ∧
      m' = m.setWin cid key { w with ret := setBits w.ret bank bank 1 }
  | .groomerVisit pid off err =>
    let p := m.phy pid
    let struck (hard : Bool) : Bool := m.upsets.any fun u => u.1 == lmLoc pid off && u.2 == hard
    let n := { m with upsets := m.upsets.filter fun u => u.1 ≠ lmLoc pid off }
    pid < 46656 ∧ off < 2 ^ 19 ∧ off % 4 = 0 ∧ p.bank (off / 0x8000) < 2 ∧ bit p.failed (off / 0x8000) = false ∧
      m' = if m.quar.contains (lmLoc pid off) = true then m
           else if 2 ≤ err ∨ struck true = true then n.wordLost (lmLoc pid off)
           else if err = 1 ∨ struck false = true then n.wordMended pid off
           else n.setPhy pid { p with corr := Tab.del p.corr off }
  | .lmBankWakeComplete pid bank =>
    let p := m.phy pid
    p.bank bank = 3 ∧ Tab.get 0 p.wake bank ≤ m.time ∧
      m' = (m.setPhy pid
        { p.setBank bank (Tab.get 0 p.after bank) with wake := Tab.del p.wake bank, after := Tab.del p.after bank }).noteBank
          (lmLoc pid (bank * 0x8000))
  | .vectorInstructionStart cid =>
    ∃ k o, findIdx (fun o : VOp => !o.started) (m.core cid).vq = some (k, o) ∧
      m' = m.onCore cid fun c => { c with vq := setAt c.vq k { o with started := true } }
  | .vectorRetirement cid =>
    ∃ o rest, (m.core cid).vq = o :: rest ∧ o.started = true ∧ o.key ∉ (m.core cid).vcancel ∧
      ∃ n v fl, o.run cid m = (n, .done v fl) ∧
        (let t := n.onAct cid o.key fun a =>
           match a.win with
           | some w =>
             let w := w.vecPut n.time (vecDst o.i) v
             { a with win := some { w with ctl := { w.ctl with sw := swOr w.ctl.sw fl } } }
           | none => a
         m' = (t.onCore cid fun c => { c with vq := rest }).cprMark cid o.ctx o.seq 0)
  | .vectorLateFault cid =>
    ∃ o rest, (m.core cid).vq = o :: rest ∧ o.started = true ∧ o.key ∉ (m.core cid).vcancel ∧
      ∃ n f, o.run cid m = (n, .fault f) ∧
        (let t := (n.sides f.side).onAct cid o.key fun a => { a with late := a.late ++ [⟨o.seq, f.cause, 0, o.pc, f.addr, none⟩] }
         let t := t.onCore cid fun c => { c with vcancel := o.key :: c.vcancel }
         m' = (t.onCore cid fun c => { c with vq := rest }).cprMark cid o.ctx o.seq 2)
  | .icacheFill cid ctx =>
    ∃ key w b, m.mayIssue cid = true ∧ ((m.core cid).ctx ctx).act = some key ∧ (m.act cid key).win = some w ∧
      (∀ l, ((m.core cid).ctx ctx).line = some l → l.base ≠ w.ctl.pc.toNat / 64 * 64) ∧
      lineFor cid ctx w.ctl.pc (swMode w.ctl.sw) m = .ok (b, m')
  | _ => False

/-- The scheduler of a core (R43–R48, R62–R64, R88, R352): from m to m'. -/
def schedulerEvent (i : Instr) (m m' : Module) : Prop :=
  match i with
  | .activationBinding cid key =>
    m.mayStart cid = true ∧ (m.core cid).bounds.length < 4 ∧
      (∃ a, m.firstOf cid ((m.core cid).acts.filter fun e => e.2.st == .ready) = some (key, a)) ∧ m' = m.bindAct cid key
  | .contextEntry cid ctx =>
    ∃ key a, m.firstWaiting cid = some (key, a) ∧ m.mayStart cid = true ∧ m.trapFirst cid ctx = false ∧ ctx < 4 ∧ ((m.core cid).ctx ctx).act = none ∧
      (5 < m.clsOf cid key → m.taskReady cid = false) ∧ (6 < m.clsOf cid key → m.rangeReady cid = false) ∧
      m' = m.enterFrom cid key ctx
  | .taskStart cid =>
    ∃ r n, m.mayStart cid = true ∧ m.waitsBelow cid 5 = false ∧ m.dqFree cid = true ∧ m.dqPop cid = some (r, n) ∧
      n.startNew cid (r.birth 5 (m.core cid).spec.budget) = some m'
  | .workRangeStart cid =>
    ∃ e l r, (m.core cid).gq = e :: l ∧ m.mayStart cid = true ∧ m.waitsBelow cid 6 = false ∧ m.taskReady cid = false ∧
      pickRange (fun a b => decide (a < b)) e.ranges = some r ∧
      (m.onCore cid fun c => { c with gq := takeRange c.gq 0 r }).startNew cid (e.birth r.1 r.2 6 (m.core cid).spec.budget) = some m'
  | .trapActivationCreation cid ctx =>
    m.mayStart cid = true ∧ m.trapDue cid = true ∧ ctx < 4 ∧ ((m.core cid).ctx ctx).act = none ∧
      m.trapRoom cid ctx = true ∧ m' = m.trapEnter cid ctx
  | .deferredTrapEntry cid =>
    (∃ e ∈ (m.core cid).acts, e.2.defer.isSome = true) ∧ (m.supEntry cid (m.core cid).sup.next).v = false ∧ m' = m.deferred cid
  | .displacement cid =>
    ∃ trap v a d, m.mayStart cid = true ∧ (trap = true ↔ m.trapDue cid = true ∧ ¬ TrapOpen m cid) ∧
      (trap = true ∨ (m.core cid).freeContext = none ∧ m.waitsBelow cid 2 = true) ∧ m.victim cid trap = some (v, a) ∧ m.drain cid v = (true, d) ∧
      (((d.core cid).bounds.length < 4 ∧ m' = d.displace cid v) ∨
       (∃ b, 4 ≤ (d.core cid).bounds.length ∧ d.lastBound cid = some b ∧
          m' = ((d.parkOrTrap cid b.1 .ready).onAct cid b.1 fun x => { x with since := b.2.since, aged := b.2.aged }).displace cid v))
  | .aging cid key =>
    let a := m.act cid key
    a.waits = true ∧ 2 < m.clsOf cid key ∧ a.aged + 65536 ≤ m.time ∧
      m' = (m.setCtl cid key { m.ctlOf cid key with cls := BitVec.ofNat 3 (m.clsOf cid key - 1) }).onAct cid key
        fun a => { a with aged := a.aged + 65536 }
  | .budgetExpiry cid ctx =>
    ∃ key d w, InContext m d cid ctx key ∧
      (let d := countedIn d cid key
       Issues d cid key w ∧ w.ctl.path ≠ 5#3 ∧ w.ctl.hnd = false ∧ w.ctl.budget = 0#32 ∧ (d.act cid key).grace = none ∧
       (let t := d.onAct cid key fun a => { a with grace := some 4096 }
        m' = if swUpc w.ctl.sw then t else t.takeFault cid key { cause := .budget } w.ctl.pc))
  | .forcedSuspension cid ctx =>
    ∃ key d w, InContext m d cid ctx key ∧
      (let d := countedIn d cid key
       Issues d cid key w ∧ (d.act cid key).grace = some 0 ∧
       (let c := { w.ctl with waitk := 9#4, cls := 4#3, budget := (d.core cid).spec.budget }
        m' = (d.onAct cid key fun a => { a with win := some { w with ctl := c }, grace := none }).parkOrTrap cid key .ready))
  | .handlerBudgetExpiry cid ctx =>
    ∃ key d w, InContext m d cid ctx key ∧
      (let d := countedIn d cid key
       Issues d cid key w ∧ w.ctl.hnd = true ∧ 4096 ≤ (d.act cid key).hcyc ∧
       m' = d.takeFault cid key { cause := .budget } w.ctl.pc)
  | .lateFaultDelivery cid ctx =>
    ∃ key d, InContext m d cid ctx key ∧ d.lateLast cid ctx key = false ∧ d.deliverLate cid ctx key = some m'
  | _ => False

/-- Work stealing (R54–R57, R66, R328): from m to m'. -/
def stealEvent (i : Instr) (m m' : Module) : Prop :=
  match i with
  | .stealAttempt cid =>
    let t := (m.core cid).thief
    m.maySteal cid = true ∧ t.busy = none ∧ t.wake = 0 ∧
      match m.nextVictim cid 5 t with
      | (some v, u) => m.askVictim cid v u = some m'
      | (none, u) => m' = m.endRound cid u
  | .stealRoundRestart cid =>
    let t := (m.core cid).thief
    t.wake ≠ 0 ∧ t.wake ≤ m.time ∧ m' = m.onCore cid fun c => { c with thief := { t with ring := 0, tries := 0, wake := 0 } }
  | .stealRequest thief =>
    ∃ b, (m.core thief).thief.busy = some b ∧ b.served = false ∧ m.coreHeld b.victim = false ∧ (m.stealAt b).isSome = true ∧
      m.ownerFirst b.victim thief = false ∧ m.earlierThief thief b = false ∧ m.dqFree b.victim = true ∧
      (let n := match b.pkt with
         | some (k, _) => m.dropPkt k
         | none => m
       m' = if n.pathOk (siteOf b.victim) (siteOf thief) = false then n
            else
              let (loot, u) := n.serveSteal b.victim thief
              (match b.pkt with
                | some (_, k) => u.landReply thief k
                | none => u).onCore thief fun c => { c with thief := { c.thief with busy := some { b with served := true, loot := loot } } })
  | .stealReply thief =>
    ∃ b, (m.core thief).thief.busy = some b ∧ b.served = true ∧ m.coreHeld thief = false ∧
      (let held := decide ((m.partOf (siteOf thief)).swSt ≠ 0)
       match b.loot with
       | none => m' = m.stealOver thief false
       | some (.record bs) =>
         if held then
           (m.core thief).desc.n < 64 ∧ m.dqFree thief = true ∧ m' = (m.dqUnshift thief (TaskRec.decode bs)).stealOver thief true
         else ∃ n, m.startLoot thief ((TaskRec.decode bs).birth 7 (m.core thief).spec.budget) = some n ∧ m' = n.stealOver thief true
       | some (.range e first count) =>
         if m.rangeOver thief e = true then m' = m.stealOver thief true
         else held = false ∧ ∃ n, m.startLoot thief (e.birth first count 7 (m.core thief).spec.budget) = some n ∧ m' = n.stealOver thief true)
  | _ => False

/-- An event i that takes the settled module to m' happens: the step ends at a commit point with m'. -/
def Happens (i : Instr) (s : State) (m' : Module) : Prop := exec i s = .next { s with m := m', open_ := none }

/-- The context of a waiting access to special register n has the focus, and finds instruction i at its PC in state t. -/
structure Retried (e i : Instr) (n cid ctx : Nat) (s t : State) : Prop where
  which : (e = .cSwWrite cid ctx ∧ n = 0x002) ∨ (e = .cCprWrite cid ctx ∧ n = 0x016) ∨ (e = .cStashWrite cid ctx ∧ n = 0x018)
  focus : t.cid = cid ∧ t.ctx = ctx
  runs : State.Running { t with m := s.settled }
  issues : s.settled.mayIssue cid = true
  found : State.fetched { s with m := s.settled, cid := cid, ctx := ctx, open_ := none } = .instr i t.m
  rest : t = { s with m := t.m, cid := cid, ctx := ctx, open_ := none }

/-- The focus goes back to where it was. -/
def backTo (s t : State) : State := { t with cid := s.cid, ctx := s.ctx }

end Sys2Proof.Claims

/-- R43–R48, R52–R57, R62–R66, R71, R73, R84, R88, R90, R189, R214, R224, R228, R237, R328, R336, R352, R483, R487, R488: the events of
a core happen where they are due. Rules of some rows are the model's choices: when a waiter that found no room looks again (log entry
15, DESIGN CHOICE), which activation gives way and which window it takes (log 26), what cancels a vector instruction (log 38), when an
entry that waited is made (log 42), what the groomer finds (log 44), the order and the end of a steal (log 98), and which contexts a trap
activation can take (log 141), all six DEDUCED. -/
def Obligations.CoreEventsHappen : Prop :=
  ∀ (i : Instr) (s : State) (m' : Module),
    waitEvent i s.settled m' ∨ schedulerEvent i s.settled m' ∨ stealEvent i s.settled m' → Happens i s m'

/-- The value that a write gives `c.sw`, `c.cpr` or `c.stash`, and where it is held back, are in part the model's choices (DEDUCED, log
entry 39; DESIGN CHOICE, log entry 127). R94, R188, R412: an access to `c.sw`, `c.cpr` or `c.stash` for which a context waits is taken at
the instruction that makes it, once its operands can be read and nothing that it waits for is left: CSRW writes the register, CSRX also
answers the old value, and CSRR answers the value. -/
def Obligations.WaitingWritesRetried : Prop :=
  (∀ (e : Instr) (f : CsrwF) (n cid ctx : Nat) (s t t1 u : State) (l : List Word), Retried e (.csrw f) n cid ctx s t → f.n.toNat = n →
    MayWrite t n → Reads t [⟨f.a, f.ka, .exec⟩] none l t1 → SpecialWritten n (arg l 0) t1 u →
    exec e s = .next (backTo s (t.retire u))) ∧
  (∀ (e : Instr) (f : CsrxF) (n cid ctx : Nat) (s t t1 u v : State) (l : List Word), Retried e (.csrx f) n cid ctx s t → f.n.toNat = n →
    MayWrite t n → Reads t [⟨f.b, f.kb, .exec⟩] (some (.exec, f.a)) l t1 → SpecialWritten n (arg l 0) t1 u →
    writeDst f.a (specialValue t1 n) u = .ok ((), v) → exec e s = .next (backTo s (t.retire v))) ∧
  (∀ (e : Instr) (f : CsrrF) (n cid ctx : Nat) (s t t1 u : State), Retried e (.csrr f) n cid ctx s t → f.n.toNat = n →
    MayRead t n → Reads t [] (some (.exec, f.a)) [] t1 → writeDst f.a (specialValue t1 n) t1 = .ok ((), u) →
    exec e s = .next (backTo s (t.retire u)))

/-! ## Events of the homes and of the network -/

namespace Sys2Proof.Claims

/-- A packet k of a kind in a phase: 0 waits for injection, 1 is on its way, 2 has been ejected, 3 waits for its resend, 4 goes back
refused. -/
def PacketAt (m : Module) (k phase : Nat) (kind : PKind) (p : Packet) : Prop :=
  m.pkt k = some p ∧ p.phase = phase ∧ p.kind = kind

/-- An ejected packet of a core whose binding is not changing (R21), with none of its route before it (R298). -/
def Ejected (m : Module) (k : Nat) (kind : PKind) (p : Packet) : Prop :=
  PacketAt m k 2 kind p ∧ m.coreHeld p.dst = false ∧ m.overtakes p true = false

/-- A packet whose handle and key hold at the core that it has reached (R25, R304). -/
def accepted (m : Module) (p : Packet) : Bool := m.handleHolds p && m.keyHolds p

/-- What an arrival that R25 or R304 diverts leaves: an acknowledgement, and a containment record in the site's or the core's queue. -/
def diverted (m : Module) (k : Nat) (p : Packet) : Module :=
  if m.handleHolds p then (m.ackPkt k p).containPkt p.dst p .pkey else (m.ackPkt k p).staleArrival p

/-- The access that a peer's request asks its home for (R386). -/
def askedFor (p : Packet) : Acc :=
  match p.kind with
  | .read => .load
  | .write => .store
  | .check => if p.opc = 0 then .store else .atomic
  | _ => if p.xf = 6 then .store else .atomic

/-- The home's work on a request: its checks, then the access. -/
def served (p : Packet) : MM Nat := do
  let loc ← homeServe p.dsite p.va.toNat (some p.pkey) (askedFor p) p.super p.size
  homeAct p.kind p loc
/-- The same for n bytes that the host reads or writes at HDM offset o (R384, R385). -/
def hostServed (home o n : Nat) (write : Bool) (value : Nat) : MM Nat := do
  let loc ← homeServe home (2 ^ 54 + o) none (if write then .store else .load) true n
  homeAct (if write then .write else .read) { size := n, payload := leBytes n value } loc

/-- A home's answer to a request (R216, R301, R386): its value, its fault, or RETRY. -/
def answered (m : Module) (k : Nat) (p : Packet) (r : Except Stop (Nat × Module)) : Module :=
  match r with
  | .ok (v, n) => (n.dropPkt k).replyPeer p.dsite p .reply (.ok v)
  | .error (.fault f) => ((m.sides f.side).dropPkt k).replyPeer p.dsite p .reply (.bad f.cause f.addr)
  | .error (.ask c a) => ((m.putAsk c a).dropPkt k).replyPeer p.dsite p .retry .none_
  | .error _ => (m.dropPkt k).replyPeer p.dsite p .retry .none_

/-- Work of a home (R173, R177, R182, R186, R216, R223, R227, R231, R316–R318, R356, R357, R385–R387): from m to m'. -/
def homeEvent (i : Instr) (m m' : Module) : Prop :=
  let request (k : Nat) (kind : PKind) : Prop :=
    ∃ p, PacketAt m k 2 kind p ∧ m' = answered m k p (served p m)
  match i with
  | .readRequest k => request k .read
  | .checkRequest k => request k .check
  | .atomicRequest k => request k .atomic
  | .writeRequest late k =>
    if late then
      ∃ w, m.late[k]? = some w ∧ (w.held = true ∨ w.due ≤ m.time) ∧ m.expected w = true ∧
        (∀ r ∈ m.recalls, r.1 ≠ lineOf w.loc) ∧
        (∀ e ∈ m.late.take k, e.cid = w.cid → e.aid = w.aid → lineOf e.loc ≠ lineOf w.loc) ∧ m' = m.lateTurn k w
    else request k .write
  | .hostCxlMemAccess port o n write value =>
    ∃ part home edge v, m.portPart port = some part ∧ m.portSite port = some edge ∧ m.pathOk edge home = true ∧ (m.part part).sites[o / 2 ^ 40]? = some home ∧ Tab.get 0 m.pcie port = 1 ∧
      (m.part part).swSt < 2 ∧ 1 ≤ n ∧ o % 64 + n ≤ 64 ∧ m.live home = true ∧
      hostServed home o n write value m = .ok (v, m')
  | .tamvexPacket port w =>
    let c := Tab.get 0 m.tvx port
    ∃ edge, (edgeSites (port / 2)).find? m.live = some edge ∧ tvxEn c = true ∧ w.smod = tvxMod c ∧ w.kind < 7 ∧
      (m.part (tvxPart c)).swSt < 2 ∧ (m.part (tvxPart c)).sites ≠ [] ∧
      (let p := m.fromWire edge (tvxPart c) w
       m' = if w.kind ≤ 3 ∧ m.ilvHome ((m.part (tvxPart c)).sites.headD edge) (w.va.toNat % 2 ^ 53) = none then
              m.replyPeer edge p .reply (.bad .noroute w.va)
            else m.post p)
  | .pageTableWalk site va =>
    ∃ e b, (m.target (128 * site) va = .dram site ∨ m.target (128 * site) va = .sys) ∧ m.live site = true ∧
      tlbFind (m.site site).tlb va = none ∧ m.walk site va = .leaf e b ∧
      m' = m.onSite site fun x => { x with tlb := tlbAdd x.tlb ⟨va / 65536, b, e⟩ }
  | .tlbiCompletion site =>
    ∃ p, (m.site site).tlbi = some p ∧ m.pinned site p = false ∧ m' = m.onSite site fun x => { x with tlbi := none }
  | .stashRecall cid line write =>
    (∃ x, (m.core cid).held line = some x) ∧ (∀ e ∈ (m.core cid).ctxs, ∀ r, e.2.resv = some r → r.line ≠ line) ∧
      m.writeBack cid line (if write then 0 else 1) = .ok () m'
  | .stashWriteBack cid line =>
    ((∀ e ∈ (m.core cid).flushes, e.2.1 ≠ line) ∧ ∃ x, (m.core cid).held line = some x ∧ x.st = 3 ∧ m.writeBack cid line 2 = .ok () m') ∨
    ∃ k aid drop n, findIdx (fun e : Nat × Nat × Bool => e.2.1 == line) (m.core cid).flushes = some (k, aid, line, drop) ∧
      m.flushOne cid (((upFrom 0 4).find? fun j => m.ctxAid cid j == aid).getD 4) line drop = (true, n) ∧
      m' = n.onCore cid fun c => { c with flushes := dropAt c.flushes k }
  | .reservationRecallDeferral cid line =>
    ((∀ r ∈ m.recalls, ¬ (r.1 = line ∧ r.2.1 = cid)) ∧ ∃ ctx super done n,
      ((m.core cid).prefs.find? fun p => p.1 == line) = some (line, ctx, super) ∧
      prefLine cid ctx line super (m.onCore cid fun c => { c with prefs := c.prefs.filter fun p => decide (p.1 ≠ line) }) = (done, n) ∧
      (∀ p ∈ (n.core cid).prefs, p.1 ≠ line) ∧ m' = n) ∨
    ∃ r n, (m.recalls.find? fun r => r.1 == line && r.2.1 == cid) = some r ∧ (m.core cid).defers m.time line none = false ∧
      m.writeBack cid line (if r.2.2 then 0 else 1) = .ok () n ∧
      m' = { n with recalls := n.recalls.filter fun r => !(r.1 == line && r.2.1 == cid) }
  | .collectiveCombine site =>
    ∃ k b v n, findIdx (fun b : Combine => b.res.isNone && decide (b.until_ < m.time)) (m.site site).comb = some (k, b) ∧
      m.arriveAt b.loc (!isLm b.loc) b.count = .ok v n ∧
      m' = n.onSite site fun x => { x with comb := setAt x.comb k { b with res := some v } }
  | .barrierCompletionMulticast site loc =>
    let here (w : BWait) : Bool := w.loc == loc && siteOf w.cid == site
    m.bdone.filter here ≠ [] ∧
      m' = (m.bdone.filter here).foldl (fun m w => m.wake w.cid w.key (some 0)) { m with bdone := m.bdone.filter fun w => !here w }
  | .trapReport site =>
    ∃ r rest, (m.site site).faultq = r :: rest ∧
      (let k := siteY site / 2
       let l := Tab.get [] m.coll k
       let popped := m.onSite site fun x => { x with faultq := rest }
       (l.filter fun e => e.1 == site).length < 8 ∧
       m' = match m.trpStop true (siteX site) (siteY site) with
         | some t => popped.onSite t fun x => { x with trpLost := x.trpLost + 1 }
         | none => { popped with coll := Tab.put m.coll k (collAdd l site r) })
  | .collectorDelivery part collector =>
    let x := m.part part
    let size := 2 ^ pfsSize x.pfsBase
    let tail := Tab.get 0 x.pfsTail collector % size
    let va := pfsEntry x.pfsBase collector tail
    ∃ k e root home pa n t o, findIdx (fun e : Nat × TrapRec => e.2.part == part) (m.collOf collector) = some (k, e) ∧
      x.root = some root ∧ bit x.pfsBase 63 = true ∧ x.swSt < 2 ∧ (tail + 1) % size ≠ Tab.get 0 x.pfsHead collector % size ∧
      collector < 9 ∧ m.target (128 * root) va = .dram home ∧ xlate home va (128 * root) .store true m = .ok ((t, pa), n) ∧
      engineWrite (dramLoc home pa) e.2.encode n = .ok ((), o) ∧
      (let site := (x.sites[bits x.pfsTgt 15 0 / 128]?).getD root
       let o1 := Module.ringMended { o with coll := Tab.put o.coll collector (dropAt (o.collOf collector) k) } part (some collector)
       let o2 := o1.onPart part fun x => { x with pfsTail := Tab.put x.pfsTail collector ((tail + 1) % size) }
       m' = o2.post
        { kind := .message, dsite := site, dl := bits x.pfsTgt 15 0 % 128, ssite := 18 * (2 * collector), sl := 0
          pkey := (o2.site site).pkey, dvcn := bits x.pfsTgt 15 0, gen := x.epoch, dmod := o2.modnum.toNat
          smod := o2.modnum.toNat, len := 16, opc := 2, entry := bits x.pfsTgt 34 16, slot := 64, here := 18 * (2 * collector)
          payload := leBytes 8 (bits x.pfsTgt 34 16) ++ leBytes 8 va })
  | .pendingByteDecrement tile q =>
    ∃ c n loc d o o', (m.tile tile).cpRun q = some c ∧ m.dueChunk c q = some n ∧
      barAt c.by_.cid c.d.bar.toNat c.by_.super m = .ok ((loc, d), o) ∧ o.barSub loc d n = .ok () o' ∧
      m' = o'.cpSet tile q { c with dec := c.dec + n }
  | _ => False

/-- Packets between cores (R42, R59, R60, R66, R292–R301, R304–R308, R310, R315): from m to m'. -/
def packetEvent (i : Instr) (m m' : Module) : Prop :=
  match i with
  | .packetInjection k => ∃ p, m.pkt k = some p ∧ p.phase = 0 ∧ m.inject k p = some m'
  | .routerForward k => ∃ p, m.pkt k = some p ∧ p.phase = 1 ∧ m.overtakes p false = false ∧
      (if p.dests ≠ [] then m' = m.spread k p
       else
         match nextHop p.net p.here (if p.det then p.wpt else p.dsite) with
         | some (dir, next) =>
           if m.linkOff p.net p.here dir next = true then m' = m.lostPkt k p
           else (p.kind = .streamOpen → m.linkHeld (linkNo p.net p.here dir) = false) ∧
             m' = (m.holdLink k p (linkNo p.net p.here dir)).putPkt k { p with here := next, hops := min (p.hops + 1) 255 }
         | none =>
           if p.det = true then m' = m.putPkt k { p with det := false, net := false, switched := true }
           else if p.dmod = m.modnum.toNat then m' = m.putPkt k { p with phase := 2, due := m.time }
           else m' = match m.tvxPort p.dmod with
             | some o => { m.dropPkt k with outbox := m.outbox ++ [(o, p)] }
             | none => m.lostPkt k p)
  | .retryReply k =>
    (∃ p, m.pkt k = some p ∧ p.phase = 4 ∧ p.mc = false ∧
      m' = if m.ownPkt p = true ∧ p.kind ≠ .wakeup ∧ m.slotHeld p = false then m.dropPkt k else m.putPkt k { p with phase := 3, due := m.time + 64 * 2 ^ min p.tries 6, tries := p.tries + 1 }) ∨
    ∃ p r, PacketAt m k 2 .retry p ∧ Tab.find ((m.dropPkt k).core p.dst).ni.slots p.slot = some r ∧
      (let q := { r.req with tries := r.req.tries + 1, phase := 3, due := m.time + 64 * 2 ^ min r.req.tries 6 }
       m' = ((m.dropPkt k).onCore p.dst fun c =>
         { c with ni := { c.ni with slots := Tab.put c.ni.slots p.slot { r with req := q } } }).post q)
  | .nack k => ∃ p, PacketAt m k 4 .message p ∧ p.mc = true ∧
      m' = m.putPkt k { p with phase := 3, due := m.time + 64 * 2 ^ min p.tries 6, tries := p.tries + 1 }
  | .retryResend k => ∃ p, m.pkt k = some p ∧ p.phase = 3 ∧ p.mc = false ∧ p.kind ≠ .migration ∧ p.due ≤ m.time ∧
      (m.ownPkt p = true → (m.partOf p.ssite).swSt = 0) ∧ m.inject k { p with resend := true } = some m'
  | .multicastResend k => ∃ p, m.pkt k = some p ∧ p.phase = 3 ∧ p.mc = true ∧ p.due ≤ m.time ∧
      (m.ownPkt p = true → (m.partOf p.ssite).swSt = 0) ∧ m.inject k { p with resend := true } = some m'
  | .migrationResend cid key => ∃ k p, (m.act cid key).mig = some k ∧ PacketAt m k 3 .migration p ∧ p.due ≤ m.time ∧
      (m.ownPkt p = true → (m.partOf p.ssite).swSt = 0) ∧ m.inject k { p with resend := true } = some m'
  | .reply k => ∃ p, PacketAt m k 2 .reply p ∧
      (let n := m.dropPkt k
       match Tab.find (n.core p.dst).ni.slots p.slot with
       | none => m' = n
       | some r =>
         if r.ans ≠ .none_ then m' = n
         else if r.req.kind = .message then
           m' = match p.ans with
             | .bad c _ => (n.dropSlot p.dst p.slot).containPkt p.dst r.req c
             | _ => n.dropSlot p.dst p.slot
         else m' = n.onCore p.dst fun c => { c with ni := { c.ni with slots := Tab.put c.ni.slots p.slot { r with ans := p.ans } } })
  | .replySlotTimeout cid slot => ∃ r, Tab.find (m.core cid).ni.slots slot = some r ∧ r.ans = .none_ ∧ r.at_ + 2 ^ 20 ≤ m.time ∧
      (let mine (e : Nat × Packet) : Bool := e.2.src == cid && e.2.slot == slot && e.2.seq == r.req.seq && e.2.kind == r.req.kind
       let n := if r.req.kind = .message then m else { m with pkts := m.pkts.filter fun e => !mine e }
       (∀ e ∈ m.pkts, mine e = true → e.2.phase ≠ 0 ∧ e.2.phase ≠ 3) ∧
       m' = match r.req.kind with
         | .message => (n.dropSlot cid slot).containPkt cid r.req .noroute
         | .migration => (n.containPkt cid r.req .noroute).migFault r.req .noroute
         | .steal => n.failSteal r.req
         | _ => n.onCore cid fun c =>
             { c with ni := { c.ni with slots := Tab.put c.ni.slots slot { r with ans := .bad .noroute r.req.va } } })
  | .activeMessage k => ∃ p, Ejected m k .message p ∧ p.mc = false ∧ p.opc ≠ 1 ∧ messageTaken m k p m'
  | .multicastCopy k => ∃ p, Ejected m k .message p ∧ p.mc = true ∧ messageTaken m k p m'
  | .handlerCreation cid =>
    (∃ p rest c k, m.mayStart cid = true ∧ (m.core cid).ni.hq = p :: rest ∧ m.handlerAt p = .error c ∧ m.freeSlot cid true = some k ∧
      m' = (Module.handlerRead (m.onCore cid fun c => { c with ni := { c.ni with hq := rest } }) p).containPkt cid p c) ∨
    ∃ p rest pc k, m.mayStart cid = true ∧ (m.core cid).ni.hq = p :: rest ∧ m.handlerAt p = .ok pc ∧ m.freeSlot cid true = some k ∧
      (let popped := Module.handlerRead (m.onCore cid fun c => { c with ni := { c.ni with hq := rest } }) p
       let box := if k + 2 = (m.core cid).desc.wsn then 0x7F840 else 0x7F940
       let n := if 64 < p.len then popped.putWord cid box p.payload else popped
       let w (i : Nat) : Word := BitVec.ofNat 64 (leNat ((p.payload.drop (8 * i)).take 8))
       let g := if 64 < p.len then BitVec.ofNat 64 box :: List.replicate 7 0 else (upFrom 0 8).map w
       m' = n.birth cid k ((m.core cid).desc.wp k)
         { pc := pc, sw := p.sw &&& 0x0000FFFFFFFF0070#64, path := 0, cls := 2, dom := 1, hnd := true
           budget := (m.core cid).spec.budget, g := g ++ [n.senderHandle p, BitVec.ofNat 64 p.len] })
  | .sendxLanding k => ∃ p, Ejected m k .message p ∧ p.mc = false ∧ p.opc = 1 ∧
      (if accepted m p = false then m' = diverted m k p
       else if bit (m.core p.dst).spec.hbnd 39 = false then m' = m.refusePkt k p
       else ∃ r, m.landingOf p = some r ∧
         match r with
         | .error c => m' = (m.ackPkt k p).containPkt p.dst p c (BitVec.ofNat 64 (leNat (p.payload.take 8)))
         | .ok (o, bs) => m' = (((m.ackPkt k p).setLat p).touched p.dst o bs.length).lmStore p.dst o bs)
  | .wakeUpArrival k => ∃ p, Ejected m k .wakeup p ∧
      (let n := m.ackPkt k p
       if ¬ (n.handleHolds p = true) then m' = n.staleArrival p
       else if ¬ (n.keyHolds p = true) then m' = n.containPkt p.dst p .pkey
       else
         let n := n.setLat p
         m' = if n.wakeRoom p.dst = true ∧ (n.core p.dst).ni.held = [] then n.dqPush p.dst (wakeRec p)
              else n.onCore p.dst fun c => { c with ni := { c.ni with held := c.ni.held ++ [p] } })
  | .wakeUpHeldPush cid => ∃ p rest, (m.core cid).ni.held = p :: rest ∧ m.wakeRoom cid = true ∧
      m' = (m.onCore cid fun c => { c with ni := { c.ni with held := rest } }).dqPush cid (wakeRec p)
  | .migrationPacket k => ∃ p, Ejected m k .migration p ∧
      (if accepted m p = false then
         m' = if m.handleHolds p then ((m.dropPkt k).containPkt p.dst p .pkey).migRefused p .pkey
              else ((m.dropPkt k).staleArrival p).migRefused p .badhandle
       else
         match m.create p.dst (migBirth p.payload) with
         | none => m' = m.refusePkt k p
         | some (j, n) =>
           let n := (n.setLat p).onAct p.dst j fun a => { a with stepAt := if swSs (migBirth p.payload).sw then some p.va else none }
           m' = if n.pathOk p.dsite p.ssite = true then (n.ackPkt k p).release p.src p.actKey else n.ackPkt k p)
  | _ => False
where
  /-- A SEND or a multicast copy at its receiver (R25, R299, R304–R307, R310, R465): answered NOROUTE, diverted, queued, or refused. -/
  messageTaken (m : Module) (k : Nat) (p : Packet) (m' : Module) : Prop :=
    if p.mc = true ∧ p.resend = true ∧ m.vacant p.dst = true then m' = (m.dropPkt k).lostCopies p [p.dst]
    else if accepted m p = false then m' = diverted m k p
    else if bit (m.core p.dst).spec.hbnd 39 = false then m' = m.refusePkt k p
    else
      let n := m.handlerRead p
      match m.handlerAt p with
      | .error c => m' = (n.ackPkt k p).containPkt p.dst p c
      | .ok _ =>
        if 8 ≤ (n.core p.dst).ni.hq.length then m' = n.refusePkt k p
        else m' = ((n.ackPkt k p).setLat p).onCore p.dst fun c => { c with ni := { c.ni with hq := c.ni.hq ++ [p] } }

/-- Streams (R312–R314): from m to m'. -/
def streamEvent (i : Instr) (m m' : Module) : Prop :=
  match i with
  | .streamOpen k => ∃ p, Ejected m k .streamOpen p ∧
      (let n := m.dropPkt k
       if ¬ (n.handleHolds p = true) then m' = n.breakRoute p.src k
       else m' = if n.sender p.src k 1 = none then n
         else (n.setLat p).onCore p.dst fun c =>
           { c with ports := { c.ports with routes := c.ports.routes ++ [⟨p.src, k, p.entry⟩] } })
  | .streamAttach cid k => ∃ r b j p, (m.core cid).ports.routes[k]? = some r ∧ Tab.find (m.core cid).ports.recv r.n = some b ∧
      m.sender r.scid r.sid 1 = some (j, p) ∧ b.src = none ∧ b.closed = false ∧ b.broken = false ∧
      (b.from_ = none ∨ b.from_ = some r.scid) ∧
      (let n := m.onCore cid fun c =>
         { c with ports := { c.ports with
             routes := dropAt c.ports.routes k
             recv := Tab.put c.ports.recv r.n { b with src := some (r.scid, r.sid), last := 0 } } }
       m' = n.setSender r.scid j { p with route := 2 })
  | .streamFlitSend cid k => ∃ p, (m.core cid).ports.send[k]? = some p ∧ p.route = 2 ∧
      (let flit (l : List Word) (close : Bool) (links : List Nat) : Flit :=
         { scid := cid, sid := p.sid, dcid := p.dcid, n := p.n, words := l, close := close, links := links }
       if p.words = [] then
         p.closing = true ∧ m' = Module.onCore { m with flits := m.flits ++ [flit [] true p.links] } cid fun c =>
           { c with ports := { c.ports with send := dropAt c.ports.send k } }
       else (8 ≤ p.words.length ∨ p.closing = true ∨ p.last + 4 ≤ m.time) ∧
         m' = Module.setSender { m with flits := m.flits ++ [flit (p.words.take 8) false []] } cid k
           { p with words := p.words.drop 8, idle := m.time })
  | .streamDataArrival k => ∃ f r, m.nextFlit k false = some f ∧
      Tab.find (m.core f.dcid).ports.recv f.n = some r ∧ r.src = some (f.scid, f.sid) ∧
      m' = (Module.onCore { m with flits := dropAt m.flits k } f.dcid fun c =>
        { c with ports := { c.ports with recv := Tab.put c.ports.recv f.n { r with buf := r.buf ++ f.words } } }).landed f.dcid
  | .streamClose k => ∃ f r, m.nextFlit k true = some f ∧
      Tab.find (m.core f.dcid).ports.recv f.n = some r ∧ r.src = some (f.scid, f.sid) ∧
      m' = Module.onCore { m with flits := dropAt m.flits k } f.dcid fun c =>
        let t := if r.buf.isEmpty then Tab.del c.ports.recv f.n
          else Tab.put c.ports.recv f.n { r with closed := true, src := none }
        { c with ports := { c.ports with recv := t } }
  | .streamCredit k => ∃ sc si n, m.credits[k]? = some (sc, si, n) ∧
      m' = Module.onCore { m with credits := dropAt m.credits k } sc fun c =>
        { c with ports := { c.ports with
            send := c.ports.send.map fun p => if p.sid == si && p.route == 2 then { p with credit := min (p.credit + n) 64 } else p } }
  | .streamIdleBreak cid k => ∃ p, (m.core cid).ports.send[k]? = some p ∧ (p.route = 1 ∨ p.route = 2) ∧ p.idle + 2 ^ 16 ≤ m.time ∧
      (∀ r, Tab.find (m.core p.dcid).ports.recv p.n = some r → r.src = some (cid, p.sid) → r.last + 2 ^ 16 ≤ m.time) ∧
      m' = m.breakStream cid p.sid p.dcid p.n
  | _ => False

end Sys2Proof.Claims

/-- R173, R177, R182, R186, R187, R216, R223, R227, R231, R281, R299, R316–R318, R356, R357, R385–R387, R457, R458: the events of a home
site happen where they are due. Rules of some rows are the model's choices: which partition a host port serves (DEDUCED, log entry 54),
what becomes of a committed write (log 56), where links are tested (log 90), which packets carry which numbers (log 92), packets of a peer
module (log 124), writes that their activation has read (log 155), and the PREF that waits (log 47), all DEDUCED; the SFLUSH and SINV that
wait (DESIGN CHOICE, log 49), stash lines that leave without a cause (DESIGN CHOICE, log 71), and windows of the collective unit (DESIGN
CHOICE, log 69). -/
def Obligations.HomeEventsHappen : Prop :=
  ∀ (i : Instr) (s : State) (m' : Module), homeEvent i s.settled m' → Happens i s m'

/-- R25, R42, R59, R60, R66, R73, R292–R301, R304–R308, R310, R312–R315, R465: the events of packets and streams happen where they are
due. Rules of some rows are the model's choices, all DEDUCED: the serials of a migration (log entry 30), wake-ups that are held (log 73),
lost answers and timers (log 89), back-off (log 91), streams (log 95), the end of a migration in NOROUTE (log 96), and messages whose
table cannot be read (log 152). -/
def Obligations.NetworkEventsHappen : Prop :=
  ∀ (i : Instr) (s : State) (m' : Module),
    packetEvent i s.settled m' ∨ streamEvent i s.settled m' → Happens i s m'

/-! ## Events of the engines -/

namespace Sys2Proof.Claims

/-- The command of queue k of a tile's matrix unit that runs. -/
def RunsMx (m : Module) (tile k : Nat) (c : MxCmd) : Prop := (m.tile tile).mxRun k = some c
/-- The next command of a queue may start: it waits, the unit is not frozen, the command is not cancelled, its time has come and its
semaphore stands, unless it had started before a swap saved it (R240, R246, R264). -/
def StartsMx (m : Module) (tile k : Nat) (c : MxCmd) : Prop :=
  (m.tile tile).mxHead k = some c ∧ c.started = false ∧ (m.tile tile).frozen = false ∧ c.cancel = false ∧
    c.ready ≤ m.time ∧ (c.begun = true ∨ m.sigReady tile c.by_.sig = true)
/-- The end of every command that runs in the slots of a list. -/
def allDone (m : Module) (tile : Nat) (l : List Nat) : Module :=
  l.foldl (fun m k => match (m.tile tile).mxRun k with
    | some c => m.mxDone tile k c 0
    | none => m) m

/-- The matrix unit (R246–R263, R361, R392): from m to m'. -/
def matrixEvent (i : Instr) (m m' : Module) : Prop :=
  match i with
  | .matrixCommandStart tile k =>
    (∃ c, (m.tile tile).mxHead k = some c ∧ c.started = false ∧ (m.tile tile).frozen = false ∧ c.cancel = true ∧
      m' = (m.mxDrop tile k).engineCancel false c.by_) ∨
    ∃ c, StartsMx m tile k c ∧
      (let n := m.setJob c.by_.cid false c.by_.job .running
       if (m.tile tile).startBad k c = true then m' = n.mxLate tile k c .illop 0
       else match c.op with
         | .ld => ∃ l o, mxImage c n = .ok (l, o) ∧
             m' = (o.onTile tile fun t => { t with staging := Tab.put t.staging k l }).mxSet tile k
               { c with started := true, ready := o.time + 8 + ((mxShape c.q).image + 63) / 64 }
         | .mma =>
           let l := (m.tile tile).latchOf ((m.tile tile).gangOf k).1 ((mxReg c.q).col / 3)
           m' = n.mxSet tile k { c with started := true, k := (l.map (·.k)).getD 0, cls := (l.map fun l => mxClass l.ty).getD 0 }
         | .zero => m' = n.mxSet tile k { c with started := true, ready := n.time + 4 * ((mxReg c.q).nrow * (mxReg c.q).ncol) }
         | _ => m' = n.mxSet tile k { c with started := true })
  | .latchSwap tile k => ∃ c l, RunsMx m tile k c ∧ (m.tile tile).frozen = false ∧ c.op = .ld ∧ c.ready ≤ m.time ∧
      m.boundary tile = true ∧
      Tab.find (m.tile tile).staging k = some l ∧
      m' = (m.onTile tile fun t =>
        { (t.cleared (inLatch k)) with latch := Tab.put t.latch k l, staging := Tab.del t.staging k }).mxDone tile k c 0
  | .mxrotRendezvous tile k => ∃ c ring, RunsMx m tile k c ∧ (m.tile tile).frozen = false ∧ c.op = .rot ring ∧
      (∀ x ∈ (m.tile tile).rot, ¬ (x.1 ≤ k ∧ k < x.1 + x.2.1)) ∧
      (∀ j ∈ upFrom (subRing ring k).1 (subRing ring k).2, ∃ d, RunsMx m tile j d ∧ d.op = .rot ring) ∧
      m' = m.onTile tile fun t => { t with rot := t.rot ++ [((subRing ring k).1, (subRing ring k).2, m.time + 96)] }
  | .latchRotationSwap tile => ∃ k base r at_,
      findIdx (fun x : Nat × Nat × Nat => decide (x.2.2 ≤ m.time)) (m.tile tile).rot = some (k, base, r, at_) ∧
      m.boundary tile = true ∧ (m.tile tile).frozen = false ∧
      (let old := (m.tile tile).latch
       let to_ (k : Nat) : Nat := if base ≤ k ∧ k < base + r then base + (k - base + 1) % r else k
       let key (z : Nat) : Nat :=
         if z < latchKey 0 0 then z else latchKey (to_ ((z - latchKey 0 0) / 6144)) ((z - latchKey 0 0) % 6144)
       m' = allDone (m.onTile tile fun t =>
         { t with rot := dropAt t.rot k, bad := t.bad.map key, hit := t.hit.map key
                  latch := (upFrom 0 r).foldl (fun l k => Tab.move old l (base + k) (base + (k + 1) % r)) t.latch }) tile (upFrom base r))
  | .gangFormation tile k => ∃ c g, RunsMx m tile k c ∧ (m.tile tile).frozen = false ∧ c.op = .gang g ∧
      (let base := k / g * g
       let t := m.tile tile
       (∀ j ∈ upFrom base g, (∃ d, RunsMx m tile j d ∧ d.op = .gang g) ∧ t.leaderBusy j = false) ∧
       (let hit := (upFrom 0 8).filter fun k => (upFrom base g).any fun j => (t.gangOf j).1 == (t.gangOf k).1
        let gang := hit.foldl (fun a k => Tab.put a k (if base ≤ k ∧ k < base + g then (base, g) else (k, 1))) t.gang
        let lead := hit.filter fun k => (Tab.get (k, 1) gang k).1 == k
        let credit := lead.foldl (fun a k => Tab.put a k (m.mxWeight tile k (Tab.get (k, 1) gang k).2))
          (t.credit.filter fun e => !hit.contains e.1)
        m' = allDone (m.onTile tile fun t => { t with gang := gang, credit := credit }) tile (upFrom base g)))
  | .matrixStepGrant tile => (m.tile tile).frozen = false ∧ m.boundary tile = true ∧
      (if m.clamp = true ∧ (m.tile tile).skip = false then
         m' = m.onTile tile fun t => { t with skip := true, free := m.time + 32 }
       else ∃ lead size t c, m.mxGrant tile = some ((lead, size), t) ∧ t.mxRun lead = some c ∧
         ((∃ st n, mxStep tile lead size c (m.setTile tile { t with skip := false }) = .ok (st, n) ∧
            m' = (n.onTile tile fun t => { t with steps := t.steps ++ [st], free := n.time + 32 }).mxSet tile lead { c with pos := c.pos + 1 }) ∨
          (∃ f, mxStep tile lead size c (m.setTile tile { t with skip := false }) = .error (.fault f) ∧
            m' = (m.sides f.side).mxSet tile lead { c with dead := some (f.cause, f.addr) })))
  | .matrixStepEffect tile => ∃ st rest, (m.tile tile).steps = st :: rest ∧ st.at_ ≤ m.time ∧
      (let n := m.onTile tile fun t =>
         { (t.cleared fun k => st.acc.any fun e => 64 + e.1 == k) with
           steps := rest, acc := st.acc.foldl (fun a e => Tab.put a e.1 e.2) t.acc
           aflags := Tab.put t.aflags st.part (Tab.get 0 t.aflags st.part ||| st.flags) }
       m' = match (n.tile tile).mxRun st.slot with
         | some c =>
           if c.op = .mma ∧ c.dead = none ∧ c.pos = c.steps ∧ (rest.any (·.slot == st.slot)) = false then n.mxDone tile st.slot c 0
           else n
         | none => n)
  | .matrixLateFault tile k => ∃ c x a, RunsMx m tile k c ∧ c.dead = some (x, a) ∧ (m.tile tile).steps.any (·.slot == k) = false ∧
      m' = m.mxLate tile k c x a
  | .mxzeroCompletion tile k => ∃ c, RunsMx m tile k c ∧ (m.tile tile).frozen = false ∧ c.op = .zero ∧ c.ready ≤ m.time ∧
      (let g := (m.tile tile).gangOf k
       m' = (m.onTile tile fun t =>
         (t.zeroRegion g.1 g.2 (mxReg c.q)).zeroFlags m.time ((wholeParts g.2 (mxReg c.q)).map (g.1 + ·))).mxDone tile k c 0)
  | .matrixDrainSegment tile k => ∃ c n u, RunsMx m tile k c ∧ c.op = .drn ∧ (m.tile tile).frozen = false ∧
      c.pos < 32 * (mxReg c.q).nrow * (mxReg c.q).ncol ∧
      (let t := m.tile tile
       let r := mxReg c.q
       let d := mxDst c.p c.q
       let row := c.pos / r.ncol
       let col := 32 * (c.pos % r.ncol)
       let out := packElems (8 * d.w) 32 fun e =>
         drainElem d c.by_ (row * (32 * r.ncol) + col + e)
           (t.accAt (accKey (t.gangOf k).1 (t.gangOf k).2 (32 * r.row + row) (32 * r.col + col + e))).toNat
       let words := (upFrom 0 32).map fun e => 64 + accKey (t.gangOf k).1 (t.gangOf k).2 (32 * r.row + row) (32 * r.col + col + e)
       t.bad.any words.contains = false ∧
       drainPut c (d.off + row * d.pitch + col * d.w) out.1 (m.marksRead tile words) = .ok (u, n) ∧
       m' = n.mxSet tile k { c with pos := c.pos + 1, flags := c.flags ||| out.2 })
  | .drainCompletion tile k => ∃ c, RunsMx m tile k c ∧ (m.tile tile).frozen = false ∧ c.op = .drn ∧
      (let r := mxReg c.q
       let d := mxDst c.p c.q
       let g := (m.tile tile).gangOf k
       let size := 32 * r.nrow * r.ncol
       let finish (m : Module) : Module :=
         (if d.clr = true then m.onTile tile fun t => t.zeroRegion g.1 g.2 r else m).mxDone tile k c c.flags
       let target := (m.drainTarget c).getD 0
       (c.pos = size ∧ ∃ n u, drainPut c (d.off + 32 * r.nrow * d.pitch) (m.mxTrailer tile k c.by_) m = .ok (u, n) ∧
         m' = (if d.wk = true then
             let w := n.sendWake c.by_ ((n.drainTarget c).getD 0) d.went (BitVec.ofNat 64 d.off) (BitVec.ofNat 64 (32 * r.nrow * d.pitch))
             w.2.mxSet tile k { c with pos := size + 1, ready := w.1 }
           else finish n)) ∨
       (size < c.pos ∧ m.wakeTaken c.ready target c.by_ = true ∧ m' = finish m))
  | _ => False

/-- The running head of a copy queue. -/
def RunsCp (m : Module) (tile q : Nat) (c : CpCmd) : Prop := (m.tile tile).cpRun q = some c

/-- The copy engine (R266, R271–R279, R286, R331): from m to m'. -/
def copyEvent (i : Instr) (m m' : Module) : Prop :=
  match i with
  | .copyCommandStart tile q => ∃ c, (m.tile tile).cpHead q = some c ∧ c.started = false ∧ (m.tile tile).frozen = false ∧
      (if c.cancel = true then
         m' = match c.node with
           | some (p, _, k) => (m.cpDrop tile q c).endLaunch p 4 k
           | none => (m.cpDrop tile q c).engineCancel true c.by_
       else c.due ≤ m.time ∧ m.sigReady tile c.by_.sig = true ∧
         (let n := m.cpSet tile q { c with started := true, users := if c.op = .dtld then m.tableUsers tile q else [] }
          m' = if c.node.isSome = true then n else n.setJob c.by_.cid true c.by_.job .running))
  | .cpyxPinning tile q => ∃ c c' n, m.cpAction tile q true = some (c, .moved c' n) ∧ m' = n.cpServed tile q c'
  | .copyPiece tile q => ∃ c c' n, m.cpAction tile q false = some (c, .moved c' n) ∧ m' = n.cpServed tile q c'
  | .copyStall tile q => ∃ c c' n, m.cpEither tile q = some (c, .stall c' n) ∧ m' = n.cpSet tile q c'
  | .copyLateFault tile q => ∃ c x a n, m.cpEither tile q = some (c, .late x a n) ∧ m' = n.cpLate tile q c x a
  | .dtldTableChange tile q => ∃ c, RunsCp m tile q c ∧ c.op = .dtld ∧ c.moved = true ∧ c.pinned = false ∧
      c.users.any m.stillUses = false ∧
      (let slot := bits c.h 3 0
       let ents := c.entries.take c.d.len
       let mine (g : Group) (b : Nat) : Bool :=
         let h := (Tab.get (0, []) g.blocks b).1
         (recMode h == 4 || recMode h == 5) && recSlot h == slot
       m' = (m.onGroup (tile / 4) fun g =>
         { g with tables := Tab.put g.tables slot (ents ++ List.replicate (256 - ents.length) 0)
                  gens := Tab.put g.gens slot ((g.gen slot + 1) % 16), bufs := g.bufs.filter fun e => !mine g e.1 }).cpSet tile q
         { c with pinned := true })
  | .copyCommandCompletion tile q => ∃ c, RunsCp m tile q c ∧ c.stall = none ∧
      (if c.op = .dtld then c.pinned = true
       else c.moved = true ∧ (c.op = .cpyx → c.pinned = true) ∧ (c.d.bar = 0#64 ∨ c.off ≤ c.dec)) ∧
      (let n := (m.endBinds c).cpDrop tile q c
       m' = match c.node with
         | some (p, l, k) =>
           if (n.part p).hqLaunch = l ∧ (n.site (tile / 16)).graph.stopped = false then
             n.onGraph (tile / 16) fun g => { g with credits := Tab.put g.credits k (Tab.get 0 g.credits k + 1) }
           else n
         | none => (if c.d.wk = true then n.closeWake c else n).engineDone true c.by_ c.flags)
  | _ => False

end Sys2Proof.Claims

/-- R240, R246–R265, R266, R271–R279, R286, R331, R361, R392, R465: the events of the matrix units and copy engines happen where they are
due. Rules of some rows are the model's choices. DEDUCED: what a late fault names and cancels (log entries 23, 40 and 74), a drain
segment (log 75), what MXGANG waits for (log 76), records and rounding of CPYX (logs 80 and 81), and the users of a table (log 84). DESIGN
CHOICE: the steps that are granted (log 77), tiles that change under a command (log 78), the queue that is served (log 79), pins (log 85),
errors (log 147), and a rotation of a latch that holds one (log 157). -/
def Obligations.EngineEventsHappen : Prop :=
  ∀ (i : Instr) (s : State) (m' : Module), matrixEvent i s.settled m' ∨ copyEvent i s.settled m' → Happens i s m'

/-! ## Events of graphs, partitions and management -/

namespace Sys2Proof.Claims

/-- The next event e of the completion stream at a site (R330, R338). -/
def NextIs (m : Module) (site p : Nat) (e : GEv) : Prop := m.nextEvent site = some (p, e)

/-- Graphs (R321–R340): from m to m'. -/
def graphEvent (i : Instr) (m m' : Module) : Prop :=
  match i with
  | .doorbell ⟨port, p⟩ v =>
    let x := m.part p
    bit x.pcie 15 = true ∧ bits x.pcie 3 0 = port ∧
      (let room := (x.hqHead + 31 - x.hqTail % 16) % 16
       let new := if room < (v + 16 - x.hqTail % 16) % 16 then (Config.hqFree 128 (BitVec.ofNat 64 v)).toNat else v
       m' = m.onPart p fun x => { x with hqTail := new % 16 })
  | .hqCancel ⟨port, p⟩ => bit (m.part p).pcie 15 = true ∧ bits (m.part p).pcie 3 0 = port ∧ m' = m.endLaunch p 1 0
  | .launchStart p =>
    let x := m.part p
    m.powered = true ∧ x.hqState = 0 ∧ x.hqHead ≠ x.hqTail ∧ x.swSt = 0 ∧ x.sites ≠ [] ∧
      (let run : Launch := { packet := x.entry x.hqHead, live := m.liveVcns x }
       let n := (x.hqLaunch + 1) % 65536
       let y := { x with hqHead := (x.hqHead + 1) % 16, hqState := 1, hqLaunch := if n = 0 then 1 else n, run := run }
       let o := x.sites.foldl (fun m t => m.onGraph t fun _ => { live := run.live }) (m.setPart p y)
       m' = if run.packetOk p = true then o else o.endLaunch p 2 0)
  | .launchPacket site => ∃ p r n, (m.site site).part = some p ∧ (m.part p).hqState = 1 ∧ (m.site site).graph.loaded = false ∧
      (m.part p).sites.contains site = true ∧ m.blockReaches p site = true ∧
      readNodes site (m.part p).run.gbase (upFrom 0 (m.part p).run.nnode) m = .ok (r, n) ∧
      (let psi := (n.site site).psi
       let o := n.onGraph site fun g => { g with loaded := true }
       m' = match r with
         | .error k => o.onRun p fun l => { l with verdicts := Tab.put l.verdicts psi (4, k, 0) }
         | .ok t =>
           let v := match t.find? fun e => !o.nodeOk (m.part p) (m.part p).run.nnode t e.1 e.2 with
             | some e => (2, e.1, 0)
             | none => (0, 0, crc32 (imageBytes t))
           (o.onGraph site fun g => { g with nodes := t }).onRun p fun l => { l with verdicts := Tab.put l.verdicts psi v })
  | .graphVerdict p =>
    let x := m.part p
    let v := x.run.verdicts
    x.hqState = 1 ∧ x.sites.length ≤ v.length ∧ x.sites ≠ [] ∧
      m' = if v.any (fun e => e.2.1 == 4) = true then m.endLaunch p 4 (lowNode 4 v)
           else if v.any (fun e => e.2.1 == 2) = true then m.endLaunch p 2 (lowNode 2 v)
           else if (v.any fun e => some e.2.2.2 ≠ (v.head?.map fun e => e.2.2.2)) = true then m.endLaunch p 2 0
           else m.onPart p fun x => { x with hqState := 2, run := { x.run with started := true } }
  | .graphStart site => ∃ p, (m.site site).part = some p ∧ (m.part p).run.started = true ∧ (m.site site).graph.begun = false ∧
      (m.site site).graph.loaded = true ∧ m.catchesUp site (m.part p) = true ∧
      (let nodes := (m.site site).graph.nodes.map fun e => (e.1, { e.2 with pend := (e.2.npred : Int), iter := 0 })
       m' = (nodes.filter fun e => e.2.npred == 0).foldl
        (fun m e =>
          if e.2.idle then
            if (m.site site).graph.atEnd || (m.site site).graph.stopped then m else m.retire site p e.2.succ
          else m.releaseNode site p e.1) (m.onGraph site fun g => { g with begun := true, nodes := nodes }))
  | .creditPartialSum site node => ∃ p, (m.site site).part = some p ∧
      (let c := Tab.get 0 (m.site site).graph.credits node
       c ≠ 0 ∧ (m.part p).swSt = 0 ∧
       (let n := m.onGraph site fun g => { g with credits := Tab.del g.credits node }
        m' = if (n.part p).run.ended = true then n else n.onRun p fun l => { l with sums := l.sums ++ [(node, c)] }))
  | .kernelTotal p node => ∃ r, (m.part p).root = some r ∧
      (let x := m.part p
       let mine := x.run.sums.filter fun e => e.1 == node
       let total := mine.foldl (fun a e => a + e.2) (Tab.get 0 x.run.totals node)
       let goal := ((m.site r).graph.node node).goal
       mine ≠ [] ∧ (∀ e ∈ x.run.sums, node ≤ e.1) ∧ x.swSt = 0 ∧
       (x.hqState = 2 ∧ total = goal → x.run.inOrder m.time node = true) ∧
       (let n := m.onRun p fun l =>
          { l with sums := l.sums.filter fun e => decide (e.1 ≠ node), totals := Tab.put l.totals node total }
        m' = if x.hqState ≠ 2 then n
             else if goal < total then n.endLaunch p 3 node
             else if total = goal then n.onRun p fun l => { l with stream := l.stream ++ [.done node], last := (m.time, node) }
             else n))
  | .completionEvent site => ∃ p e, NextIs m site p e ∧
      (let n := m.onGraph site fun g => { g with applied := g.applied + 1 }
       let node (k : Nat) : Node := (n.site site).graph.node k
       let s : Prop := (n.site site).graph.stopped = true
       match e with
       | .done k => m' = if s then n else (if (node k).kind = 0 then n.kernelGone site p k else n).retire site p (node k).succ
       | .cond k taken =>
         m' = if s then n
              else n.retire site p (if taken then (node k).succ.take (node k).ntrue else (node k).succ.drop (node k).ntrue)
       | .loop k body => m' = if s then n else n.applyLoop site p k body
       | .hostsig k => m' = if s then n else n.retire site p (node k).succ
       | _ => False)
  | .condDecision p node => ∃ r n b o, m.rootNode p node 2 = some (r, n) ∧ siteLine r n.pred.toNat 8 m = .ok (b, o) ∧
      m' = o.rootDone p node (.cond node (decide (leNat b ≠ 0)))
  | .loopDecision p node => ∃ r n b o, m.rootNode p node 3 = some (r, n) ∧ siteLine r n.pred.toNat 8 m = .ok (b, o) ∧
      (let body := decide (leNat b ≠ 0) && decide (n.iter < n.at 303 272)
       let o := if body = true then o.onRun p fun l => { l with totals := l.totals.filter fun e => !n.inBody e.1 } else o
       m' = o.rootDone p node (.loop node body))
  | .hostsigStore p node => ∃ r n u o, m.rootNode p node 5 = some (r, n) ∧
      rootStore r n.pred.toNat (leBytes 8 (n.at 287 224)) m = .ok (u, o) ∧
      m' = (if n.at 304 304 = 1 then o.raiseMsi p (n.at 303 288) else o).rootDone p node (.hostsig node)
  | .graphEnd p => ∃ r u o, (m.part p).root = some r ∧
      (let x := m.part p
       (x.hqState = 3 ∨ (x.hqState = 2 ∧ ∃ k ∈ x.run.todo, ((m.site r).graph.node k).kind = 6)) ∧
       (∀ t ∈ x.sites, (m.site t).graph.applied = x.run.stream.length) ∧ m.launchIdle x = true ∧ x.swSt = 0 ∧
       rootStore r (x.run.at 255 192) (completionRec x m.fabNow) m = .ok (u, o) ∧
       m' = (if x.run.at 272 272 = 1 then o.raiseMsi p (x.run.at 271 256) else o).closeLaunch p)
  | .livenessEvent site => ∃ p v, m.nextEvent site = some (p, .live v) ∧
      (let n := (m.onGraph site fun g => { g with applied := g.applied + 1 }).onGraph site fun g =>
         { g with live := g.live.filter fun w => decide (w ≠ v) }
       m' = if v / 128 = (n.site site).psi ∧ (n.site site).graph.stopped = false then n.moveRanges site p v else n)
  | .stopEvent site => ∃ p, m.nextEvent site = some (p, .stop) ∧
      (let l := (m.part p).hqLaunch
       let n := (m.onGraph site fun g => { g with applied := g.applied + 1 }).onGraph site fun g =>
         { g with stopped := true, waiting := [] }
       let n := (upFrom (128 * site) 128).foldl
         (fun m c =>
           if (m.core c).gq.isEmpty then m else m.onCore c fun x => { x with gq := x.gq.filter fun e => decide (e.launch ≠ l) }) n
       m' = if (n.site site).psi = 0 then n.onRun p fun l => { l with todo := [] } else n)
  | _ => False

/-- Page notices, pre-emption and swap, failing cores (R355, R358, R363–R371): from m to m'. -/
def partitionEvent (i : Instr) (m m' : Module) : Prop :=
  match i with
  | .pageNoticeResume p all rsite => m.powered = true ∧
      m' = m.writeFcCmd p (BitVec.ofNat 64 (2 * all.toNat + rsite % 512 * 4))
  | .pageNoticeCancel p all rsite => m.powered = true ∧
      m' = m.writeFcCmd p (BitVec.ofNat 64 (1 + 2 * all.toNat + rsite % 512 * 4))
  | .pageNoticeArrival p site => ∃ k n, findIdx (fun n : Notice => n.sites.contains site) (m.part p).notices = some (k, n) ∧
      (let x := m.part p
       let left := n.sites.filter fun t => decide (t ≠ site)
       let o := m.setPart p
         { x with notices := if left.isEmpty then dropAt x.notices k else setAt x.notices k { n with sites := left } }
       let hit (v : Nat) : Bool := v == n.vpn
       let o := (o.pageWaits site hit).foldl (fun m e => m.noticeAct e.1 e.2 n.cancel) o
       let u := (upFrom (16 * site) 16).foldl
         (fun m t => (Tab.keys (m.tile t).cpq).foldl (fun m q => m.noticeQueue t q hit n.cancel) m) o
       m' = if Module.blockReaches (m.setPart p
         { x with notices := if left.isEmpty then dropAt x.notices k else setAt x.notices k { n with sites := left } }) p site = true
         then u
         else m.setPart p { x with notices := if left.isEmpty then dropAt x.notices k else setAt x.notices k { n with sites := left } })
  | .swapOut p => m.powered = true ∧ m' = m.swapCommand p 1 0
  | .swapIn p => m.powered = true ∧ m' = m.swapCommand p 2 0
  | .swapExchange p other => m.powered = true ∧ m' = m.swapCommand p 3 (other % 64)
  | .pswapStRead p => m.powered = true ∧ m' = m.onPart p fun x => { x with swErr := false }
  | .quiescenceAgreement p =>
    let x := m.part p
    let tiles := x.sites.flatMap fun s => upFrom (16 * s) 16
    x.swSt = 1 ∧ (∀ c ∈ coresOf x.sites, m.coreQuiet c = true) ∧
      (∀ e ∈ m.pkts, ¬ (x.sites.contains e.2.dsite = true ∧ m.ownPkt e.2 = false ∧ e.2.phase ≤ 2)) ∧
      (∀ t ∈ x.sites, (m.site t).graph.applied = m.furthest x) ∧
      (if (tiles.all fun t => (m.tile t).frozen) = false then m' = m.stopUnits x.sites
       else tiles.all m.tileQuiet = true ∧
         (∀ f ∈ m.flits, x.sites.contains (siteOf f.scid) = false ∧ x.sites.contains (siteOf f.dcid) = false) ∧
         m' = ((coresOf x.sites).foldl (fun m c => m.onCore c fun k => { k with quiet := true }) m).setSwap p 2)
  | .swapSaveCompletion p =>
    let x := m.part p
    x.swSt = 2 ∧
      (let n := (coresOf x.sites).foldl Module.flushRoom m
       let ctx := n.context x.sites
       let o := (x.sites.foldl Module.writeArea (n.clearSites x.sites)).onPart p fun y => { y with saved := ctx, notices := [], swOther := none }
       let o := o.setSwap p 3
       let o := x.sites.foldl (fun m s => m.onSite s fun y => { y with shadow := some p, dirty := x.swOther.isSome && y.dirty }) o
       m' = if (∀ c ∈ coresOf x.sites, (n.core c).allLines = []) then
              match x.swOther with
              | some q => o.beginRestore q
              | none => o
            else x.sites.foldl Module.writeArea n)
  | .swapRestoreCompletion p =>
    let x := m.part p
    let c := x.saved
    x.swSt = 4 ∧
      (let o := { m with
         pkts := c.pkts.foldl (fun t e => Tab.put t e.1 e.2) m.pkts, bwait := m.bwait ++ c.bwait, bdone := m.bdone ++ c.bdone
         late := m.late ++ c.late }
       let o := c.sites.foldl Module.restoreSite o
       let o := (o.onPart p fun y => { y with saved := {} }).setSwap p 0
       let o := x.sites.foldl
         (fun m s => m.onSite s fun y =>
           if y.shadow = some p then { y with shadow := none, dirty := false } else { y with dirty := true }) o
       m' = x.sites.foldl Module.resumeSite o)
  | .retire site v => m.powered = true ∧ site < 324 ∧ m' = m.writeRetire site v
  | .retirementCompletion site => ∃ r n, (m.site site).rbusy = some r ∧
      (let cid := 128 * site + r.l
       m.coreQuiet cid = true ∧ m.enginesQuiet cid = true ∧ (r.toQ = none → m.lootStuck cid = false) ∧
       (m.breakStreams cid).flushCore cid = .ok () n ∧
       (let o := match r.toQ with
          | some q => (n.copyLm (n.pid cid) (physAt site r.l q)).putLpct site r.l { n.lpct site r.l with ppos := q }
          | none => ((n.putLpct site r.l { n.lpct site r.l with v := false }).makeVacant site r.l).loseCore cid
        m' = (o.onPhy (n.pid cid) Phys.retired).onSite site fun x => { x with rbusy := none, rres := if r.toQ.isSome then 0 else 1 }))
  | .selfTestStart pid => m.powered = true ∧ pid < 46656 ∧ (m.phy pid).st = 1 ∧ m' = m.onPhy pid fun p => { p with st := 2 }
  | .selfTestPass pid =>
    let p := m.phy pid
    p.st = 2 ∧ m' = m.setPhy pid { p with st := 1, pass := min 3 (p.pass + 1), t1 := if p.pass = 0 then m.time else p.t1 }
  | .passExpiry pid =>
    let p := m.phy pid
    p.pass ≠ 0 ∧ p.t1 + 2 ^ 49 ≤ m.time ∧ m' = m.setPhy pid { p with pass := 0 }
  | _ => False

/-- A management path to site s of a powered module. -/
def Managed (m : Module) (s : Nat) : Prop := m.powered = true ∧ s < 324

/-- A token whose event names the action `act` (R391): one that does not verify, names another module or is not the next by its count has
no effect and is counted; an accepted one advances TOKCNT, and its action takes effect where ok holds. -/
def Token (m m' : Module) (sig : Bool) (key : Nat) (body : BitVec 512) (act : Nat) (ok : Prop) (action : Module → Module) : Prop :=
  let good : Prop := sig = true ∧ m.ownerHash = some (Config.keyHash key) ∧ bits body 143 80 = Config.modId.toNat ∧ bits body 79 16 = (m.tokcnt + 1#64).toNat
  let next : Module := { m with tokcnt := m.tokcnt + 1#64 }
  let a := bits body 7 0
  m.powered = true ∧
    ((¬ good ∧ m' = { m with badTokens := m.badTokens + 1 }) ∨
     (good ∧ (bits body 15 8 ≠ 0 ∨ a = 0 ∨ 6 < a) ∧ m' = next) ∨
     (good ∧ bits body 15 8 = 0 ∧ a = act ∧ 1 ≤ a ∧ a ≤ 6 ∧ ((ok ∧ m' = action next) ∨ (¬ ok ∧ m' = next))))

/-- Capacity, registers over the management path, power, links, owner tokens, partitions (R13–R23, R34, R371–R376, R382–R392):
from m to m'. -/
def managementEvent (i : Instr) (m m' : Module) : Prop :=
  match i with
  | .balloonRelease site =>
    let c := m.mc site
    let loc := dramLoc site (c.baddr * 0x10000 + 8 * c.bhead)
    ∃ b n o, c.balloonDue = true ∧ m.dramRead loc 8 = .ok b n ∧
      (let e := BitVec.ofNat 64 (leNat b)
       let n := if c.pageOk e = true then n.zeroLines site (bits e 52 16 * 0x10000) 0x10000 else n
       n.dramWrite loc (leBytes 8 (setBits e 0 0 1).toNat) = .ok () o) ∧
      m' = o.onMc site fun c =>
        let c := { c with bhead := (c.bhead + 1) % 2 ^ c.bsize }
        { c with active := !c.poolEmpty && decide (c.free < c.high) }
  | .spillMove site =>
    let c := m.mc site
    ∃ line data rest, c.spill = (line, data) :: rest ∧ c.resvUnits + unitsOf (c.bytes + lineNeed data) ≤ 6291456 ∧
      m' = m.onMc site fun c => { c with bytes := c.bytes + lineNeed data }.withSpill rest
  | .mcExposeWrite site => ∃ f, (m.mc site).due = some f ∧ m' = (m.writeExpose site f).onMc site fun c => { c with due := none }
  | .mcSpillRead site => Managed m site ∧ m' = m.onMc site fun c => { c with retries := 0 }
  | .mcBtailWrite site v => Managed m site ∧
      m' = m.onMc site fun c => if bits v 12 0 < 2 ^ c.bsize then { c with btail := bits v 12 0, active := c.active && decide (c.bhead ≠ bits v 12 0) } else c
  | .mcBpoolWrite site v => Managed m site ∧ m' = m.writeBpool site v
  | .psaveWrite site v => Managed m site ∧ m' = m.writePsave site v
  | .lpctEntryWrite site l v => Managed m site ∧ l < 128 ∧ m.lpctWaits site l v = false ∧ m.writeLpct site l v = .ok () m'
  | .niTlbi site v => Managed m site ∧ m' = m.writeTlbi site v
  | .cfgRegisterWrite space k off v =>
    m.powered = true ∧ k < spaceSize space ∧ (space = 6 → off < 8) ∧ m' = m.mgmtWrite space k off v
  | .powerOn => (m.powered = true → ∀ e ∈ m.sites, e.2.state = 0 ∧ e.2.offers = []) ∧
      m' = (upFrom 0 324).foldl (fun m t => (edgeDirs t).foldl (fun m d => m.offer t d) m) { m with powered := true }
  | .powerLoss => m.powered = true ∧ m' = m.unpowered
  | .clockOffer site =>
    let x := m.site site
    ∃ o os, x.offers = o :: os ∧ m.powered = true ∧ x.state = 0 ∧ site < 324 ∧ os.foldl min o / 4 < m.time ∧
      m' = (neighboursOf site).foldl (fun m e => m.offer e.1 e.2)
        (m.setSite site { x with state := 1, src := os.foldl min o % 4, offers := [] })
  | .siteStateAdvance site ok step =>
    let st := (m.site site).state
    m.powered = true ∧ site < 324 ∧ 1 ≤ st ∧ st < 6 ∧
      (if ok = false then m' = m.quarantine site step
       else (st = 5 → m.allBound site = true) ∧
         (let n := m.onSite site fun x => { x with state := st + 1, ready := if st = 5 then m.time else x.ready }
          m' = if st = 3 ∧ n.fab = none then { n with fab := some n.time } else n))
  | .mcFirmwareBoot mc image sigOk =>
    let old := Tab.get {} m.mgmt mc
    let ok := sigOk && decide (Config.keyHash image.key = m.fenhamHash) && decide (m.rollback ≤ image.ver)
    let new := { old with fw := ok, rec_ := !ok }
    m.powered = true ∧ mc < 36 ∧ m' = { m with mgmt := Tab.put m.mgmt mc new }
  | .powerClamp => m.powered = true ∧ m.clamp = false ∧ m' = { m with clamp := true }
  | .powerClampRelease => m.clamp = true ∧ m' = { m with clamp := false }
  | .tamvexLinkTraining port up => m.powered = true ∧ port < 72 ∧
      m' = { m with tvx := Tab.put m.tvx port (setBits (Tab.get 0 m.tvx port) 23 23 up.toNat) }
  | .pcieLinkTraining port cxl => m.powered = true ∧ port < 16 ∧
      m' = { m with pcie := Tab.put m.pcie port (if cxl then 1 else 2) }
  | .tokenLinkEnable sig key body port => Token m m' sig key body 1 (port < 72) fun m =>
      { m with tvx := Tab.put m.tvx port (setBits (Tab.get 0 m.tvx port) 0 0 1) }
  | .tokenPartitionKey sig key body p pk =>
      Token m m' sig key body 2 ((m.part p).sites ≠ [] ∧ (m.part p).swSt < 3) fun m =>
        (coresOf (m.part p).sites).foldl (fun m c => m.onCore c fun k => { k with spec := { k.spec with pk := pk } })
          ((m.part p).sites.foldl (fun m t => m.onSite t fun y => { y with pkey := pk }) m)
  | .tokenReadmit sig key body site idx rcnt =>
      let pid := 144 * site + idx
      let p := m.phy pid
      Token m m' sig key body 3
        (site < 324 ∧ idx < 144 ∧ p.st = 1 ∧ p.rcnt = rcnt ∧ p.pass = 3 ∧ p.t1 + 216000000000000 ≤ m.time ∧
          ∀ l, l < 128 → (m.lpct site l).v = true → physAt site l (m.lpct site l).ppos ≠ pid)
        fun m => m.setPhy pid { p with st := 0, pass := 0, t1 := 0 }
  | .tokenClearCoreStop sig key body site l =>
      Token m m' sig key body 4 (site < 324 ∧ l < 128 ∧ (m.core (128 * site + l)).sup.stopped = true) fun m =>
        m.onCore (128 * site + l) fun c =>
          { c with
            acts := (match Tab.find c.acts 64 with
              | some a => Tab.put (Tab.del c.acts 64) 65 a
              | none => c.acts)
            sup := { c.sup with
              stopped := false, serving := none, keys := c.sup.keys.map fun e => (e.1, if e.2 = 64 then 65 else e.2) } }
  | .tokenSetRetired sig key body site => Token m m' sig key body 5 (site < 324) fun m => m.onSite site fun x => { x with state := 8 }
  | .tokenMcExpose sig key body site fact => Token m m' sig key body 6 (site < 324 ∧ 8 ≤ fact ∧ fact ≤ 24) fun m =>
      m.onMc site fun c => { c with due := some fact }
  | .partitionCreation p sites =>
    let l := siteSet sites
    m.powered = true ∧ p < 64 ∧ (m.part p).sites = [] ∧ l ≠ [] ∧ (∀ t ∈ l, m.live t = true ∧ (m.site t).part = none) ∧
      m' = l.foldl (fun m t => m.joinSite p 1 l t) ((m.setPart p { sites := l, pcie := (m.part p).pcie }).ringMended p none)
  | .partitionReshape p sites =>
    let x := m.part p
    let l := siteSet sites
    let epoch := if x.epoch % 65536 = 65535 then 1 else x.epoch + 1
    m.powered = true ∧ x.sites ≠ [] ∧ x.swSt = 0 ∧ x.hqState = 0 ∧
      (∀ t ∈ l, m.live t = true ∧ ((m.site t).part = none ∨ (m.site t).part = some p)) ∧
      (let n := ((x.sites.filter fun t => !l.contains t).foldl Module.leaveSite m).setPart p { x with sites := l, epoch := epoch }
       m' = if l = [] then (x.sites.foldl Module.leaveSite m).setPart p { pcie := x.pcie } else l.foldl
         (fun m t =>
           if x.sites.contains t then m.onSite t fun y => { y with psi := l.idxOf t, epoch := epoch, vacant := m.unbound t }
           else m.joinSite p epoch l t) n)
  | _ => False

end Sys2Proof.Claims

/-- R13–R23, R34, R321–R341, R355, R358, R363–R376, R381–R392, R516: the events of graphs, partitions and management happen where they are
due. Rules of some rows are the model's choices. DEDUCED: which event of a COMPLETION stream ends a launch and what an end leaves (log
entries 101, 105, 106 and 107), reads of a graph engine (log 104), COPY nodes (log 86), MSI-X and host signals (log 108), refused swap
commands (log 112), what a core's quiet means (log 113), restores (logs 114 and 115), retirement and lost cores (logs 116 and 117), tests
(log 118), a stop that is cleared (log 119), clocks (log 120), reshaping (log 122), registers of the management path (logs 62 and 65), the
balloon (log 64) and exposure (log 67). DESIGN CHOICE: the form of a save area (log 66), cycles over a swap (log 110), what a power cycle
keeps (log 121), keys, signatures and the arguments of a token (log 123), and a breach of R321 (log 127). -/
def Obligations.ModuleEventsHappen : Prop :=
  ∀ (i : Instr) (s : State) (m' : Module),
    graphEvent i s.settled m' ∨ partitionEvent i s.settled m' ∨ managementEvent i s.settled m' → Happens i s m'

end
end

