-- ==== Sys2Proof/Laws/State.lean ====
section
/-!
SUPPORT. What each named update of the state leaves in each field (one lemma for each field and update, true by unfolding), and
the reads of a table after a write.
-/
namespace Sys2Proof

/-! ## Tables -/

@[simp] theorem Tab.get_put_same {α : Type} (d : α) (t : Tab α) (i : Nat) (v : α) : Tab.get d (Tab.put t i v) i = v := by
  induction t with
  | nil => simp [Tab.put, Tab.get]
  | cons e t ih =>
    obtain ⟨k, w⟩ := e
    simp only [Tab.put]
    split
    · simp [Tab.get]
    · split
      · simp [Tab.get]
      · simp [Tab.get, *]

@[simp] theorem Tab.find_put_same {α : Type} (t : Tab α) (i : Nat) (v : α) : Tab.find (Tab.put t i v) i = some v := by
  induction t with
  | nil => simp [Tab.put, Tab.find]
  | cons e t ih =>
    obtain ⟨k, w⟩ := e
    simp only [Tab.put]
    split
    · simp [Tab.find]
    · split
      · simp [Tab.find]
      · simp [Tab.find, *]

theorem Tab.get_put_other {α : Type} (d : α) (t : Tab α) (i j : Nat) (v : α) (h : j ≠ i) :
    Tab.get d (Tab.put t i v) j = Tab.get d t j := by
  induction t with
  | nil => simp [Tab.put, Tab.get, h]
  | cons e t ih =>
    obtain ⟨k, w⟩ := e
    simp only [Tab.put]
    split
    · simp [Tab.get, h]
    · split
      · rename_i h2; subst h2; simp [Tab.get, h]
      · simp only [Tab.get, ih]

theorem Tab.find_put_other {α : Type} (t : Tab α) (i j : Nat) (v : α) (h : j ≠ i) :
    Tab.find (Tab.put t i v) j = Tab.find t j := by
  induction t with
  | nil => simp [Tab.put, Tab.find, h]
  | cons e t ih =>
    obtain ⟨k, w⟩ := e
    simp only [Tab.put]
    split
    · simp [Tab.find, h]
    · split
      · rename_i h2; subst h2; simp [Tab.find, h]
      · simp only [Tab.find, ih]

/-- The later of two writes to one key is the one that stays. -/
@[simp] theorem Tab.put_put_same {α : Type} (t : Tab α) (i : Nat) (v w : α) :
    Tab.put (Tab.put t i v) i w = Tab.put t i w := by
  induction t with
  | nil => simp [Tab.put]
  | cons e t ih =>
    obtain ⟨k, u⟩ := e
    simp only [Tab.put]
    split
    · simp [Tab.put]
    · split
      · simp [Tab.put]
      · simp [Tab.put, *]

namespace Machine

/-! ## The module -/

@[simp] theorem Module.core_setCore (m : Module) (i : Nat) (x : Core) : (m.setCore i x).core i = x :=
  Tab.get_put_same _ _ _ _
theorem Module.core_setCore_other (m : Module) (i j : Nat) (x : Core) (h : j ≠ i) : (m.setCore i x).core j = m.core j :=
  Tab.get_put_other _ _ _ _ _ h
@[simp] theorem Module.core_onCore (m : Module) (i : Nat) (f : Core → Core) : (m.onCore i f).core i = f (m.core i) :=
  Tab.get_put_same _ _ _ _
theorem Module.core_onCore_other (m : Module) (i j : Nat) (f : Core → Core) (h : j ≠ i) : (m.onCore i f).core j = m.core j :=
  Tab.get_put_other _ _ _ _ _ h
@[simp] theorem Module.onCore_onCore (m : Module) (i : Nat) (f g : Core → Core) : (m.onCore i f).onCore i g = m.onCore i (g ∘ f) := by
  simp [Module.onCore, Module.setCore, Module.core]
@[simp] theorem Module.setCore_time (m : Module) (i : Nat) (x : Core) : (m.setCore i x).time = m.time := rfl
@[simp] theorem Module.onCore_time (m : Module) (i : Nat) (f : Core → Core) : (m.onCore i f).time = m.time := rfl
@[simp] theorem Module.setCore_powered (m : Module) (i : Nat) (x : Core) : (m.setCore i x).powered = m.powered := rfl
@[simp] theorem Module.onCore_powered (m : Module) (i : Nat) (f : Core → Core) : (m.onCore i f).powered = m.powered := rfl
@[simp] theorem Module.setCore_fab (m : Module) (i : Nat) (x : Core) : (m.setCore i x).fab = m.fab := rfl
@[simp] theorem Module.onCore_fab (m : Module) (i : Nat) (f : Core → Core) : (m.onCore i f).fab = m.fab := rfl
@[simp] theorem Module.setCore_mem (m : Module) (i : Nat) (x : Core) : (m.setCore i x).mem = m.mem := rfl
@[simp] theorem Module.onCore_mem (m : Module) (i : Nat) (f : Core → Core) : (m.onCore i f).mem = m.mem := rfl
@[simp] theorem Module.setCore_quar (m : Module) (i : Nat) (x : Core) : (m.setCore i x).quar = m.quar := rfl
@[simp] theorem Module.onCore_quar (m : Module) (i : Nat) (f : Core → Core) : (m.onCore i f).quar = m.quar := rfl
@[simp] theorem Module.setCore_sites (m : Module) (i : Nat) (x : Core) : (m.setCore i x).sites = m.sites := rfl
@[simp] theorem Module.onCore_sites (m : Module) (i : Nat) (f : Core → Core) : (m.onCore i f).sites = m.sites := rfl
@[simp] theorem Module.setCore_phys (m : Module) (i : Nat) (x : Core) : (m.setCore i x).phys = m.phys := rfl
@[simp] theorem Module.onCore_phys (m : Module) (i : Nat) (f : Core → Core) : (m.onCore i f).phys = m.phys := rfl
@[simp] theorem Module.setCore_tiles (m : Module) (i : Nat) (x : Core) : (m.setCore i x).tiles = m.tiles := rfl
@[simp] theorem Module.onCore_tiles (m : Module) (i : Nat) (f : Core → Core) : (m.onCore i f).tiles = m.tiles := rfl
@[simp] theorem Module.setCore_groups (m : Module) (i : Nat) (x : Core) : (m.setCore i x).groups = m.groups := rfl
@[simp] theorem Module.onCore_groups (m : Module) (i : Nat) (f : Core → Core) : (m.onCore i f).groups = m.groups := rfl
@[simp] theorem Module.setCore_parts (m : Module) (i : Nat) (x : Core) : (m.setCore i x).parts = m.parts := rfl
@[simp] theorem Module.onCore_parts (m : Module) (i : Nat) (f : Core → Core) : (m.onCore i f).parts = m.parts := rfl
@[simp] theorem Module.setCore_pkts (m : Module) (i : Nat) (x : Core) : (m.setCore i x).pkts = m.pkts := rfl
@[simp] theorem Module.onCore_pkts (m : Module) (i : Nat) (f : Core → Core) : (m.onCore i f).pkts = m.pkts := rfl
@[simp] theorem Module.setCore_nextPkt (m : Module) (i : Nat) (x : Core) : (m.setCore i x).nextPkt = m.nextPkt := rfl
@[simp] theorem Module.onCore_nextPkt (m : Module) (i : Nat) (f : Core → Core) : (m.onCore i f).nextPkt = m.nextPkt := rfl
@[simp] theorem Module.setCore_nextInj (m : Module) (i : Nat) (x : Core) : (m.setCore i x).nextInj = m.nextInj := rfl
@[simp] theorem Module.onCore_nextInj (m : Module) (i : Nat) (f : Core → Core) : (m.onCore i f).nextInj = m.nextInj := rfl
@[simp] theorem Module.setCore_flits (m : Module) (i : Nat) (x : Core) : (m.setCore i x).flits = m.flits := rfl
@[simp] theorem Module.onCore_flits (m : Module) (i : Nat) (f : Core → Core) : (m.onCore i f).flits = m.flits := rfl
@[simp] theorem Module.setCore_credits (m : Module) (i : Nat) (x : Core) : (m.setCore i x).credits = m.credits := rfl
@[simp] theorem Module.onCore_credits (m : Module) (i : Nat) (f : Core → Core) : (m.onCore i f).credits = m.credits := rfl
@[simp] theorem Module.setCore_bwait (m : Module) (i : Nat) (x : Core) : (m.setCore i x).bwait = m.bwait := rfl
@[simp] theorem Module.onCore_bwait (m : Module) (i : Nat) (f : Core → Core) : (m.onCore i f).bwait = m.bwait := rfl
@[simp] theorem Module.setCore_bdone (m : Module) (i : Nat) (x : Core) : (m.setCore i x).bdone = m.bdone := rfl
@[simp] theorem Module.onCore_bdone (m : Module) (i : Nat) (f : Core → Core) : (m.onCore i f).bdone = m.bdone := rfl
@[simp] theorem Module.setCore_coll (m : Module) (i : Nat) (x : Core) : (m.setCore i x).coll = m.coll := rfl
@[simp] theorem Module.onCore_coll (m : Module) (i : Nat) (f : Core → Core) : (m.onCore i f).coll = m.coll := rfl
@[simp] theorem Module.setCore_late (m : Module) (i : Nat) (x : Core) : (m.setCore i x).late = m.late := rfl
@[simp] theorem Module.onCore_late (m : Module) (i : Nat) (f : Core → Core) : (m.onCore i f).late = m.late := rfl
@[simp] theorem Module.setCore_recalls (m : Module) (i : Nat) (x : Core) : (m.setCore i x).recalls = m.recalls := rfl
@[simp] theorem Module.onCore_recalls (m : Module) (i : Nat) (f : Core → Core) : (m.onCore i f).recalls = m.recalls := rfl
@[simp] theorem Module.setCore_upsets (m : Module) (i : Nat) (x : Core) : (m.setCore i x).upsets = m.upsets := rfl
@[simp] theorem Module.onCore_upsets (m : Module) (i : Nat) (f : Core → Core) : (m.onCore i f).upsets = m.upsets := rfl
@[simp] theorem Module.setCore_outbox (m : Module) (i : Nat) (x : Core) : (m.setCore i x).outbox = m.outbox := rfl
@[simp] theorem Module.onCore_outbox (m : Module) (i : Nat) (f : Core → Core) : (m.onCore i f).outbox = m.outbox := rfl
@[simp] theorem Module.setCore_tvx (m : Module) (i : Nat) (x : Core) : (m.setCore i x).tvx = m.tvx := rfl
@[simp] theorem Module.onCore_tvx (m : Module) (i : Nat) (f : Core → Core) : (m.onCore i f).tvx = m.tvx := rfl
@[simp] theorem Module.setCore_peers (m : Module) (i : Nat) (x : Core) : (m.setCore i x).peers = m.peers := rfl
@[simp] theorem Module.onCore_peers (m : Module) (i : Nat) (f : Core → Core) : (m.onCore i f).peers = m.peers := rfl
@[simp] theorem Module.setCore_pcie (m : Module) (i : Nat) (x : Core) : (m.setCore i x).pcie = m.pcie := rfl
@[simp] theorem Module.onCore_pcie (m : Module) (i : Nat) (f : Core → Core) : (m.onCore i f).pcie = m.pcie := rfl
@[simp] theorem Module.setCore_msi (m : Module) (i : Nat) (x : Core) : (m.setCore i x).msi = m.msi := rfl
@[simp] theorem Module.onCore_msi (m : Module) (i : Nat) (f : Core → Core) : (m.onCore i f).msi = m.msi := rfl
@[simp] theorem Module.setCore_tokcnt (m : Module) (i : Nat) (x : Core) : (m.setCore i x).tokcnt = m.tokcnt := rfl
@[simp] theorem Module.onCore_tokcnt (m : Module) (i : Nat) (f : Core → Core) : (m.onCore i f).tokcnt = m.tokcnt := rfl
@[simp] theorem Module.setCore_ownerHash (m : Module) (i : Nat) (x : Core) : (m.setCore i x).ownerHash = m.ownerHash := rfl
@[simp] theorem Module.onCore_ownerHash (m : Module) (i : Nat) (f : Core → Core) : (m.onCore i f).ownerHash = m.ownerHash := rfl
@[simp] theorem Module.setCore_fenhamHash (m : Module) (i : Nat) (x : Core) : (m.setCore i x).fenhamHash = m.fenhamHash := rfl
@[simp] theorem Module.onCore_fenhamHash (m : Module) (i : Nat) (f : Core → Core) : (m.onCore i f).fenhamHash = m.fenhamHash := rfl
@[simp] theorem Module.setCore_rollback (m : Module) (i : Nat) (x : Core) : (m.setCore i x).rollback = m.rollback := rfl
@[simp] theorem Module.onCore_rollback (m : Module) (i : Nat) (f : Core → Core) : (m.onCore i f).rollback = m.rollback := rfl
@[simp] theorem Module.setCore_badTokens (m : Module) (i : Nat) (x : Core) : (m.setCore i x).badTokens = m.badTokens := rfl
@[simp] theorem Module.onCore_badTokens (m : Module) (i : Nat) (f : Core → Core) : (m.onCore i f).badTokens = m.badTokens := rfl
@[simp] theorem Module.setCore_modnum (m : Module) (i : Nat) (x : Core) : (m.setCore i x).modnum = m.modnum := rfl
@[simp] theorem Module.onCore_modnum (m : Module) (i : Nat) (f : Core → Core) : (m.onCore i f).modnum = m.modnum := rfl
@[simp] theorem Module.setCore_mgmt (m : Module) (i : Nat) (x : Core) : (m.setCore i x).mgmt = m.mgmt := rfl
@[simp] theorem Module.onCore_mgmt (m : Module) (i : Nat) (f : Core → Core) : (m.onCore i f).mgmt = m.mgmt := rfl
@[simp] theorem Module.setCore_clamp (m : Module) (i : Nat) (x : Core) : (m.setCore i x).clamp = m.clamp := rfl
@[simp] theorem Module.onCore_clamp (m : Module) (i : Nat) (f : Core → Core) : (m.onCore i f).clamp = m.clamp := rfl
@[simp] theorem Module.site_onCore (m : Module) (i j : Nat) (f : Core → Core) : (m.onCore i f).site j = m.site j := rfl
@[simp] theorem Module.tile_onCore (m : Module) (i j : Nat) (f : Core → Core) : (m.onCore i f).tile j = m.tile j := rfl
@[simp] theorem Module.group_onCore (m : Module) (i j : Nat) (f : Core → Core) : (m.onCore i f).group j = m.group j := rfl
@[simp] theorem Module.part_onCore (m : Module) (i j : Nat) (f : Core → Core) : (m.onCore i f).part j = m.part j := rfl
@[simp] theorem Module.phy_onCore (m : Module) (i j : Nat) (f : Core → Core) : (m.onCore i f).phy j = m.phy j := rfl
@[simp] theorem Module.site_setSite (m : Module) (i : Nat) (x : Site) : (m.setSite i x).site i = x :=
  Tab.get_put_same _ _ _ _
theorem Module.site_setSite_other (m : Module) (i j : Nat) (x : Site) (h : j ≠ i) : (m.setSite i x).site j = m.site j :=
  Tab.get_put_other _ _ _ _ _ h
@[simp] theorem Module.site_onSite (m : Module) (i : Nat) (f : Site → Site) : (m.onSite i f).site i = f (m.site i) :=
  Tab.get_put_same _ _ _ _
theorem Module.site_onSite_other (m : Module) (i j : Nat) (f : Site → Site) (h : j ≠ i) : (m.onSite i f).site j = m.site j :=
  Tab.get_put_other _ _ _ _ _ h
@[simp] theorem Module.onSite_onSite (m : Module) (i : Nat) (f g : Site → Site) : (m.onSite i f).onSite i g = m.onSite i (g ∘ f) := by
  simp [Module.onSite, Module.setSite, Module.site]
@[simp] theorem Module.setSite_time (m : Module) (i : Nat) (x : Site) : (m.setSite i x).time = m.time := rfl
@[simp] theorem Module.onSite_time (m : Module) (i : Nat) (f : Site → Site) : (m.onSite i f).time = m.time := rfl
@[simp] theorem Module.setSite_powered (m : Module) (i : Nat) (x : Site) : (m.setSite i x).powered = m.powered := rfl
@[simp] theorem Module.onSite_powered (m : Module) (i : Nat) (f : Site → Site) : (m.onSite i f).powered = m.powered := rfl
@[simp] theorem Module.setSite_fab (m : Module) (i : Nat) (x : Site) : (m.setSite i x).fab = m.fab := rfl
@[simp] theorem Module.onSite_fab (m : Module) (i : Nat) (f : Site → Site) : (m.onSite i f).fab = m.fab := rfl
@[simp] theorem Module.setSite_mem (m : Module) (i : Nat) (x : Site) : (m.setSite i x).mem = m.mem := rfl
@[simp] theorem Module.onSite_mem (m : Module) (i : Nat) (f : Site → Site) : (m.onSite i f).mem = m.mem := rfl
@[simp] theorem Module.setSite_quar (m : Module) (i : Nat) (x : Site) : (m.setSite i x).quar = m.quar := rfl
@[simp] theorem Module.onSite_quar (m : Module) (i : Nat) (f : Site → Site) : (m.onSite i f).quar = m.quar := rfl
@[simp] theorem Module.setSite_cores (m : Module) (i : Nat) (x : Site) : (m.setSite i x).cores = m.cores := rfl
@[simp] theorem Module.onSite_cores (m : Module) (i : Nat) (f : Site → Site) : (m.onSite i f).cores = m.cores := rfl
@[simp] theorem Module.setSite_phys (m : Module) (i : Nat) (x : Site) : (m.setSite i x).phys = m.phys := rfl
@[simp] theorem Module.onSite_phys (m : Module) (i : Nat) (f : Site → Site) : (m.onSite i f).phys = m.phys := rfl
@[simp] theorem Module.setSite_tiles (m : Module) (i : Nat) (x : Site) : (m.setSite i x).tiles = m.tiles := rfl
@[simp] theorem Module.onSite_tiles (m : Module) (i : Nat) (f : Site → Site) : (m.onSite i f).tiles = m.tiles := rfl
@[simp] theorem Module.setSite_groups (m : Module) (i : Nat) (x : Site) : (m.setSite i x).groups = m.groups := rfl
@[simp] theorem Module.onSite_groups (m : Module) (i : Nat) (f : Site → Site) : (m.onSite i f).groups = m.groups := rfl
@[simp] theorem Module.setSite_parts (m : Module) (i : Nat) (x : Site) : (m.setSite i x).parts = m.parts := rfl
@[simp] theorem Module.onSite_parts (m : Module) (i : Nat) (f : Site → Site) : (m.onSite i f).parts = m.parts := rfl
@[simp] theorem Module.setSite_pkts (m : Module) (i : Nat) (x : Site) : (m.setSite i x).pkts = m.pkts := rfl
@[simp] theorem Module.onSite_pkts (m : Module) (i : Nat) (f : Site → Site) : (m.onSite i f).pkts = m.pkts := rfl
@[simp] theorem Module.setSite_nextPkt (m : Module) (i : Nat) (x : Site) : (m.setSite i x).nextPkt = m.nextPkt := rfl
@[simp] theorem Module.onSite_nextPkt (m : Module) (i : Nat) (f : Site → Site) : (m.onSite i f).nextPkt = m.nextPkt := rfl
@[simp] theorem Module.setSite_nextInj (m : Module) (i : Nat) (x : Site) : (m.setSite i x).nextInj = m.nextInj := rfl
@[simp] theorem Module.onSite_nextInj (m : Module) (i : Nat) (f : Site → Site) : (m.onSite i f).nextInj = m.nextInj := rfl
@[simp] theorem Module.setSite_flits (m : Module) (i : Nat) (x : Site) : (m.setSite i x).flits = m.flits := rfl
@[simp] theorem Module.onSite_flits (m : Module) (i : Nat) (f : Site → Site) : (m.onSite i f).flits = m.flits := rfl
@[simp] theorem Module.setSite_credits (m : Module) (i : Nat) (x : Site) : (m.setSite i x).credits = m.credits := rfl
@[simp] theorem Module.onSite_credits (m : Module) (i : Nat) (f : Site → Site) : (m.onSite i f).credits = m.credits := rfl
@[simp] theorem Module.setSite_bwait (m : Module) (i : Nat) (x : Site) : (m.setSite i x).bwait = m.bwait := rfl
@[simp] theorem Module.onSite_bwait (m : Module) (i : Nat) (f : Site → Site) : (m.onSite i f).bwait = m.bwait := rfl
@[simp] theorem Module.setSite_bdone (m : Module) (i : Nat) (x : Site) : (m.setSite i x).bdone = m.bdone := rfl
@[simp] theorem Module.onSite_bdone (m : Module) (i : Nat) (f : Site → Site) : (m.onSite i f).bdone = m.bdone := rfl
@[simp] theorem Module.setSite_coll (m : Module) (i : Nat) (x : Site) : (m.setSite i x).coll = m.coll := rfl
@[simp] theorem Module.onSite_coll (m : Module) (i : Nat) (f : Site → Site) : (m.onSite i f).coll = m.coll := rfl
@[simp] theorem Module.setSite_late (m : Module) (i : Nat) (x : Site) : (m.setSite i x).late = m.late := rfl
@[simp] theorem Module.onSite_late (m : Module) (i : Nat) (f : Site → Site) : (m.onSite i f).late = m.late := rfl
@[simp] theorem Module.setSite_recalls (m : Module) (i : Nat) (x : Site) : (m.setSite i x).recalls = m.recalls := rfl
@[simp] theorem Module.onSite_recalls (m : Module) (i : Nat) (f : Site → Site) : (m.onSite i f).recalls = m.recalls := rfl
@[simp] theorem Module.setSite_upsets (m : Module) (i : Nat) (x : Site) : (m.setSite i x).upsets = m.upsets := rfl
@[simp] theorem Module.onSite_upsets (m : Module) (i : Nat) (f : Site → Site) : (m.onSite i f).upsets = m.upsets := rfl
@[simp] theorem Module.setSite_outbox (m : Module) (i : Nat) (x : Site) : (m.setSite i x).outbox = m.outbox := rfl
@[simp] theorem Module.onSite_outbox (m : Module) (i : Nat) (f : Site → Site) : (m.onSite i f).outbox = m.outbox := rfl
@[simp] theorem Module.setSite_tvx (m : Module) (i : Nat) (x : Site) : (m.setSite i x).tvx = m.tvx := rfl
@[simp] theorem Module.onSite_tvx (m : Module) (i : Nat) (f : Site → Site) : (m.onSite i f).tvx = m.tvx := rfl
@[simp] theorem Module.setSite_peers (m : Module) (i : Nat) (x : Site) : (m.setSite i x).peers = m.peers := rfl
@[simp] theorem Module.onSite_peers (m : Module) (i : Nat) (f : Site → Site) : (m.onSite i f).peers = m.peers := rfl
@[simp] theorem Module.setSite_pcie (m : Module) (i : Nat) (x : Site) : (m.setSite i x).pcie = m.pcie := rfl
@[simp] theorem Module.onSite_pcie (m : Module) (i : Nat) (f : Site → Site) : (m.onSite i f).pcie = m.pcie := rfl
@[simp] theorem Module.setSite_msi (m : Module) (i : Nat) (x : Site) : (m.setSite i x).msi = m.msi := rfl
@[simp] theorem Module.onSite_msi (m : Module) (i : Nat) (f : Site → Site) : (m.onSite i f).msi = m.msi := rfl
@[simp] theorem Module.setSite_tokcnt (m : Module) (i : Nat) (x : Site) : (m.setSite i x).tokcnt = m.tokcnt := rfl
@[simp] theorem Module.onSite_tokcnt (m : Module) (i : Nat) (f : Site → Site) : (m.onSite i f).tokcnt = m.tokcnt := rfl
@[simp] theorem Module.setSite_ownerHash (m : Module) (i : Nat) (x : Site) : (m.setSite i x).ownerHash = m.ownerHash := rfl
@[simp] theorem Module.onSite_ownerHash (m : Module) (i : Nat) (f : Site → Site) : (m.onSite i f).ownerHash = m.ownerHash := rfl
@[simp] theorem Module.setSite_fenhamHash (m : Module) (i : Nat) (x : Site) : (m.setSite i x).fenhamHash = m.fenhamHash := rfl
@[simp] theorem Module.onSite_fenhamHash (m : Module) (i : Nat) (f : Site → Site) : (m.onSite i f).fenhamHash = m.fenhamHash := rfl
@[simp] theorem Module.setSite_rollback (m : Module) (i : Nat) (x : Site) : (m.setSite i x).rollback = m.rollback := rfl
@[simp] theorem Module.onSite_rollback (m : Module) (i : Nat) (f : Site → Site) : (m.onSite i f).rollback = m.rollback := rfl
@[simp] theorem Module.setSite_badTokens (m : Module) (i : Nat) (x : Site) : (m.setSite i x).badTokens = m.badTokens := rfl
@[simp] theorem Module.onSite_badTokens (m : Module) (i : Nat) (f : Site → Site) : (m.onSite i f).badTokens = m.badTokens := rfl
@[simp] theorem Module.setSite_modnum (m : Module) (i : Nat) (x : Site) : (m.setSite i x).modnum = m.modnum := rfl
@[simp] theorem Module.onSite_modnum (m : Module) (i : Nat) (f : Site → Site) : (m.onSite i f).modnum = m.modnum := rfl
@[simp] theorem Module.setSite_mgmt (m : Module) (i : Nat) (x : Site) : (m.setSite i x).mgmt = m.mgmt := rfl
@[simp] theorem Module.onSite_mgmt (m : Module) (i : Nat) (f : Site → Site) : (m.onSite i f).mgmt = m.mgmt := rfl
@[simp] theorem Module.setSite_clamp (m : Module) (i : Nat) (x : Site) : (m.setSite i x).clamp = m.clamp := rfl
@[simp] theorem Module.onSite_clamp (m : Module) (i : Nat) (f : Site → Site) : (m.onSite i f).clamp = m.clamp := rfl
@[simp] theorem Module.core_onSite (m : Module) (i j : Nat) (f : Site → Site) : (m.onSite i f).core j = m.core j := rfl
@[simp] theorem Module.tile_onSite (m : Module) (i j : Nat) (f : Site → Site) : (m.onSite i f).tile j = m.tile j := rfl
@[simp] theorem Module.group_onSite (m : Module) (i j : Nat) (f : Site → Site) : (m.onSite i f).group j = m.group j := rfl
@[simp] theorem Module.part_onSite (m : Module) (i j : Nat) (f : Site → Site) : (m.onSite i f).part j = m.part j := rfl
@[simp] theorem Module.phy_onSite (m : Module) (i j : Nat) (f : Site → Site) : (m.onSite i f).phy j = m.phy j := rfl
@[simp] theorem Module.tile_setTile (m : Module) (i : Nat) (x : Tile) : (m.setTile i x).tile i = x :=
  Tab.get_put_same _ _ _ _
theorem Module.tile_setTile_other (m : Module) (i j : Nat) (x : Tile) (h : j ≠ i) : (m.setTile i x).tile j = m.tile j :=
  Tab.get_put_other _ _ _ _ _ h
@[simp] theorem Module.tile_onTile (m : Module) (i : Nat) (f : Tile → Tile) : (m.onTile i f).tile i = f (m.tile i) :=
  Tab.get_put_same _ _ _ _
theorem Module.tile_onTile_other (m : Module) (i j : Nat) (f : Tile → Tile) (h : j ≠ i) : (m.onTile i f).tile j = m.tile j :=
  Tab.get_put_other _ _ _ _ _ h
@[simp] theorem Module.onTile_onTile (m : Module) (i : Nat) (f g : Tile → Tile) : (m.onTile i f).onTile i g = m.onTile i (g ∘ f) := by
  simp [Module.onTile, Module.setTile, Module.tile]
@[simp] theorem Module.setTile_time (m : Module) (i : Nat) (x : Tile) : (m.setTile i x).time = m.time := rfl
@[simp] theorem Module.onTile_time (m : Module) (i : Nat) (f : Tile → Tile) : (m.onTile i f).time = m.time := rfl
@[simp] theorem Module.setTile_powered (m : Module) (i : Nat) (x : Tile) : (m.setTile i x).powered = m.powered := rfl
@[simp] theorem Module.onTile_powered (m : Module) (i : Nat) (f : Tile → Tile) : (m.onTile i f).powered = m.powered := rfl
@[simp] theorem Module.setTile_fab (m : Module) (i : Nat) (x : Tile) : (m.setTile i x).fab = m.fab := rfl
@[simp] theorem Module.onTile_fab (m : Module) (i : Nat) (f : Tile → Tile) : (m.onTile i f).fab = m.fab := rfl
@[simp] theorem Module.setTile_mem (m : Module) (i : Nat) (x : Tile) : (m.setTile i x).mem = m.mem := rfl
@[simp] theorem Module.onTile_mem (m : Module) (i : Nat) (f : Tile → Tile) : (m.onTile i f).mem = m.mem := rfl
@[simp] theorem Module.setTile_quar (m : Module) (i : Nat) (x : Tile) : (m.setTile i x).quar = m.quar := rfl
@[simp] theorem Module.onTile_quar (m : Module) (i : Nat) (f : Tile → Tile) : (m.onTile i f).quar = m.quar := rfl
@[simp] theorem Module.setTile_sites (m : Module) (i : Nat) (x : Tile) : (m.setTile i x).sites = m.sites := rfl
@[simp] theorem Module.onTile_sites (m : Module) (i : Nat) (f : Tile → Tile) : (m.onTile i f).sites = m.sites := rfl
@[simp] theorem Module.setTile_cores (m : Module) (i : Nat) (x : Tile) : (m.setTile i x).cores = m.cores := rfl
@[simp] theorem Module.onTile_cores (m : Module) (i : Nat) (f : Tile → Tile) : (m.onTile i f).cores = m.cores := rfl
@[simp] theorem Module.setTile_phys (m : Module) (i : Nat) (x : Tile) : (m.setTile i x).phys = m.phys := rfl
@[simp] theorem Module.onTile_phys (m : Module) (i : Nat) (f : Tile → Tile) : (m.onTile i f).phys = m.phys := rfl
@[simp] theorem Module.setTile_groups (m : Module) (i : Nat) (x : Tile) : (m.setTile i x).groups = m.groups := rfl
@[simp] theorem Module.onTile_groups (m : Module) (i : Nat) (f : Tile → Tile) : (m.onTile i f).groups = m.groups := rfl
@[simp] theorem Module.setTile_parts (m : Module) (i : Nat) (x : Tile) : (m.setTile i x).parts = m.parts := rfl
@[simp] theorem Module.onTile_parts (m : Module) (i : Nat) (f : Tile → Tile) : (m.onTile i f).parts = m.parts := rfl
@[simp] theorem Module.setTile_pkts (m : Module) (i : Nat) (x : Tile) : (m.setTile i x).pkts = m.pkts := rfl
@[simp] theorem Module.onTile_pkts (m : Module) (i : Nat) (f : Tile → Tile) : (m.onTile i f).pkts = m.pkts := rfl
@[simp] theorem Module.setTile_nextPkt (m : Module) (i : Nat) (x : Tile) : (m.setTile i x).nextPkt = m.nextPkt := rfl
@[simp] theorem Module.onTile_nextPkt (m : Module) (i : Nat) (f : Tile → Tile) : (m.onTile i f).nextPkt = m.nextPkt := rfl
@[simp] theorem Module.setTile_nextInj (m : Module) (i : Nat) (x : Tile) : (m.setTile i x).nextInj = m.nextInj := rfl
@[simp] theorem Module.onTile_nextInj (m : Module) (i : Nat) (f : Tile → Tile) : (m.onTile i f).nextInj = m.nextInj := rfl
@[simp] theorem Module.setTile_flits (m : Module) (i : Nat) (x : Tile) : (m.setTile i x).flits = m.flits := rfl
@[simp] theorem Module.onTile_flits (m : Module) (i : Nat) (f : Tile → Tile) : (m.onTile i f).flits = m.flits := rfl
@[simp] theorem Module.setTile_credits (m : Module) (i : Nat) (x : Tile) : (m.setTile i x).credits = m.credits := rfl
@[simp] theorem Module.onTile_credits (m : Module) (i : Nat) (f : Tile → Tile) : (m.onTile i f).credits = m.credits := rfl
@[simp] theorem Module.setTile_bwait (m : Module) (i : Nat) (x : Tile) : (m.setTile i x).bwait = m.bwait := rfl
@[simp] theorem Module.onTile_bwait (m : Module) (i : Nat) (f : Tile → Tile) : (m.onTile i f).bwait = m.bwait := rfl
@[simp] theorem Module.setTile_bdone (m : Module) (i : Nat) (x : Tile) : (m.setTile i x).bdone = m.bdone := rfl
@[simp] theorem Module.onTile_bdone (m : Module) (i : Nat) (f : Tile → Tile) : (m.onTile i f).bdone = m.bdone := rfl
@[simp] theorem Module.setTile_coll (m : Module) (i : Nat) (x : Tile) : (m.setTile i x).coll = m.coll := rfl
@[simp] theorem Module.onTile_coll (m : Module) (i : Nat) (f : Tile → Tile) : (m.onTile i f).coll = m.coll := rfl
@[simp] theorem Module.setTile_late (m : Module) (i : Nat) (x : Tile) : (m.setTile i x).late = m.late := rfl
@[simp] theorem Module.onTile_late (m : Module) (i : Nat) (f : Tile → Tile) : (m.onTile i f).late = m.late := rfl
@[simp] theorem Module.setTile_recalls (m : Module) (i : Nat) (x : Tile) : (m.setTile i x).recalls = m.recalls := rfl
@[simp] theorem Module.onTile_recalls (m : Module) (i : Nat) (f : Tile → Tile) : (m.onTile i f).recalls = m.recalls := rfl
@[simp] theorem Module.setTile_upsets (m : Module) (i : Nat) (x : Tile) : (m.setTile i x).upsets = m.upsets := rfl
@[simp] theorem Module.onTile_upsets (m : Module) (i : Nat) (f : Tile → Tile) : (m.onTile i f).upsets = m.upsets := rfl
@[simp] theorem Module.setTile_outbox (m : Module) (i : Nat) (x : Tile) : (m.setTile i x).outbox = m.outbox := rfl
@[simp] theorem Module.onTile_outbox (m : Module) (i : Nat) (f : Tile → Tile) : (m.onTile i f).outbox = m.outbox := rfl
@[simp] theorem Module.setTile_tvx (m : Module) (i : Nat) (x : Tile) : (m.setTile i x).tvx = m.tvx := rfl
@[simp] theorem Module.onTile_tvx (m : Module) (i : Nat) (f : Tile → Tile) : (m.onTile i f).tvx = m.tvx := rfl
@[simp] theorem Module.setTile_peers (m : Module) (i : Nat) (x : Tile) : (m.setTile i x).peers = m.peers := rfl
@[simp] theorem Module.onTile_peers (m : Module) (i : Nat) (f : Tile → Tile) : (m.onTile i f).peers = m.peers := rfl
@[simp] theorem Module.setTile_pcie (m : Module) (i : Nat) (x : Tile) : (m.setTile i x).pcie = m.pcie := rfl
@[simp] theorem Module.onTile_pcie (m : Module) (i : Nat) (f : Tile → Tile) : (m.onTile i f).pcie = m.pcie := rfl
@[simp] theorem Module.setTile_msi (m : Module) (i : Nat) (x : Tile) : (m.setTile i x).msi = m.msi := rfl
@[simp] theorem Module.onTile_msi (m : Module) (i : Nat) (f : Tile → Tile) : (m.onTile i f).msi = m.msi := rfl
@[simp] theorem Module.setTile_tokcnt (m : Module) (i : Nat) (x : Tile) : (m.setTile i x).tokcnt = m.tokcnt := rfl
@[simp] theorem Module.onTile_tokcnt (m : Module) (i : Nat) (f : Tile → Tile) : (m.onTile i f).tokcnt = m.tokcnt := rfl
@[simp] theorem Module.setTile_ownerHash (m : Module) (i : Nat) (x : Tile) : (m.setTile i x).ownerHash = m.ownerHash := rfl
@[simp] theorem Module.onTile_ownerHash (m : Module) (i : Nat) (f : Tile → Tile) : (m.onTile i f).ownerHash = m.ownerHash := rfl
@[simp] theorem Module.setTile_fenhamHash (m : Module) (i : Nat) (x : Tile) : (m.setTile i x).fenhamHash = m.fenhamHash := rfl
@[simp] theorem Module.onTile_fenhamHash (m : Module) (i : Nat) (f : Tile → Tile) : (m.onTile i f).fenhamHash = m.fenhamHash := rfl
@[simp] theorem Module.setTile_rollback (m : Module) (i : Nat) (x : Tile) : (m.setTile i x).rollback = m.rollback := rfl
@[simp] theorem Module.onTile_rollback (m : Module) (i : Nat) (f : Tile → Tile) : (m.onTile i f).rollback = m.rollback := rfl
@[simp] theorem Module.setTile_badTokens (m : Module) (i : Nat) (x : Tile) : (m.setTile i x).badTokens = m.badTokens := rfl
@[simp] theorem Module.onTile_badTokens (m : Module) (i : Nat) (f : Tile → Tile) : (m.onTile i f).badTokens = m.badTokens := rfl
@[simp] theorem Module.setTile_modnum (m : Module) (i : Nat) (x : Tile) : (m.setTile i x).modnum = m.modnum := rfl
@[simp] theorem Module.onTile_modnum (m : Module) (i : Nat) (f : Tile → Tile) : (m.onTile i f).modnum = m.modnum := rfl
@[simp] theorem Module.setTile_mgmt (m : Module) (i : Nat) (x : Tile) : (m.setTile i x).mgmt = m.mgmt := rfl
@[simp] theorem Module.onTile_mgmt (m : Module) (i : Nat) (f : Tile → Tile) : (m.onTile i f).mgmt = m.mgmt := rfl
@[simp] theorem Module.setTile_clamp (m : Module) (i : Nat) (x : Tile) : (m.setTile i x).clamp = m.clamp := rfl
@[simp] theorem Module.onTile_clamp (m : Module) (i : Nat) (f : Tile → Tile) : (m.onTile i f).clamp = m.clamp := rfl
@[simp] theorem Module.core_onTile (m : Module) (i j : Nat) (f : Tile → Tile) : (m.onTile i f).core j = m.core j := rfl
@[simp] theorem Module.site_onTile (m : Module) (i j : Nat) (f : Tile → Tile) : (m.onTile i f).site j = m.site j := rfl
@[simp] theorem Module.group_onTile (m : Module) (i j : Nat) (f : Tile → Tile) : (m.onTile i f).group j = m.group j := rfl
@[simp] theorem Module.part_onTile (m : Module) (i j : Nat) (f : Tile → Tile) : (m.onTile i f).part j = m.part j := rfl
@[simp] theorem Module.phy_onTile (m : Module) (i j : Nat) (f : Tile → Tile) : (m.onTile i f).phy j = m.phy j := rfl
@[simp] theorem Module.group_setGroup (m : Module) (i : Nat) (x : Group) : (m.setGroup i x).group i = x :=
  Tab.get_put_same _ _ _ _
theorem Module.group_setGroup_other (m : Module) (i j : Nat) (x : Group) (h : j ≠ i) : (m.setGroup i x).group j = m.group j :=
  Tab.get_put_other _ _ _ _ _ h
@[simp] theorem Module.group_onGroup (m : Module) (i : Nat) (f : Group → Group) : (m.onGroup i f).group i = f (m.group i) :=
  Tab.get_put_same _ _ _ _
theorem Module.group_onGroup_other (m : Module) (i j : Nat) (f : Group → Group) (h : j ≠ i) : (m.onGroup i f).group j = m.group j :=
  Tab.get_put_other _ _ _ _ _ h
@[simp] theorem Module.onGroup_onGroup (m : Module) (i : Nat) (f g : Group → Group) : (m.onGroup i f).onGroup i g = m.onGroup i (g ∘ f) := by
  simp [Module.onGroup, Module.setGroup, Module.group]
@[simp] theorem Module.setGroup_time (m : Module) (i : Nat) (x : Group) : (m.setGroup i x).time = m.time := rfl
@[simp] theorem Module.onGroup_time (m : Module) (i : Nat) (f : Group → Group) : (m.onGroup i f).time = m.time := rfl
@[simp] theorem Module.setGroup_powered (m : Module) (i : Nat) (x : Group) : (m.setGroup i x).powered = m.powered := rfl
@[simp] theorem Module.onGroup_powered (m : Module) (i : Nat) (f : Group → Group) : (m.onGroup i f).powered = m.powered := rfl
@[simp] theorem Module.setGroup_fab (m : Module) (i : Nat) (x : Group) : (m.setGroup i x).fab = m.fab := rfl
@[simp] theorem Module.onGroup_fab (m : Module) (i : Nat) (f : Group → Group) : (m.onGroup i f).fab = m.fab := rfl
@[simp] theorem Module.setGroup_mem (m : Module) (i : Nat) (x : Group) : (m.setGroup i x).mem = m.mem := rfl
@[simp] theorem Module.onGroup_mem (m : Module) (i : Nat) (f : Group → Group) : (m.onGroup i f).mem = m.mem := rfl
@[simp] theorem Module.setGroup_quar (m : Module) (i : Nat) (x : Group) : (m.setGroup i x).quar = m.quar := rfl
@[simp] theorem Module.onGroup_quar (m : Module) (i : Nat) (f : Group → Group) : (m.onGroup i f).quar = m.quar := rfl
@[simp] theorem Module.setGroup_sites (m : Module) (i : Nat) (x : Group) : (m.setGroup i x).sites = m.sites := rfl
@[simp] theorem Module.onGroup_sites (m : Module) (i : Nat) (f : Group → Group) : (m.onGroup i f).sites = m.sites := rfl
@[simp] theorem Module.setGroup_cores (m : Module) (i : Nat) (x : Group) : (m.setGroup i x).cores = m.cores := rfl
@[simp] theorem Module.onGroup_cores (m : Module) (i : Nat) (f : Group → Group) : (m.onGroup i f).cores = m.cores := rfl
@[simp] theorem Module.setGroup_phys (m : Module) (i : Nat) (x : Group) : (m.setGroup i x).phys = m.phys := rfl
@[simp] theorem Module.onGroup_phys (m : Module) (i : Nat) (f : Group → Group) : (m.onGroup i f).phys = m.phys := rfl
@[simp] theorem Module.setGroup_tiles (m : Module) (i : Nat) (x : Group) : (m.setGroup i x).tiles = m.tiles := rfl
@[simp] theorem Module.onGroup_tiles (m : Module) (i : Nat) (f : Group → Group) : (m.onGroup i f).tiles = m.tiles := rfl
@[simp] theorem Module.setGroup_parts (m : Module) (i : Nat) (x : Group) : (m.setGroup i x).parts = m.parts := rfl
@[simp] theorem Module.onGroup_parts (m : Module) (i : Nat) (f : Group → Group) : (m.onGroup i f).parts = m.parts := rfl
@[simp] theorem Module.setGroup_pkts (m : Module) (i : Nat) (x : Group) : (m.setGroup i x).pkts = m.pkts := rfl
@[simp] theorem Module.onGroup_pkts (m : Module) (i : Nat) (f : Group → Group) : (m.onGroup i f).pkts = m.pkts := rfl
@[simp] theorem Module.setGroup_nextPkt (m : Module) (i : Nat) (x : Group) : (m.setGroup i x).nextPkt = m.nextPkt := rfl
@[simp] theorem Module.onGroup_nextPkt (m : Module) (i : Nat) (f : Group → Group) : (m.onGroup i f).nextPkt = m.nextPkt := rfl
@[simp] theorem Module.setGroup_nextInj (m : Module) (i : Nat) (x : Group) : (m.setGroup i x).nextInj = m.nextInj := rfl
@[simp] theorem Module.onGroup_nextInj (m : Module) (i : Nat) (f : Group → Group) : (m.onGroup i f).nextInj = m.nextInj := rfl
@[simp] theorem Module.setGroup_flits (m : Module) (i : Nat) (x : Group) : (m.setGroup i x).flits = m.flits := rfl
@[simp] theorem Module.onGroup_flits (m : Module) (i : Nat) (f : Group → Group) : (m.onGroup i f).flits = m.flits := rfl
@[simp] theorem Module.setGroup_credits (m : Module) (i : Nat) (x : Group) : (m.setGroup i x).credits = m.credits := rfl
@[simp] theorem Module.onGroup_credits (m : Module) (i : Nat) (f : Group → Group) : (m.onGroup i f).credits = m.credits := rfl
@[simp] theorem Module.setGroup_bwait (m : Module) (i : Nat) (x : Group) : (m.setGroup i x).bwait = m.bwait := rfl
@[simp] theorem Module.onGroup_bwait (m : Module) (i : Nat) (f : Group → Group) : (m.onGroup i f).bwait = m.bwait := rfl
@[simp] theorem Module.setGroup_bdone (m : Module) (i : Nat) (x : Group) : (m.setGroup i x).bdone = m.bdone := rfl
@[simp] theorem Module.onGroup_bdone (m : Module) (i : Nat) (f : Group → Group) : (m.onGroup i f).bdone = m.bdone := rfl
@[simp] theorem Module.setGroup_coll (m : Module) (i : Nat) (x : Group) : (m.setGroup i x).coll = m.coll := rfl
@[simp] theorem Module.onGroup_coll (m : Module) (i : Nat) (f : Group → Group) : (m.onGroup i f).coll = m.coll := rfl
@[simp] theorem Module.setGroup_late (m : Module) (i : Nat) (x : Group) : (m.setGroup i x).late = m.late := rfl
@[simp] theorem Module.onGroup_late (m : Module) (i : Nat) (f : Group → Group) : (m.onGroup i f).late = m.late := rfl
@[simp] theorem Module.setGroup_recalls (m : Module) (i : Nat) (x : Group) : (m.setGroup i x).recalls = m.recalls := rfl
@[simp] theorem Module.onGroup_recalls (m : Module) (i : Nat) (f : Group → Group) : (m.onGroup i f).recalls = m.recalls := rfl
@[simp] theorem Module.setGroup_upsets (m : Module) (i : Nat) (x : Group) : (m.setGroup i x).upsets = m.upsets := rfl
@[simp] theorem Module.onGroup_upsets (m : Module) (i : Nat) (f : Group → Group) : (m.onGroup i f).upsets = m.upsets := rfl
@[simp] theorem Module.setGroup_outbox (m : Module) (i : Nat) (x : Group) : (m.setGroup i x).outbox = m.outbox := rfl
@[simp] theorem Module.onGroup_outbox (m : Module) (i : Nat) (f : Group → Group) : (m.onGroup i f).outbox = m.outbox := rfl
@[simp] theorem Module.setGroup_tvx (m : Module) (i : Nat) (x : Group) : (m.setGroup i x).tvx = m.tvx := rfl
@[simp] theorem Module.onGroup_tvx (m : Module) (i : Nat) (f : Group → Group) : (m.onGroup i f).tvx = m.tvx := rfl
@[simp] theorem Module.setGroup_peers (m : Module) (i : Nat) (x : Group) : (m.setGroup i x).peers = m.peers := rfl
@[simp] theorem Module.onGroup_peers (m : Module) (i : Nat) (f : Group → Group) : (m.onGroup i f).peers = m.peers := rfl
@[simp] theorem Module.setGroup_pcie (m : Module) (i : Nat) (x : Group) : (m.setGroup i x).pcie = m.pcie := rfl
@[simp] theorem Module.onGroup_pcie (m : Module) (i : Nat) (f : Group → Group) : (m.onGroup i f).pcie = m.pcie := rfl
@[simp] theorem Module.setGroup_msi (m : Module) (i : Nat) (x : Group) : (m.setGroup i x).msi = m.msi := rfl
@[simp] theorem Module.onGroup_msi (m : Module) (i : Nat) (f : Group → Group) : (m.onGroup i f).msi = m.msi := rfl
@[simp] theorem Module.setGroup_tokcnt (m : Module) (i : Nat) (x : Group) : (m.setGroup i x).tokcnt = m.tokcnt := rfl
@[simp] theorem Module.onGroup_tokcnt (m : Module) (i : Nat) (f : Group → Group) : (m.onGroup i f).tokcnt = m.tokcnt := rfl
@[simp] theorem Module.setGroup_ownerHash (m : Module) (i : Nat) (x : Group) : (m.setGroup i x).ownerHash = m.ownerHash := rfl
@[simp] theorem Module.onGroup_ownerHash (m : Module) (i : Nat) (f : Group → Group) : (m.onGroup i f).ownerHash = m.ownerHash := rfl
@[simp] theorem Module.setGroup_fenhamHash (m : Module) (i : Nat) (x : Group) : (m.setGroup i x).fenhamHash = m.fenhamHash := rfl
@[simp] theorem Module.onGroup_fenhamHash (m : Module) (i : Nat) (f : Group → Group) : (m.onGroup i f).fenhamHash = m.fenhamHash := rfl
@[simp] theorem Module.setGroup_rollback (m : Module) (i : Nat) (x : Group) : (m.setGroup i x).rollback = m.rollback := rfl
@[simp] theorem Module.onGroup_rollback (m : Module) (i : Nat) (f : Group → Group) : (m.onGroup i f).rollback = m.rollback := rfl
@[simp] theorem Module.setGroup_badTokens (m : Module) (i : Nat) (x : Group) : (m.setGroup i x).badTokens = m.badTokens := rfl
@[simp] theorem Module.onGroup_badTokens (m : Module) (i : Nat) (f : Group → Group) : (m.onGroup i f).badTokens = m.badTokens := rfl
@[simp] theorem Module.setGroup_modnum (m : Module) (i : Nat) (x : Group) : (m.setGroup i x).modnum = m.modnum := rfl
@[simp] theorem Module.onGroup_modnum (m : Module) (i : Nat) (f : Group → Group) : (m.onGroup i f).modnum = m.modnum := rfl
@[simp] theorem Module.setGroup_mgmt (m : Module) (i : Nat) (x : Group) : (m.setGroup i x).mgmt = m.mgmt := rfl
@[simp] theorem Module.onGroup_mgmt (m : Module) (i : Nat) (f : Group → Group) : (m.onGroup i f).mgmt = m.mgmt := rfl
@[simp] theorem Module.setGroup_clamp (m : Module) (i : Nat) (x : Group) : (m.setGroup i x).clamp = m.clamp := rfl
@[simp] theorem Module.onGroup_clamp (m : Module) (i : Nat) (f : Group → Group) : (m.onGroup i f).clamp = m.clamp := rfl
@[simp] theorem Module.core_onGroup (m : Module) (i j : Nat) (f : Group → Group) : (m.onGroup i f).core j = m.core j := rfl
@[simp] theorem Module.site_onGroup (m : Module) (i j : Nat) (f : Group → Group) : (m.onGroup i f).site j = m.site j := rfl
@[simp] theorem Module.tile_onGroup (m : Module) (i j : Nat) (f : Group → Group) : (m.onGroup i f).tile j = m.tile j := rfl
@[simp] theorem Module.part_onGroup (m : Module) (i j : Nat) (f : Group → Group) : (m.onGroup i f).part j = m.part j := rfl
@[simp] theorem Module.phy_onGroup (m : Module) (i j : Nat) (f : Group → Group) : (m.onGroup i f).phy j = m.phy j := rfl
@[simp] theorem Module.part_setPart (m : Module) (i : Nat) (x : Part) : (m.setPart i x).part i = x :=
  Tab.get_put_same _ _ _ _
theorem Module.part_setPart_other (m : Module) (i j : Nat) (x : Part) (h : j ≠ i) : (m.setPart i x).part j = m.part j :=
  Tab.get_put_other _ _ _ _ _ h
@[simp] theorem Module.part_onPart (m : Module) (i : Nat) (f : Part → Part) : (m.onPart i f).part i = f (m.part i) :=
  Tab.get_put_same _ _ _ _
theorem Module.part_onPart_other (m : Module) (i j : Nat) (f : Part → Part) (h : j ≠ i) : (m.onPart i f).part j = m.part j :=
  Tab.get_put_other _ _ _ _ _ h
@[simp] theorem Module.onPart_onPart (m : Module) (i : Nat) (f g : Part → Part) : (m.onPart i f).onPart i g = m.onPart i (g ∘ f) := by
  simp [Module.onPart, Module.setPart, Module.part]
@[simp] theorem Module.setPart_time (m : Module) (i : Nat) (x : Part) : (m.setPart i x).time = m.time := rfl
@[simp] theorem Module.onPart_time (m : Module) (i : Nat) (f : Part → Part) : (m.onPart i f).time = m.time := rfl
@[simp] theorem Module.setPart_powered (m : Module) (i : Nat) (x : Part) : (m.setPart i x).powered = m.powered := rfl
@[simp] theorem Module.onPart_powered (m : Module) (i : Nat) (f : Part → Part) : (m.onPart i f).powered = m.powered := rfl
@[simp] theorem Module.setPart_fab (m : Module) (i : Nat) (x : Part) : (m.setPart i x).fab = m.fab := rfl
@[simp] theorem Module.onPart_fab (m : Module) (i : Nat) (f : Part → Part) : (m.onPart i f).fab = m.fab := rfl
@[simp] theorem Module.setPart_mem (m : Module) (i : Nat) (x : Part) : (m.setPart i x).mem = m.mem := rfl
@[simp] theorem Module.onPart_mem (m : Module) (i : Nat) (f : Part → Part) : (m.onPart i f).mem = m.mem := rfl
@[simp] theorem Module.setPart_quar (m : Module) (i : Nat) (x : Part) : (m.setPart i x).quar = m.quar := rfl
@[simp] theorem Module.onPart_quar (m : Module) (i : Nat) (f : Part → Part) : (m.onPart i f).quar = m.quar := rfl
@[simp] theorem Module.setPart_sites (m : Module) (i : Nat) (x : Part) : (m.setPart i x).sites = m.sites := rfl
@[simp] theorem Module.onPart_sites (m : Module) (i : Nat) (f : Part → Part) : (m.onPart i f).sites = m.sites := rfl
@[simp] theorem Module.setPart_cores (m : Module) (i : Nat) (x : Part) : (m.setPart i x).cores = m.cores := rfl
@[simp] theorem Module.onPart_cores (m : Module) (i : Nat) (f : Part → Part) : (m.onPart i f).cores = m.cores := rfl
@[simp] theorem Module.setPart_phys (m : Module) (i : Nat) (x : Part) : (m.setPart i x).phys = m.phys := rfl
@[simp] theorem Module.onPart_phys (m : Module) (i : Nat) (f : Part → Part) : (m.onPart i f).phys = m.phys := rfl
@[simp] theorem Module.setPart_tiles (m : Module) (i : Nat) (x : Part) : (m.setPart i x).tiles = m.tiles := rfl
@[simp] theorem Module.onPart_tiles (m : Module) (i : Nat) (f : Part → Part) : (m.onPart i f).tiles = m.tiles := rfl
@[simp] theorem Module.setPart_groups (m : Module) (i : Nat) (x : Part) : (m.setPart i x).groups = m.groups := rfl
@[simp] theorem Module.onPart_groups (m : Module) (i : Nat) (f : Part → Part) : (m.onPart i f).groups = m.groups := rfl
@[simp] theorem Module.setPart_pkts (m : Module) (i : Nat) (x : Part) : (m.setPart i x).pkts = m.pkts := rfl
@[simp] theorem Module.onPart_pkts (m : Module) (i : Nat) (f : Part → Part) : (m.onPart i f).pkts = m.pkts := rfl
@[simp] theorem Module.setPart_nextPkt (m : Module) (i : Nat) (x : Part) : (m.setPart i x).nextPkt = m.nextPkt := rfl
@[simp] theorem Module.onPart_nextPkt (m : Module) (i : Nat) (f : Part → Part) : (m.onPart i f).nextPkt = m.nextPkt := rfl
@[simp] theorem Module.setPart_nextInj (m : Module) (i : Nat) (x : Part) : (m.setPart i x).nextInj = m.nextInj := rfl
@[simp] theorem Module.onPart_nextInj (m : Module) (i : Nat) (f : Part → Part) : (m.onPart i f).nextInj = m.nextInj := rfl
@[simp] theorem Module.setPart_flits (m : Module) (i : Nat) (x : Part) : (m.setPart i x).flits = m.flits := rfl
@[simp] theorem Module.onPart_flits (m : Module) (i : Nat) (f : Part → Part) : (m.onPart i f).flits = m.flits := rfl
@[simp] theorem Module.setPart_credits (m : Module) (i : Nat) (x : Part) : (m.setPart i x).credits = m.credits := rfl
@[simp] theorem Module.onPart_credits (m : Module) (i : Nat) (f : Part → Part) : (m.onPart i f).credits = m.credits := rfl
@[simp] theorem Module.setPart_bwait (m : Module) (i : Nat) (x : Part) : (m.setPart i x).bwait = m.bwait := rfl
@[simp] theorem Module.onPart_bwait (m : Module) (i : Nat) (f : Part → Part) : (m.onPart i f).bwait = m.bwait := rfl
@[simp] theorem Module.setPart_bdone (m : Module) (i : Nat) (x : Part) : (m.setPart i x).bdone = m.bdone := rfl
@[simp] theorem Module.onPart_bdone (m : Module) (i : Nat) (f : Part → Part) : (m.onPart i f).bdone = m.bdone := rfl
@[simp] theorem Module.setPart_coll (m : Module) (i : Nat) (x : Part) : (m.setPart i x).coll = m.coll := rfl
@[simp] theorem Module.onPart_coll (m : Module) (i : Nat) (f : Part → Part) : (m.onPart i f).coll = m.coll := rfl
@[simp] theorem Module.setPart_late (m : Module) (i : Nat) (x : Part) : (m.setPart i x).late = m.late := rfl
@[simp] theorem Module.onPart_late (m : Module) (i : Nat) (f : Part → Part) : (m.onPart i f).late = m.late := rfl
@[simp] theorem Module.setPart_recalls (m : Module) (i : Nat) (x : Part) : (m.setPart i x).recalls = m.recalls := rfl
@[simp] theorem Module.onPart_recalls (m : Module) (i : Nat) (f : Part → Part) : (m.onPart i f).recalls = m.recalls := rfl
@[simp] theorem Module.setPart_upsets (m : Module) (i : Nat) (x : Part) : (m.setPart i x).upsets = m.upsets := rfl
@[simp] theorem Module.onPart_upsets (m : Module) (i : Nat) (f : Part → Part) : (m.onPart i f).upsets = m.upsets := rfl
@[simp] theorem Module.setPart_outbox (m : Module) (i : Nat) (x : Part) : (m.setPart i x).outbox = m.outbox := rfl
@[simp] theorem Module.onPart_outbox (m : Module) (i : Nat) (f : Part → Part) : (m.onPart i f).outbox = m.outbox := rfl
@[simp] theorem Module.setPart_tvx (m : Module) (i : Nat) (x : Part) : (m.setPart i x).tvx = m.tvx := rfl
@[simp] theorem Module.onPart_tvx (m : Module) (i : Nat) (f : Part → Part) : (m.onPart i f).tvx = m.tvx := rfl
@[simp] theorem Module.setPart_peers (m : Module) (i : Nat) (x : Part) : (m.setPart i x).peers = m.peers := rfl
@[simp] theorem Module.onPart_peers (m : Module) (i : Nat) (f : Part → Part) : (m.onPart i f).peers = m.peers := rfl
@[simp] theorem Module.setPart_pcie (m : Module) (i : Nat) (x : Part) : (m.setPart i x).pcie = m.pcie := rfl
@[simp] theorem Module.onPart_pcie (m : Module) (i : Nat) (f : Part → Part) : (m.onPart i f).pcie = m.pcie := rfl
@[simp] theorem Module.setPart_msi (m : Module) (i : Nat) (x : Part) : (m.setPart i x).msi = m.msi := rfl
@[simp] theorem Module.onPart_msi (m : Module) (i : Nat) (f : Part → Part) : (m.onPart i f).msi = m.msi := rfl
@[simp] theorem Module.setPart_tokcnt (m : Module) (i : Nat) (x : Part) : (m.setPart i x).tokcnt = m.tokcnt := rfl
@[simp] theorem Module.onPart_tokcnt (m : Module) (i : Nat) (f : Part → Part) : (m.onPart i f).tokcnt = m.tokcnt := rfl
@[simp] theorem Module.setPart_ownerHash (m : Module) (i : Nat) (x : Part) : (m.setPart i x).ownerHash = m.ownerHash := rfl
@[simp] theorem Module.onPart_ownerHash (m : Module) (i : Nat) (f : Part → Part) : (m.onPart i f).ownerHash = m.ownerHash := rfl
@[simp] theorem Module.setPart_fenhamHash (m : Module) (i : Nat) (x : Part) : (m.setPart i x).fenhamHash = m.fenhamHash := rfl
@[simp] theorem Module.onPart_fenhamHash (m : Module) (i : Nat) (f : Part → Part) : (m.onPart i f).fenhamHash = m.fenhamHash := rfl
@[simp] theorem Module.setPart_rollback (m : Module) (i : Nat) (x : Part) : (m.setPart i x).rollback = m.rollback := rfl
@[simp] theorem Module.onPart_rollback (m : Module) (i : Nat) (f : Part → Part) : (m.onPart i f).rollback = m.rollback := rfl
@[simp] theorem Module.setPart_badTokens (m : Module) (i : Nat) (x : Part) : (m.setPart i x).badTokens = m.badTokens := rfl
@[simp] theorem Module.onPart_badTokens (m : Module) (i : Nat) (f : Part → Part) : (m.onPart i f).badTokens = m.badTokens := rfl
@[simp] theorem Module.setPart_modnum (m : Module) (i : Nat) (x : Part) : (m.setPart i x).modnum = m.modnum := rfl
@[simp] theorem Module.onPart_modnum (m : Module) (i : Nat) (f : Part → Part) : (m.onPart i f).modnum = m.modnum := rfl
@[simp] theorem Module.setPart_mgmt (m : Module) (i : Nat) (x : Part) : (m.setPart i x).mgmt = m.mgmt := rfl
@[simp] theorem Module.onPart_mgmt (m : Module) (i : Nat) (f : Part → Part) : (m.onPart i f).mgmt = m.mgmt := rfl
@[simp] theorem Module.setPart_clamp (m : Module) (i : Nat) (x : Part) : (m.setPart i x).clamp = m.clamp := rfl
@[simp] theorem Module.onPart_clamp (m : Module) (i : Nat) (f : Part → Part) : (m.onPart i f).clamp = m.clamp := rfl
@[simp] theorem Module.core_onPart (m : Module) (i j : Nat) (f : Part → Part) : (m.onPart i f).core j = m.core j := rfl
@[simp] theorem Module.site_onPart (m : Module) (i j : Nat) (f : Part → Part) : (m.onPart i f).site j = m.site j := rfl
@[simp] theorem Module.tile_onPart (m : Module) (i j : Nat) (f : Part → Part) : (m.onPart i f).tile j = m.tile j := rfl
@[simp] theorem Module.group_onPart (m : Module) (i j : Nat) (f : Part → Part) : (m.onPart i f).group j = m.group j := rfl
@[simp] theorem Module.phy_onPart (m : Module) (i j : Nat) (f : Part → Part) : (m.onPart i f).phy j = m.phy j := rfl
@[simp] theorem Module.phy_setPhy (m : Module) (i : Nat) (x : Phys) : (m.setPhy i x).phy i = x :=
  Tab.get_put_same _ _ _ _
theorem Module.phy_setPhy_other (m : Module) (i j : Nat) (x : Phys) (h : j ≠ i) : (m.setPhy i x).phy j = m.phy j :=
  Tab.get_put_other _ _ _ _ _ h
@[simp] theorem Module.phy_onPhy (m : Module) (i : Nat) (f : Phys → Phys) : (m.onPhy i f).phy i = f (m.phy i) :=
  Tab.get_put_same _ _ _ _
theorem Module.phy_onPhy_other (m : Module) (i j : Nat) (f : Phys → Phys) (h : j ≠ i) : (m.onPhy i f).phy j = m.phy j :=
  Tab.get_put_other _ _ _ _ _ h
@[simp] theorem Module.onPhy_onPhy (m : Module) (i : Nat) (f g : Phys → Phys) : (m.onPhy i f).onPhy i g = m.onPhy i (g ∘ f) := by
  simp [Module.onPhy, Module.setPhy, Module.phy]
@[simp] theorem Module.setPhy_time (m : Module) (i : Nat) (x : Phys) : (m.setPhy i x).time = m.time := rfl
@[simp] theorem Module.onPhy_time (m : Module) (i : Nat) (f : Phys → Phys) : (m.onPhy i f).time = m.time := rfl
@[simp] theorem Module.setPhy_powered (m : Module) (i : Nat) (x : Phys) : (m.setPhy i x).powered = m.powered := rfl
@[simp] theorem Module.onPhy_powered (m : Module) (i : Nat) (f : Phys → Phys) : (m.onPhy i f).powered = m.powered := rfl
@[simp] theorem Module.setPhy_fab (m : Module) (i : Nat) (x : Phys) : (m.setPhy i x).fab = m.fab := rfl
@[simp] theorem Module.onPhy_fab (m : Module) (i : Nat) (f : Phys → Phys) : (m.onPhy i f).fab = m.fab := rfl
@[simp] theorem Module.setPhy_mem (m : Module) (i : Nat) (x : Phys) : (m.setPhy i x).mem = m.mem := rfl
@[simp] theorem Module.onPhy_mem (m : Module) (i : Nat) (f : Phys → Phys) : (m.onPhy i f).mem = m.mem := rfl
@[simp] theorem Module.setPhy_quar (m : Module) (i : Nat) (x : Phys) : (m.setPhy i x).quar = m.quar := rfl
@[simp] theorem Module.onPhy_quar (m : Module) (i : Nat) (f : Phys → Phys) : (m.onPhy i f).quar = m.quar := rfl
@[simp] theorem Module.setPhy_sites (m : Module) (i : Nat) (x : Phys) : (m.setPhy i x).sites = m.sites := rfl
@[simp] theorem Module.onPhy_sites (m : Module) (i : Nat) (f : Phys → Phys) : (m.onPhy i f).sites = m.sites := rfl
@[simp] theorem Module.setPhy_cores (m : Module) (i : Nat) (x : Phys) : (m.setPhy i x).cores = m.cores := rfl
@[simp] theorem Module.onPhy_cores (m : Module) (i : Nat) (f : Phys → Phys) : (m.onPhy i f).cores = m.cores := rfl
@[simp] theorem Module.setPhy_tiles (m : Module) (i : Nat) (x : Phys) : (m.setPhy i x).tiles = m.tiles := rfl
@[simp] theorem Module.onPhy_tiles (m : Module) (i : Nat) (f : Phys → Phys) : (m.onPhy i f).tiles = m.tiles := rfl
@[simp] theorem Module.setPhy_groups (m : Module) (i : Nat) (x : Phys) : (m.setPhy i x).groups = m.groups := rfl
@[simp] theorem Module.onPhy_groups (m : Module) (i : Nat) (f : Phys → Phys) : (m.onPhy i f).groups = m.groups := rfl
@[simp] theorem Module.setPhy_parts (m : Module) (i : Nat) (x : Phys) : (m.setPhy i x).parts = m.parts := rfl
@[simp] theorem Module.onPhy_parts (m : Module) (i : Nat) (f : Phys → Phys) : (m.onPhy i f).parts = m.parts := rfl
@[simp] theorem Module.setPhy_pkts (m : Module) (i : Nat) (x : Phys) : (m.setPhy i x).pkts = m.pkts := rfl
@[simp] theorem Module.onPhy_pkts (m : Module) (i : Nat) (f : Phys → Phys) : (m.onPhy i f).pkts = m.pkts := rfl
@[simp] theorem Module.setPhy_nextPkt (m : Module) (i : Nat) (x : Phys) : (m.setPhy i x).nextPkt = m.nextPkt := rfl
@[simp] theorem Module.onPhy_nextPkt (m : Module) (i : Nat) (f : Phys → Phys) : (m.onPhy i f).nextPkt = m.nextPkt := rfl
@[simp] theorem Module.setPhy_nextInj (m : Module) (i : Nat) (x : Phys) : (m.setPhy i x).nextInj = m.nextInj := rfl
@[simp] theorem Module.onPhy_nextInj (m : Module) (i : Nat) (f : Phys → Phys) : (m.onPhy i f).nextInj = m.nextInj := rfl
@[simp] theorem Module.setPhy_flits (m : Module) (i : Nat) (x : Phys) : (m.setPhy i x).flits = m.flits := rfl
@[simp] theorem Module.onPhy_flits (m : Module) (i : Nat) (f : Phys → Phys) : (m.onPhy i f).flits = m.flits := rfl
@[simp] theorem Module.setPhy_credits (m : Module) (i : Nat) (x : Phys) : (m.setPhy i x).credits = m.credits := rfl
@[simp] theorem Module.onPhy_credits (m : Module) (i : Nat) (f : Phys → Phys) : (m.onPhy i f).credits = m.credits := rfl
@[simp] theorem Module.setPhy_bwait (m : Module) (i : Nat) (x : Phys) : (m.setPhy i x).bwait = m.bwait := rfl
@[simp] theorem Module.onPhy_bwait (m : Module) (i : Nat) (f : Phys → Phys) : (m.onPhy i f).bwait = m.bwait := rfl
@[simp] theorem Module.setPhy_bdone (m : Module) (i : Nat) (x : Phys) : (m.setPhy i x).bdone = m.bdone := rfl
@[simp] theorem Module.onPhy_bdone (m : Module) (i : Nat) (f : Phys → Phys) : (m.onPhy i f).bdone = m.bdone := rfl
@[simp] theorem Module.setPhy_coll (m : Module) (i : Nat) (x : Phys) : (m.setPhy i x).coll = m.coll := rfl
@[simp] theorem Module.onPhy_coll (m : Module) (i : Nat) (f : Phys → Phys) : (m.onPhy i f).coll = m.coll := rfl
@[simp] theorem Module.setPhy_late (m : Module) (i : Nat) (x : Phys) : (m.setPhy i x).late = m.late := rfl
@[simp] theorem Module.onPhy_late (m : Module) (i : Nat) (f : Phys → Phys) : (m.onPhy i f).late = m.late := rfl
@[simp] theorem Module.setPhy_recalls (m : Module) (i : Nat) (x : Phys) : (m.setPhy i x).recalls = m.recalls := rfl
@[simp] theorem Module.onPhy_recalls (m : Module) (i : Nat) (f : Phys → Phys) : (m.onPhy i f).recalls = m.recalls := rfl
@[simp] theorem Module.setPhy_upsets (m : Module) (i : Nat) (x : Phys) : (m.setPhy i x).upsets = m.upsets := rfl
@[simp] theorem Module.onPhy_upsets (m : Module) (i : Nat) (f : Phys → Phys) : (m.onPhy i f).upsets = m.upsets := rfl
@[simp] theorem Module.setPhy_outbox (m : Module) (i : Nat) (x : Phys) : (m.setPhy i x).outbox = m.outbox := rfl
@[simp] theorem Module.onPhy_outbox (m : Module) (i : Nat) (f : Phys → Phys) : (m.onPhy i f).outbox = m.outbox := rfl
@[simp] theorem Module.setPhy_tvx (m : Module) (i : Nat) (x : Phys) : (m.setPhy i x).tvx = m.tvx := rfl
@[simp] theorem Module.onPhy_tvx (m : Module) (i : Nat) (f : Phys → Phys) : (m.onPhy i f).tvx = m.tvx := rfl
@[simp] theorem Module.setPhy_peers (m : Module) (i : Nat) (x : Phys) : (m.setPhy i x).peers = m.peers := rfl
@[simp] theorem Module.onPhy_peers (m : Module) (i : Nat) (f : Phys → Phys) : (m.onPhy i f).peers = m.peers := rfl
@[simp] theorem Module.setPhy_pcie (m : Module) (i : Nat) (x : Phys) : (m.setPhy i x).pcie = m.pcie := rfl
@[simp] theorem Module.onPhy_pcie (m : Module) (i : Nat) (f : Phys → Phys) : (m.onPhy i f).pcie = m.pcie := rfl
@[simp] theorem Module.setPhy_msi (m : Module) (i : Nat) (x : Phys) : (m.setPhy i x).msi = m.msi := rfl
@[simp] theorem Module.onPhy_msi (m : Module) (i : Nat) (f : Phys → Phys) : (m.onPhy i f).msi = m.msi := rfl
@[simp] theorem Module.setPhy_tokcnt (m : Module) (i : Nat) (x : Phys) : (m.setPhy i x).tokcnt = m.tokcnt := rfl
@[simp] theorem Module.onPhy_tokcnt (m : Module) (i : Nat) (f : Phys → Phys) : (m.onPhy i f).tokcnt = m.tokcnt := rfl
@[simp] theorem Module.setPhy_ownerHash (m : Module) (i : Nat) (x : Phys) : (m.setPhy i x).ownerHash = m.ownerHash := rfl
@[simp] theorem Module.onPhy_ownerHash (m : Module) (i : Nat) (f : Phys → Phys) : (m.onPhy i f).ownerHash = m.ownerHash := rfl
@[simp] theorem Module.setPhy_fenhamHash (m : Module) (i : Nat) (x : Phys) : (m.setPhy i x).fenhamHash = m.fenhamHash := rfl
@[simp] theorem Module.onPhy_fenhamHash (m : Module) (i : Nat) (f : Phys → Phys) : (m.onPhy i f).fenhamHash = m.fenhamHash := rfl
@[simp] theorem Module.setPhy_rollback (m : Module) (i : Nat) (x : Phys) : (m.setPhy i x).rollback = m.rollback := rfl
@[simp] theorem Module.onPhy_rollback (m : Module) (i : Nat) (f : Phys → Phys) : (m.onPhy i f).rollback = m.rollback := rfl
@[simp] theorem Module.setPhy_badTokens (m : Module) (i : Nat) (x : Phys) : (m.setPhy i x).badTokens = m.badTokens := rfl
@[simp] theorem Module.onPhy_badTokens (m : Module) (i : Nat) (f : Phys → Phys) : (m.onPhy i f).badTokens = m.badTokens := rfl
@[simp] theorem Module.setPhy_modnum (m : Module) (i : Nat) (x : Phys) : (m.setPhy i x).modnum = m.modnum := rfl
@[simp] theorem Module.onPhy_modnum (m : Module) (i : Nat) (f : Phys → Phys) : (m.onPhy i f).modnum = m.modnum := rfl
@[simp] theorem Module.setPhy_mgmt (m : Module) (i : Nat) (x : Phys) : (m.setPhy i x).mgmt = m.mgmt := rfl
@[simp] theorem Module.onPhy_mgmt (m : Module) (i : Nat) (f : Phys → Phys) : (m.onPhy i f).mgmt = m.mgmt := rfl
@[simp] theorem Module.setPhy_clamp (m : Module) (i : Nat) (x : Phys) : (m.setPhy i x).clamp = m.clamp := rfl
@[simp] theorem Module.onPhy_clamp (m : Module) (i : Nat) (f : Phys → Phys) : (m.onPhy i f).clamp = m.clamp := rfl
@[simp] theorem Module.core_onPhy (m : Module) (i j : Nat) (f : Phys → Phys) : (m.onPhy i f).core j = m.core j := rfl
@[simp] theorem Module.site_onPhy (m : Module) (i j : Nat) (f : Phys → Phys) : (m.onPhy i f).site j = m.site j := rfl
@[simp] theorem Module.tile_onPhy (m : Module) (i j : Nat) (f : Phys → Phys) : (m.onPhy i f).tile j = m.tile j := rfl
@[simp] theorem Module.group_onPhy (m : Module) (i j : Nat) (f : Phys → Phys) : (m.onPhy i f).group j = m.group j := rfl
@[simp] theorem Module.part_onPhy (m : Module) (i j : Nat) (f : Phys → Phys) : (m.onPhy i f).part j = m.part j := rfl

/-! ## The core -/

@[simp] theorem Core.ctx_setCtx (c : Core) (i : Nat) (x : Ctx) : (c.setCtx i x).ctx i = x :=
  Tab.get_put_same _ _ _ _
theorem Core.ctx_setCtx_other (c : Core) (i j : Nat) (x : Ctx) (h : j ≠ i) : (c.setCtx i x).ctx j = c.ctx j :=
  Tab.get_put_other _ _ _ _ _ h
@[simp] theorem Core.ctx_onCtx (c : Core) (i : Nat) (f : Ctx → Ctx) : (c.onCtx i f).ctx i = f (c.ctx i) :=
  Tab.get_put_same _ _ _ _
@[simp] theorem Core.onCtx_onCtx (c : Core) (i : Nat) (f g : Ctx → Ctx) : (c.onCtx i f).onCtx i g = c.onCtx i (g ∘ f) := by
  simp [Core.onCtx, Core.setCtx, Core.ctx]
@[simp] theorem Core.setCtx_acts (c : Core) (i : Nat) (x : Ctx) : (c.setCtx i x).acts = c.acts := rfl
@[simp] theorem Core.onCtx_acts (c : Core) (i : Nat) (f : Ctx → Ctx) : (c.onCtx i f).acts = c.acts := rfl
@[simp] theorem Core.setCtx_spec (c : Core) (i : Nat) (x : Ctx) : (c.setCtx i x).spec = c.spec := rfl
@[simp] theorem Core.onCtx_spec (c : Core) (i : Nat) (f : Ctx → Ctx) : (c.onCtx i f).spec = c.spec := rfl
@[simp] theorem Core.setCtx_desc (c : Core) (i : Nat) (x : Ctx) : (c.setCtx i x).desc = c.desc := rfl
@[simp] theorem Core.onCtx_desc (c : Core) (i : Nat) (f : Ctx → Ctx) : (c.onCtx i f).desc = c.desc := rfl
@[simp] theorem Core.setCtx_serial (c : Core) (i : Nat) (x : Ctx) : (c.setCtx i x).serial = c.serial := rfl
@[simp] theorem Core.onCtx_serial (c : Core) (i : Nat) (f : Ctx → Ctx) : (c.onCtx i f).serial = c.serial := rfl
@[simp] theorem Core.setCtx_thief (c : Core) (i : Nat) (x : Ctx) : (c.setCtx i x).thief = c.thief := rfl
@[simp] theorem Core.onCtx_thief (c : Core) (i : Nat) (f : Ctx → Ctx) : (c.onCtx i f).thief = c.thief := rfl
@[simp] theorem Core.setCtx_dqAt (c : Core) (i : Nat) (x : Ctx) : (c.setCtx i x).dqAt = c.dqAt := rfl
@[simp] theorem Core.onCtx_dqAt (c : Core) (i : Nat) (f : Ctx → Ctx) : (c.onCtx i f).dqAt = c.dqAt := rfl
@[simp] theorem Core.setCtx_gq (c : Core) (i : Nat) (x : Ctx) : (c.setCtx i x).gq = c.gq := rfl
@[simp] theorem Core.onCtx_gq (c : Core) (i : Nat) (f : Ctx → Ctx) : (c.onCtx i f).gq = c.gq := rfl
@[simp] theorem Core.setCtx_ni (c : Core) (i : Nat) (x : Ctx) : (c.setCtx i x).ni = c.ni := rfl
@[simp] theorem Core.onCtx_ni (c : Core) (i : Nat) (f : Ctx → Ctx) : (c.onCtx i f).ni = c.ni := rfl
@[simp] theorem Core.setCtx_sup (c : Core) (i : Nat) (x : Ctx) : (c.setCtx i x).sup = c.sup := rfl
@[simp] theorem Core.onCtx_sup (c : Core) (i : Nat) (f : Ctx → Ctx) : (c.onCtx i f).sup = c.sup := rfl
@[simp] theorem Core.setCtx_mons (c : Core) (i : Nat) (x : Ctx) : (c.setCtx i x).mons = c.mons := rfl
@[simp] theorem Core.onCtx_mons (c : Core) (i : Nat) (f : Ctx → Ctx) : (c.onCtx i f).mons = c.mons := rfl
@[simp] theorem Core.setCtx_jobMx (c : Core) (i : Nat) (x : Ctx) : (c.setCtx i x).jobMx = c.jobMx := rfl
@[simp] theorem Core.onCtx_jobMx (c : Core) (i : Nat) (f : Ctx → Ctx) : (c.onCtx i f).jobMx = c.jobMx := rfl
@[simp] theorem Core.setCtx_jobCp (c : Core) (i : Nat) (x : Ctx) : (c.setCtx i x).jobCp = c.jobCp := rfl
@[simp] theorem Core.onCtx_jobCp (c : Core) (i : Nat) (f : Ctx → Ctx) : (c.onCtx i f).jobCp = c.jobCp := rfl
@[simp] theorem Core.setCtx_cpLog (c : Core) (i : Nat) (x : Ctx) : (c.setCtx i x).cpLog = c.cpLog := rfl
@[simp] theorem Core.onCtx_cpLog (c : Core) (i : Nat) (f : Ctx → Ctx) : (c.onCtx i f).cpLog = c.cpLog := rfl
@[simp] theorem Core.setCtx_vq (c : Core) (i : Nat) (x : Ctx) : (c.setCtx i x).vq = c.vq := rfl
@[simp] theorem Core.onCtx_vq (c : Core) (i : Nat) (f : Ctx → Ctx) : (c.onCtx i f).vq = c.vq := rfl
@[simp] theorem Core.setCtx_vcancel (c : Core) (i : Nat) (x : Ctx) : (c.setCtx i x).vcancel = c.vcancel := rfl
@[simp] theorem Core.onCtx_vcancel (c : Core) (i : Nat) (f : Ctx → Ctx) : (c.onCtx i f).vcancel = c.vcancel := rfl
@[simp] theorem Core.setCtx_stash (c : Core) (i : Nat) (x : Ctx) : (c.setCtx i x).stash = c.stash := rfl
@[simp] theorem Core.onCtx_stash (c : Core) (i : Nat) (f : Ctx → Ctx) : (c.onCtx i f).stash = c.stash := rfl
@[simp] theorem Core.setCtx_atom (c : Core) (i : Nat) (x : Ctx) : (c.setCtx i x).atom = c.atom := rfl
@[simp] theorem Core.onCtx_atom (c : Core) (i : Nat) (f : Ctx → Ctx) : (c.onCtx i f).atom = c.atom := rfl
@[simp] theorem Core.setCtx_icache (c : Core) (i : Nat) (x : Ctx) : (c.setCtx i x).icache = c.icache := rfl
@[simp] theorem Core.onCtx_icache (c : Core) (i : Nat) (f : Ctx → Ctx) : (c.onCtx i f).icache = c.icache := rfl
@[simp] theorem Core.setCtx_ports (c : Core) (i : Nat) (x : Ctx) : (c.setCtx i x).ports = c.ports := rfl
@[simp] theorem Core.onCtx_ports (c : Core) (i : Nat) (f : Ctx → Ctx) : (c.onCtx i f).ports = c.ports := rfl
@[simp] theorem Core.setCtx_quiet (c : Core) (i : Nat) (x : Ctx) : (c.setCtx i x).quiet = c.quiet := rfl
@[simp] theorem Core.onCtx_quiet (c : Core) (i : Nat) (f : Ctx → Ctx) : (c.onCtx i f).quiet = c.quiet := rfl
@[simp] theorem Core.setCtx_last (c : Core) (i : Nat) (x : Ctx) : (c.setCtx i x).last = c.last := rfl
@[simp] theorem Core.onCtx_last (c : Core) (i : Nat) (f : Ctx → Ctx) : (c.onCtx i f).last = c.last := rfl
@[simp] theorem Core.setCtx_turn (c : Core) (i : Nat) (x : Ctx) : (c.setCtx i x).turn = c.turn := rfl
@[simp] theorem Core.onCtx_turn (c : Core) (i : Nat) (f : Ctx → Ctx) : (c.onCtx i f).turn = c.turn := rfl
@[simp] theorem Core.setCtx_flushes (c : Core) (i : Nat) (x : Ctx) : (c.setCtx i x).flushes = c.flushes := rfl
@[simp] theorem Core.onCtx_flushes (c : Core) (i : Nat) (f : Ctx → Ctx) : (c.onCtx i f).flushes = c.flushes := rfl
@[simp] theorem Core.setCtx_prefs (c : Core) (i : Nat) (x : Ctx) : (c.setCtx i x).prefs = c.prefs := rfl
@[simp] theorem Core.onCtx_prefs (c : Core) (i : Nat) (f : Ctx → Ctx) : (c.onCtx i f).prefs = c.prefs := rfl
@[simp] theorem Core.setCtx_uses (c : Core) (i : Nat) (x : Ctx) : (c.setCtx i x).uses = c.uses := rfl
@[simp] theorem Core.onCtx_uses (c : Core) (i : Nat) (f : Ctx → Ctx) : (c.onCtx i f).uses = c.uses := rfl
@[simp] theorem Core.setCtx_idle (c : Core) (i : Nat) (x : Ctx) : (c.setCtx i x).idle = c.idle := rfl
@[simp] theorem Core.onCtx_idle (c : Core) (i : Nat) (f : Ctx → Ctx) : (c.onCtx i f).idle = c.idle := rfl
@[simp] theorem Core.act_setAct (c : Core) (i : Nat) (x : Act) : (c.setAct i x).act i = x :=
  Tab.get_put_same _ _ _ _
theorem Core.act_setAct_other (c : Core) (i j : Nat) (x : Act) (h : j ≠ i) : (c.setAct i x).act j = c.act j :=
  Tab.get_put_other _ _ _ _ _ h
@[simp] theorem Core.act_onAct (c : Core) (i : Nat) (f : Act → Act) : (c.onAct i f).act i = f (c.act i) :=
  Tab.get_put_same _ _ _ _
@[simp] theorem Core.onAct_onAct (c : Core) (i : Nat) (f g : Act → Act) : (c.onAct i f).onAct i g = c.onAct i (g ∘ f) := by
  simp [Core.onAct, Core.setAct, Core.act]
@[simp] theorem Core.setAct_ctxs (c : Core) (i : Nat) (x : Act) : (c.setAct i x).ctxs = c.ctxs := rfl
@[simp] theorem Core.onAct_ctxs (c : Core) (i : Nat) (f : Act → Act) : (c.onAct i f).ctxs = c.ctxs := rfl
@[simp] theorem Core.setAct_spec (c : Core) (i : Nat) (x : Act) : (c.setAct i x).spec = c.spec := rfl
@[simp] theorem Core.onAct_spec (c : Core) (i : Nat) (f : Act → Act) : (c.onAct i f).spec = c.spec := rfl
@[simp] theorem Core.setAct_desc (c : Core) (i : Nat) (x : Act) : (c.setAct i x).desc = c.desc := rfl
@[simp] theorem Core.onAct_desc (c : Core) (i : Nat) (f : Act → Act) : (c.onAct i f).desc = c.desc := rfl
@[simp] theorem Core.setAct_serial (c : Core) (i : Nat) (x : Act) : (c.setAct i x).serial = c.serial := rfl
@[simp] theorem Core.onAct_serial (c : Core) (i : Nat) (f : Act → Act) : (c.onAct i f).serial = c.serial := rfl
@[simp] theorem Core.setAct_thief (c : Core) (i : Nat) (x : Act) : (c.setAct i x).thief = c.thief := rfl
@[simp] theorem Core.onAct_thief (c : Core) (i : Nat) (f : Act → Act) : (c.onAct i f).thief = c.thief := rfl
@[simp] theorem Core.setAct_dqAt (c : Core) (i : Nat) (x : Act) : (c.setAct i x).dqAt = c.dqAt := rfl
@[simp] theorem Core.onAct_dqAt (c : Core) (i : Nat) (f : Act → Act) : (c.onAct i f).dqAt = c.dqAt := rfl
@[simp] theorem Core.setAct_gq (c : Core) (i : Nat) (x : Act) : (c.setAct i x).gq = c.gq := rfl
@[simp] theorem Core.onAct_gq (c : Core) (i : Nat) (f : Act → Act) : (c.onAct i f).gq = c.gq := rfl
@[simp] theorem Core.setAct_ni (c : Core) (i : Nat) (x : Act) : (c.setAct i x).ni = c.ni := rfl
@[simp] theorem Core.onAct_ni (c : Core) (i : Nat) (f : Act → Act) : (c.onAct i f).ni = c.ni := rfl
@[simp] theorem Core.setAct_sup (c : Core) (i : Nat) (x : Act) : (c.setAct i x).sup = c.sup := rfl
@[simp] theorem Core.onAct_sup (c : Core) (i : Nat) (f : Act → Act) : (c.onAct i f).sup = c.sup := rfl
@[simp] theorem Core.setAct_mons (c : Core) (i : Nat) (x : Act) : (c.setAct i x).mons = c.mons := rfl
@[simp] theorem Core.onAct_mons (c : Core) (i : Nat) (f : Act → Act) : (c.onAct i f).mons = c.mons := rfl
@[simp] theorem Core.setAct_jobMx (c : Core) (i : Nat) (x : Act) : (c.setAct i x).jobMx = c.jobMx := rfl
@[simp] theorem Core.onAct_jobMx (c : Core) (i : Nat) (f : Act → Act) : (c.onAct i f).jobMx = c.jobMx := rfl
@[simp] theorem Core.setAct_jobCp (c : Core) (i : Nat) (x : Act) : (c.setAct i x).jobCp = c.jobCp := rfl
@[simp] theorem Core.onAct_jobCp (c : Core) (i : Nat) (f : Act → Act) : (c.onAct i f).jobCp = c.jobCp := rfl
@[simp] theorem Core.setAct_cpLog (c : Core) (i : Nat) (x : Act) : (c.setAct i x).cpLog = c.cpLog := rfl
@[simp] theorem Core.onAct_cpLog (c : Core) (i : Nat) (f : Act → Act) : (c.onAct i f).cpLog = c.cpLog := rfl
@[simp] theorem Core.setAct_vq (c : Core) (i : Nat) (x : Act) : (c.setAct i x).vq = c.vq := rfl
@[simp] theorem Core.onAct_vq (c : Core) (i : Nat) (f : Act → Act) : (c.onAct i f).vq = c.vq := rfl
@[simp] theorem Core.setAct_vcancel (c : Core) (i : Nat) (x : Act) : (c.setAct i x).vcancel = c.vcancel := rfl
@[simp] theorem Core.onAct_vcancel (c : Core) (i : Nat) (f : Act → Act) : (c.onAct i f).vcancel = c.vcancel := rfl
@[simp] theorem Core.setAct_stash (c : Core) (i : Nat) (x : Act) : (c.setAct i x).stash = c.stash := rfl
@[simp] theorem Core.onAct_stash (c : Core) (i : Nat) (f : Act → Act) : (c.onAct i f).stash = c.stash := rfl
@[simp] theorem Core.setAct_atom (c : Core) (i : Nat) (x : Act) : (c.setAct i x).atom = c.atom := rfl
@[simp] theorem Core.onAct_atom (c : Core) (i : Nat) (f : Act → Act) : (c.onAct i f).atom = c.atom := rfl
@[simp] theorem Core.setAct_icache (c : Core) (i : Nat) (x : Act) : (c.setAct i x).icache = c.icache := rfl
@[simp] theorem Core.onAct_icache (c : Core) (i : Nat) (f : Act → Act) : (c.onAct i f).icache = c.icache := rfl
@[simp] theorem Core.setAct_ports (c : Core) (i : Nat) (x : Act) : (c.setAct i x).ports = c.ports := rfl
@[simp] theorem Core.onAct_ports (c : Core) (i : Nat) (f : Act → Act) : (c.onAct i f).ports = c.ports := rfl
@[simp] theorem Core.setAct_quiet (c : Core) (i : Nat) (x : Act) : (c.setAct i x).quiet = c.quiet := rfl
@[simp] theorem Core.onAct_quiet (c : Core) (i : Nat) (f : Act → Act) : (c.onAct i f).quiet = c.quiet := rfl
@[simp] theorem Core.setAct_last (c : Core) (i : Nat) (x : Act) : (c.setAct i x).last = c.last := rfl
@[simp] theorem Core.onAct_last (c : Core) (i : Nat) (f : Act → Act) : (c.onAct i f).last = c.last := rfl
@[simp] theorem Core.setAct_turn (c : Core) (i : Nat) (x : Act) : (c.setAct i x).turn = c.turn := rfl
@[simp] theorem Core.onAct_turn (c : Core) (i : Nat) (f : Act → Act) : (c.onAct i f).turn = c.turn := rfl
@[simp] theorem Core.setAct_flushes (c : Core) (i : Nat) (x : Act) : (c.setAct i x).flushes = c.flushes := rfl
@[simp] theorem Core.onAct_flushes (c : Core) (i : Nat) (f : Act → Act) : (c.onAct i f).flushes = c.flushes := rfl
@[simp] theorem Core.setAct_prefs (c : Core) (i : Nat) (x : Act) : (c.setAct i x).prefs = c.prefs := rfl
@[simp] theorem Core.onAct_prefs (c : Core) (i : Nat) (f : Act → Act) : (c.onAct i f).prefs = c.prefs := rfl
@[simp] theorem Core.setAct_uses (c : Core) (i : Nat) (x : Act) : (c.setAct i x).uses = c.uses := rfl
@[simp] theorem Core.onAct_uses (c : Core) (i : Nat) (f : Act → Act) : (c.onAct i f).uses = c.uses := rfl
@[simp] theorem Core.setAct_idle (c : Core) (i : Nat) (x : Act) : (c.setAct i x).idle = c.idle := rfl
@[simp] theorem Core.onAct_idle (c : Core) (i : Nat) (f : Act → Act) : (c.onAct i f).idle = c.idle := rfl
@[simp] theorem Core.act_onCtx (c : Core) (i j : Nat) (f : Ctx → Ctx) : (c.onCtx i f).act j = c.act j := rfl
@[simp] theorem Core.ctx_onAct (c : Core) (i j : Nat) (f : Act → Act) : (c.onAct i f).ctx j = c.ctx j := rfl
@[simp] theorem Core.ctx_setAct (c : Core) (i j : Nat) (x : Act) : (c.setAct i x).ctx j = c.ctx j := rfl
@[simp] theorem Module.act_onAct (m : Module) (cid key : Nat) (f : Act → Act) : (m.onAct cid key f).act cid key = f (m.act cid key) := by
  simp [Module.onAct, Module.act]
@[simp] theorem Module.onAct_time (m : Module) (cid key : Nat) (f : Act → Act) : (m.onAct cid key f).time = m.time := rfl
@[simp] theorem Module.onAct_powered (m : Module) (cid key : Nat) (f : Act → Act) : (m.onAct cid key f).powered = m.powered := rfl
@[simp] theorem Module.onAct_fab (m : Module) (cid key : Nat) (f : Act → Act) : (m.onAct cid key f).fab = m.fab := rfl
@[simp] theorem Module.onAct_mem (m : Module) (cid key : Nat) (f : Act → Act) : (m.onAct cid key f).mem = m.mem := rfl
@[simp] theorem Module.onAct_quar (m : Module) (cid key : Nat) (f : Act → Act) : (m.onAct cid key f).quar = m.quar := rfl
@[simp] theorem Module.onAct_sites (m : Module) (cid key : Nat) (f : Act → Act) : (m.onAct cid key f).sites = m.sites := rfl
@[simp] theorem Module.onAct_phys (m : Module) (cid key : Nat) (f : Act → Act) : (m.onAct cid key f).phys = m.phys := rfl
@[simp] theorem Module.onAct_tiles (m : Module) (cid key : Nat) (f : Act → Act) : (m.onAct cid key f).tiles = m.tiles := rfl
@[simp] theorem Module.onAct_groups (m : Module) (cid key : Nat) (f : Act → Act) : (m.onAct cid key f).groups = m.groups := rfl
@[simp] theorem Module.onAct_parts (m : Module) (cid key : Nat) (f : Act → Act) : (m.onAct cid key f).parts = m.parts := rfl
@[simp] theorem Module.onAct_pkts (m : Module) (cid key : Nat) (f : Act → Act) : (m.onAct cid key f).pkts = m.pkts := rfl
@[simp] theorem Module.onAct_nextPkt (m : Module) (cid key : Nat) (f : Act → Act) : (m.onAct cid key f).nextPkt = m.nextPkt := rfl
@[simp] theorem Module.onAct_nextInj (m : Module) (cid key : Nat) (f : Act → Act) : (m.onAct cid key f).nextInj = m.nextInj := rfl
@[simp] theorem Module.onAct_flits (m : Module) (cid key : Nat) (f : Act → Act) : (m.onAct cid key f).flits = m.flits := rfl
@[simp] theorem Module.onAct_credits (m : Module) (cid key : Nat) (f : Act → Act) : (m.onAct cid key f).credits = m.credits := rfl
@[simp] theorem Module.onAct_bwait (m : Module) (cid key : Nat) (f : Act → Act) : (m.onAct cid key f).bwait = m.bwait := rfl
@[simp] theorem Module.onAct_bdone (m : Module) (cid key : Nat) (f : Act → Act) : (m.onAct cid key f).bdone = m.bdone := rfl
@[simp] theorem Module.onAct_coll (m : Module) (cid key : Nat) (f : Act → Act) : (m.onAct cid key f).coll = m.coll := rfl
@[simp] theorem Module.onAct_late (m : Module) (cid key : Nat) (f : Act → Act) : (m.onAct cid key f).late = m.late := rfl
@[simp] theorem Module.onAct_recalls (m : Module) (cid key : Nat) (f : Act → Act) : (m.onAct cid key f).recalls = m.recalls := rfl
@[simp] theorem Module.onAct_upsets (m : Module) (cid key : Nat) (f : Act → Act) : (m.onAct cid key f).upsets = m.upsets := rfl
@[simp] theorem Module.onAct_outbox (m : Module) (cid key : Nat) (f : Act → Act) : (m.onAct cid key f).outbox = m.outbox := rfl
@[simp] theorem Module.onAct_tvx (m : Module) (cid key : Nat) (f : Act → Act) : (m.onAct cid key f).tvx = m.tvx := rfl
@[simp] theorem Module.onAct_peers (m : Module) (cid key : Nat) (f : Act → Act) : (m.onAct cid key f).peers = m.peers := rfl
@[simp] theorem Module.onAct_pcie (m : Module) (cid key : Nat) (f : Act → Act) : (m.onAct cid key f).pcie = m.pcie := rfl
@[simp] theorem Module.onAct_msi (m : Module) (cid key : Nat) (f : Act → Act) : (m.onAct cid key f).msi = m.msi := rfl
@[simp] theorem Module.onAct_tokcnt (m : Module) (cid key : Nat) (f : Act → Act) : (m.onAct cid key f).tokcnt = m.tokcnt := rfl
@[simp] theorem Module.onAct_ownerHash (m : Module) (cid key : Nat) (f : Act → Act) : (m.onAct cid key f).ownerHash = m.ownerHash := rfl
@[simp] theorem Module.onAct_fenhamHash (m : Module) (cid key : Nat) (f : Act → Act) : (m.onAct cid key f).fenhamHash = m.fenhamHash := rfl
@[simp] theorem Module.onAct_rollback (m : Module) (cid key : Nat) (f : Act → Act) : (m.onAct cid key f).rollback = m.rollback := rfl
@[simp] theorem Module.onAct_badTokens (m : Module) (cid key : Nat) (f : Act → Act) : (m.onAct cid key f).badTokens = m.badTokens := rfl
@[simp] theorem Module.onAct_modnum (m : Module) (cid key : Nat) (f : Act → Act) : (m.onAct cid key f).modnum = m.modnum := rfl
@[simp] theorem Module.onAct_mgmt (m : Module) (cid key : Nat) (f : Act → Act) : (m.onAct cid key f).mgmt = m.mgmt := rfl
@[simp] theorem Module.onAct_clamp (m : Module) (cid key : Nat) (f : Act → Act) : (m.onAct cid key f).clamp = m.clamp := rfl

/-! ## The machine -/

@[simp] theorem State.setWin_cid (s : State) (w : Win) : (s.setWin w).cid = s.cid := rfl
@[simp] theorem State.setPc_cid (s : State) (pc : Word) : (s.setPc pc).cid = s.cid := rfl
@[simp] theorem State.rollback_cid (s : State) (b : Module) : (s.rollback b).cid = s.cid := rfl
@[simp] theorem State.setWin_ctx (s : State) (w : Win) : (s.setWin w).ctx = s.ctx := rfl
@[simp] theorem State.setPc_ctx (s : State) (pc : Word) : (s.setPc pc).ctx = s.ctx := rfl
@[simp] theorem State.rollback_ctx (s : State) (b : Module) : (s.rollback b).ctx = s.ctx := rfl
@[simp] theorem State.setWin_open_ (s : State) (w : Win) : (s.setWin w).open_ = s.open_ := rfl
@[simp] theorem State.setPc_open_ (s : State) (pc : Word) : (s.setPc pc).open_ = s.open_ := rfl
@[simp] theorem State.setWin_agenda (s : State) (w : Win) : (s.setWin w).agenda = s.agenda := rfl
@[simp] theorem State.setPc_agenda (s : State) (pc : Word) : (s.setPc pc).agenda = s.agenda := rfl
@[simp] theorem State.rollback_agenda (s : State) (b : Module) : (s.rollback b).agenda = s.agenda := rfl
@[simp] theorem State.rollback_m (s : State) (b : Module) : (s.rollback b).m = b := rfl
@[simp] theorem State.rollback_open (s : State) (b : Module) : (s.rollback b).open_ = none := rfl
@[simp] theorem State.setWin_m (s : State) (w : Win) : (s.setWin w).m = s.m.setWin s.cid s.key w := rfl
@[simp] theorem State.key_setWin (s : State) (w : Win) : (s.setWin w).key = s.key := by
  simp [State.key, State.core, State.setWin, Module.setWin, Module.onAct]
@[simp] theorem State.win_setWin (s : State) (w : Win) : (s.setWin w).win = w := by
  have h : (s.setWin w).key = s.key := State.key_setWin s w
  simp only [State.win, State.act, h]
  simp [State.core, State.setWin, Module.setWin, Module.onAct]
/-- The later of two windows is the one that stays. -/
@[simp] theorem State.setWin_setWin (s : State) (w w' : Win) : (s.setWin w).setWin w' = s.setWin w' := by
  have h : (s.setWin w).key = s.key := State.key_setWin s w
  rw [State.setWin, h]
  simp [State.setWin, Module.setWin, Module.onAct, Module.onCore, Module.setCore, Module.core, Core.onAct, Core.setAct, Core.act]
@[simp] theorem State.core_mem (s : State) (w : Win) : (s.setWin w).m.mem = s.m.mem := rfl

end Machine
end Sys2Proof
end

