-- ==== Sys2Proof/Laws/Exec.lean ====
section
/-!
SUPPORT. What running an instruction can do, said once: from a running context, `runInstr` commits the body, takes its fault,
or lets the cycle pass.
-/
namespace Sys2Proof.Machine

/-! ## The dispatch cycle -/

theorem Module.issue_core (m : Module) (cid j : Nat) :
    (m.issue cid j).core cid = { m.core cid with last := some (m.issue cid j).time, turn := j } := by
  unfold Module.issue
  split <;> rw [Module.core_onCore] <;> rfl

@[simp] theorem Module.issue_mem (m : Module) (cid j : Nat) : (m.issue cid j).mem = m.mem := by
  unfold Module.issue; split <;> rfl
@[simp] theorem Module.issue_sites (m : Module) (cid j : Nat) : (m.issue cid j).sites = m.sites := by
  unfold Module.issue; split <;> rfl
@[simp] theorem Module.issue_late (m : Module) (cid j : Nat) : (m.issue cid j).late = m.late := by
  unfold Module.issue; split <;> rfl
@[simp] theorem Module.issue_ctx (m : Module) (cid j k : Nat) : ((m.issue cid j).core cid).ctx k = (m.core cid).ctx k := by
  rw [Module.issue_core]; rfl
@[simp] theorem Module.issue_act (m : Module) (cid j k : Nat) : ((m.issue cid j).core cid).act k = (m.core cid).act k := by
  rw [Module.issue_core]; rfl
@[simp] theorem Module.issue_vq (m : Module) (cid j : Nat) : ((m.issue cid j).core cid).vq = (m.core cid).vq := by
  rw [Module.issue_core]

/-- Nothing of an activation in the vector unit leaves nothing to wait for. -/
theorem Module.drain_idle (m : Module) (cid key : Nat) (h : ((m.core cid).vq.any fun o => o.key == key) = false) :
    m.drain cid key = (true, m) := by
  unfold Module.drain
  cases hn : (m.core cid).vq.length with
  | zero => rfl
  | succ n => rw [Module.drainFrom, h]; rfl

@[simp] theorem Module.caughtUp_act (b m : Module) (cid k : Nat) : (b.caughtUp m cid).act cid k = b.act cid k := by
  simp [Module.caughtUp, Module.act, Module.core_onCore]
  rfl

/-! ## One instruction -/

/-- What an instruction of a running context does with what its body answers. -/
def outcomeOf (s : State) : Except Stop (After × State) → Out
  | .ok (a, t) => .next (t.commit s.key s.win.ctl.pc (swSs s.sw) a)
  | .error (.fault f) => .next (s.faulted f)
  | .error .stall => .next (s.rollback s.groupNow.base)
  | .error (.ask c a) => .next (s.rollback (s.groupNow.base.putAsk c a))

/-- An instruction of a running context does what its body answers at the begun state. -/
theorem runInstr_running {s : State} (h : s.Running) (vec : Bool) (body : Word → Run After) (last : Bool := false) :
    runInstr vec body s last = outcomeOf s (body s.win.ctl.pc s.begun) := by
  have hd : (s.m.issue s.cid s.ctx).drain s.cid s.key = (true, s.m.issue s.cid s.ctx) :=
    Module.drain_idle _ _ _ (by rw [Module.issue_vq]; exact h.vq)
  have hl : s.groupNow.base.deliverLate s.cid s.ctx s.key = none := by
    simp [Module.deliverLate, h.late, oldestLate]
  have hk : State.key { s with m := s.m.issue s.cid s.ctx } = s.key := by simp [State.key, State.core]
  have hw : State.win { s with m := s.m.issue s.cid s.ctx } = s.win := by
    simp [State.win, State.act, hk, State.core]
  have hc : State.hc { s with m := s.m.issue s.cid s.ctx } s.win.ctl.pc = s.hc s.win.ctl.pc := by
    simp [State.hc, State.core]
  have hs : State.sw { s with m := s.m.issue s.cid s.ctx } = s.sw := by simp only [State.sw, hw]
  have hn : ¬ s.groupNow.n = 64 := by have := h.room; omega
  have hv : ∀ v : Bool, (if v = true then ((true, s.m.issue s.cid s.ctx) : Bool × Module) else (s.m.issue s.cid s.ctx).drain s.cid s.key)
      = (true, s.m.issue s.cid s.ctx) := by intro v; cases v <;> simp [hd]
  have hb : ∀ v : Bool, runWith v body s s.key last = outcomeOf s (body s.win.ctl.pc s.begun) := by
    intro v
    have key : runWith v body s s.key last =
        (if s.groupNow.n = 64 then (if s.groupNow.ld.any (·.1 == 0) || s.groupNow.sd.any (·.1 == 0) then
            .next (s.rollback (s.groupNow.base.faultAt s.cid s.key { cause := .badopnd }
              ((s.groupNow.base.act s.cid s.key).win.getD {}).ctl.pc))
          else .next (s.rollback ((if !last then s.groupNow.base.deliverLate s.cid s.ctx s.key else none).getD s.groupNow.base)))
        else
          match body s.win.ctl.pc s.begun with
          | .error (.fault f) => .next (s.rollback (s.groupNow.base.faultAt s.cid s.key f s.win.ctl.pc))
          | .error .stall => .next (s.rollback ((if !last then s.groupNow.base.deliverLate s.cid s.ctx s.key else none).getD s.groupNow.base))
          | .error (.ask c a) =>
            .next (s.rollback ((if !last then s.groupNow.base.deliverLate s.cid s.ctx s.key else none).getD (s.groupNow.base.putAsk c a)))
          | .ok (a, t) =>
            match (if !last then s.groupNow.base.deliverLate s.cid s.ctx s.key else none) with
            | some m => .next (s.rollback m)
            | none => .next (t.commit s.key s.win.ctl.pc (swSs s.sw) a)) := by
      unfold runWith State.begun
      simp only [hv]
      cases ho : s.open_ with
      | none =>
        have hg : s.groupNow = ⟨s.m.issue s.cid s.ctx, [], [], 0, 0, none⟩ := by simp [State.groupNow, ho]
        rw [hg, ← hc, ← hs, ← hw]
        simp only [Bool.not_true, Bool.false_eq_true, if_false, ← ho]
        rfl
      | some g =>
        have hg : s.groupNow = { g with base := g.base.caughtUp (s.m.issue s.cid s.ctx) s.cid } := by simp [State.groupNow, ho]
        rw [hg, ← hc, ← hs, ← hw]
        simp only [Bool.not_true, Bool.false_eq_true, if_false, ← ho]
        rfl
    rw [key, if_neg hn, hl, ite_self]
    cases body s.win.ctl.pc s.begun with
    | ok r => rfl
    | error e => cases e <;> rfl
  unfold runInstr
  rw [h.ctx]
  have hi : s.act.win.isNone = false := by simp [h.win]
  simp only [hi, hb vec]
  rfl

/-- An instruction whose body answers a state retires with it. -/
theorem run_retires {s t : State} (h : s.Running) (body : Run Unit) (hb : body s.begun = .ok ((), t)) :
    run body s = .next (s.retire t) := by
  rw [run, runInstr_running h]
  simp only [bind, StateT.bind, Except.bind, hb]
  rfl

/-- An instruction whose body faults takes the fault. -/
theorem run_faults {s : State} {f : FInfo} (h : s.Running) (body : Run Unit) (hb : body s.begun = .error (.fault f)) :
    run body s = .next (s.faulted f) := by
  rw [run, runInstr_running h]
  simp only [bind, StateT.bind, Except.bind, hb]
  rfl

/-- An instruction that is not ready lets the cycle pass at the commit point. -/
theorem run_waits {s : State} (h : s.Running) (body : Run Unit) (hb : body s.begun = .error .stall) :
    run body s = .next (s.rollback s.groupNow.base) := by
  rw [run, runInstr_running h]
  simp only [bind, StateT.bind, Except.bind, hb]
  rfl

/-- The same for a body that needs its own address. -/
theorem runPc_retires {s t : State} (h : s.Running) (body : Word → Run Unit) (hb : body s.win.ctl.pc s.begun = .ok ((), t)) :
    runPc body s = .next (s.retire t) := by
  rw [runPc, runInstr_running h]
  simp only [bind, StateT.bind, Except.bind, hb]
  rfl

/-- An instruction that chooses what follows its commit retires, or leaves its context. -/
theorem runInstr_retires {s t : State} (h : s.Running) (vec : Bool) (body : Word → Run After)
    (hb : body s.win.ctl.pc s.begun = .ok (.step 0 0, t)) : runInstr vec body s = .next (s.retire t) := by
  rw [runInstr_running h, hb]; rfl
theorem runInstr_leaves {s t : State} (h : s.Running) (vec : Bool) (body : Word → Run After)
    (hb : body s.win.ctl.pc s.begun = .ok (.gone, t)) : runInstr vec body s = .next (s.leave t) := by
  rw [runInstr_running h, hb]; rfl

/-! ## The begun state -/

@[simp] theorem State.begun_cid (s : State) : s.begun.cid = s.cid := rfl
@[simp] theorem State.begun_ctx (s : State) : s.begun.ctx = s.ctx := rfl
@[simp] theorem State.begun_agenda (s : State) : s.begun.agenda = s.agenda := rfl
@[simp] theorem State.begun_open (s : State) : s.begun.open_ = some s.groupNow := rfl
@[simp] theorem State.begun_mem (s : State) : s.begun.m.mem = s.m.mem := by simp [State.begun, State.setPc, Module.setWin]
@[simp] theorem State.begun_sites (s : State) : s.begun.m.sites = s.m.sites := by simp [State.begun, State.setPc, Module.setWin]
@[simp] theorem State.begun_late (s : State) : s.begun.m.late = s.m.late := by simp [State.begun, State.setPc, Module.setWin]

theorem State.key_of_issue (s : State) (g : Option Group0) :
    State.key { s with m := s.m.issue s.cid s.ctx, open_ := g } = s.key := by simp [State.key, State.core]
theorem State.win_of_issue (s : State) (g : Option Group0) :
    State.win { s with m := s.m.issue s.cid s.ctx, open_ := g } = s.win := by
  have h := State.key_of_issue s g
  simp only [State.win, State.act, h]
  simp [State.core]

@[simp] theorem State.begun_key (s : State) : s.begun.key = s.key := by
  rw [State.begun, State.setPc, State.key_setWin, State.key_of_issue]
@[simp] theorem State.begun_win (s : State) :
    s.begun.win = { s.win with ctl := { s.win.ctl with pc := seqNext (s.hc s.win.ctl.pc) s.win.ctl.pc } } := by
  rw [State.begun, State.setPc, State.win_setWin, State.win_of_issue]
@[simp] theorem State.begun_sw (s : State) : s.begun.sw = s.sw := by simp [State.sw]
@[simp] theorem State.begun_super (s : State) : s.begun.super = s.super := by simp [State.super]
@[simp] theorem State.begun_aid (s : State) : s.begun.aid = s.aid := by simp [State.aid, Ctl.aid]

/-- The entries that wait in a group are those of the open group. -/
@[simp] theorem State.begun_ldQ (s : State) : s.begun.ldQ = s.ldQ := by
  simp only [State.ldQ, State.begun_open, State.groupNow]
  cases s.open_ <;> rfl
@[simp] theorem State.begun_sdQ (s : State) : s.begun.sdQ = s.sdQ := by
  simp only [State.sdQ, State.begun_open, State.groupNow]
  cases s.open_ <;> rfl

/-- What may suspend is allowed outside upcall code with both queues empty. -/
theorem mayWait_ok {s : State} (hu : swUpc s.sw = false) (hl : s.ldQ = []) (hs : s.sdQ = []) :
    mayWait s.begun = .ok ((), s.begun) := by
  have h1 : Run.stopIf (swUpc s.begun.sw) .illop 0 s.begun = .ok ((), s.begun) := by rw [State.begun_sw, hu]; rfl
  have h2 : Run.stopIf (!s.begun.ldQ.isEmpty || !s.begun.sdQ.isEmpty) .badopnd 0 s.begun = .ok ((), s.begun) := by
    rw [State.begun_ldQ, State.begun_sdQ, hl, hs]; rfl
  simp only [mayWait, noUpcall, noQueue, bind, StateT.bind, Except.bind, get, getThe, MonadStateOf.get, StateT.get, pure,
    Except.pure, h1, h2]

end Sys2Proof.Machine
end

