-- ==== Sys2Proof/Laws/Memory.lean ====
section
/-!
SUPPORT. The memory operations: each keeps the canonical form, a read after a write gives the bytes written, and a write
leaves every other location alone.
-/
namespace Sys2Proof.Machine

/-! ## Canonical form -/

/-- Every listed location is at least b. -/
def Mem.above (b : Nat) (mem : List Host.Cell) : Prop := ∀ c ∈ mem, b ≤ c.1

theorem Mem.wf_cons {k : Nat} {v : Byte} {t : List Host.Cell} :
    Mem.wf ((k, v) :: t) = true ↔ v ≠ 0#8 ∧ Mem.above (k + 1) t ∧ Mem.wf t = true := by
  induction t generalizing k v with
  | nil => simp [Mem.wf, Mem.above]
  | cons e t ih =>
    obtain ⟨k', v'⟩ := e
    rw [Mem.wf]
    simp only [Bool.and_eq_true, decide_eq_true_eq, Mem.above]
    constructor
    · rintro ⟨⟨h1, h2⟩, h3⟩
      refine ⟨by simpa using h1, ?_, h3⟩
      have h4 := (ih.mp h3).2.1
      intro c hc
      rcases List.mem_cons.mp hc with rfl | hc
      · exact h2
      · have := h4 c hc; omega
    · rintro ⟨h1, h2, h3⟩
      exact ⟨⟨by simpa using h1, h2 (k', v') (by simp)⟩, h3⟩

theorem Mem.above_put {b a : Nat} {v : Byte} {mem : List Host.Cell} (h : Mem.above b mem) (ha : b ≤ a) :
    Mem.above b (Mem.put mem a v) := by
  induction mem with
  | nil =>
    intro c hc
    simp only [Mem.put] at hc
    split at hc <;> simp_all
  | cons e t ih =>
    obtain ⟨k, w⟩ := e
    have ht : Mem.above b t := fun c hc => h c (List.mem_cons_of_mem _ hc)
    have hk : b ≤ k := h (k, w) (by simp)
    intro c hc
    simp only [Mem.put] at hc
    split at hc
    · split at hc
      · exact h c hc
      · rcases List.mem_cons.mp hc with rfl | hc
        · exact ha
        · exact h c hc
    · split at hc
      · split at hc
        · exact ht c hc
        · rcases List.mem_cons.mp hc with rfl | hc
          · exact ha
          · exact ht c hc
      · rcases List.mem_cons.mp hc with rfl | hc
        · exact hk
        · exact ih ht c hc

theorem Mem.above_mono {b b' : Nat} {mem : List Host.Cell} (h : Mem.above b mem) (hb : b' ≤ b) : Mem.above b' mem :=
  fun c hc => Nat.le_trans hb (h c hc)

/-- A write of one byte keeps the canonical form. -/
theorem Mem.wf_put {mem : List Host.Cell} (h : Mem.wf mem = true) (a : Nat) (v : Byte) : Mem.wf (Mem.put mem a v) = true := by
  induction mem with
  | nil =>
    simp only [Mem.put]
    split
    · exact h
    · simpa [Mem.wf]
  | cons e t ih =>
    obtain ⟨k, w⟩ := e
    have ⟨h1, h2, h3⟩ := Mem.wf_cons.mp h
    simp only [Mem.put]
    split
    · split
      · exact h
      · refine Mem.wf_cons.mpr ⟨by assumption, ?_, h⟩
        intro c hc
        rcases List.mem_cons.mp hc with rfl | hc
        · exact ‹a < k›
        · have := h2 c hc; omega
    · split
      · subst_vars
        split
        · exact h3
        · exact Mem.wf_cons.mpr ⟨by assumption, h2, h3⟩
      · exact Mem.wf_cons.mpr ⟨h1, Mem.above_put h2 (by omega), ih h3⟩

/-- A write of bytes keeps the canonical form. -/
theorem Mem.wf_write {mem : List Host.Cell} (h : Mem.wf mem = true) (a : Nat) (bs : List Byte) :
    Mem.wf (Mem.write mem a bs) = true := by
  induction bs generalizing mem a with
  | nil => exact h
  | cons b bs ih => exact ih (Mem.wf_put h a b) (a + 1)

/-- Dropping cells keeps the canonical form. -/
theorem Mem.wf_filter {mem : List Host.Cell} (h : Mem.wf mem = true) (p : Host.Cell → Bool) :
    Mem.wf (mem.filter p) = true := by
  induction mem with
  | nil => rfl
  | cons e t ih =>
    obtain ⟨k, v⟩ := e
    have ⟨h1, h2, h3⟩ := Mem.wf_cons.mp h
    simp only [List.filter_cons]
    split
    · exact Mem.wf_cons.mpr ⟨h1, fun c hc => h2 c (List.mem_filter.mp hc).1, ih h3⟩
    · exact ih h3

/-- Zeroing a range keeps the canonical form. -/
theorem Mem.wf_zero {mem : List Host.Cell} (h : Mem.wf mem = true) (a n : Nat) : Mem.wf (Mem.zero mem a n) = true :=
  Mem.wf_filter h _

/-- Two memories in canonical form, one wholly below the other, are one. -/
theorem Mem.wf_append {l r : List Host.Cell} {n : Nat} (hl : Mem.wf l = true) (hr : Mem.wf r = true) (hb : ∀ c ∈ l, c.1 < n)
    (ha : Mem.above n r) : Mem.wf (l ++ r) = true := by
  induction l with
  | nil => exact hr
  | cons e t ih =>
    obtain ⟨k, v⟩ := e
    have ⟨h1, h2, h3⟩ := Mem.wf_cons.mp hl
    refine Mem.wf_cons.mpr ⟨h1, ?_, ih h3 fun c hc => hb c (List.mem_cons_of_mem _ hc)⟩
    have hk := hb (k, v) (by simp)
    intro c hc
    rcases List.mem_append.mp hc with hc | hc
    · exact h2 c hc
    · exact Nat.le_trans hk (ha c hc)

/-- The cells of a function over a range: from its start, below its end, in canonical form. -/
theorem Mem.wf_cells (a : Nat) (f : Nat → Byte) (lo n : Nat) :
    let l := (upFrom lo n).filterMap fun i => if f i = 0#8 then none else some (a + i, f i)
    Mem.wf l = true ∧ Mem.above (a + lo) l ∧ ∀ c ∈ l, c.1 < a + lo + n := by
  induction n generalizing lo with
  | zero => simp [upFrom, Mem.wf, Mem.above]
  | succ n ih =>
    obtain ⟨h1, h2, h3⟩ := ih (lo + 1)
    simp only [upFrom, List.filterMap_cons]
    split
    · exact ⟨h1, Mem.above_mono h2 (by omega), fun c hc => by have := h3 c hc; omega⟩
    · rename_i hs
      split at hs
      · cases hs
      · cases hs
        refine ⟨Mem.wf_cons.mpr ⟨by assumption, Mem.above_mono h2 (by omega), h1⟩, ?_, ?_⟩
        · intro c hc
          rcases List.mem_cons.mp hc with rfl | hc
          · exact Nat.le_refl _
          · have := h2 c hc; omega
        · intro c hc
          rcases List.mem_cons.mp hc with rfl | hc
          · simp
          · have := h3 c hc; omega

/-- Filling a range keeps the canonical form. -/
theorem Mem.wf_fill {mem : List Host.Cell} (h : Mem.wf mem = true) (a n : Nat) (f : Nat → Byte) :
    Mem.wf (Mem.fill mem a n f) = true := by
  obtain ⟨h1, h2, h3⟩ := Mem.wf_cells a f 0 n
  refine Mem.wf_append (n := a + n) (Mem.wf_append (n := a) (Mem.wf_filter h _) h1 ?_ h2) (Mem.wf_filter h _) ?_ ?_
  · intro c hc; simpa using (List.mem_filter.mp hc).2
  · intro c hc
    rcases List.mem_append.mp hc with hc | hc
    · have : c.1 < a := by simpa using (List.mem_filter.mp hc).2
      omega
    · simpa using h3 c hc
  · intro c hc; simpa using (List.mem_filter.mp hc).2

/-- Reset memory is in canonical form. -/
theorem reset_memory_wf : Mem.wf State.reset.m.mem = true := rfl

/-! ## Reads after writes -/

theorem Mem.get_of_above {b a : Nat} {mem : List Host.Cell} (h : Mem.above b mem) (ha : a < b) : Mem.get mem a = 0#8 := by
  induction mem with
  | nil => rfl
  | cons e t ih =>
    obtain ⟨k, v⟩ := e
    have hk : b ≤ k := h (k, v) (by simp)
    rw [Mem.get, if_neg (by omega)]
    exact ih fun c hc => h c (List.mem_cons_of_mem _ hc)

/-- A write of one byte leaves every other byte alone. -/
theorem Mem.get_put_other (mem : List Host.Cell) {a b : Nat} (v : Byte) (h : b ≠ a) :
    Mem.get (Mem.put mem a v) b = Mem.get mem b := by
  induction mem with
  | nil =>
    simp only [Mem.put]
    split
    · rfl
    · simp [Mem.get, Ne.symm h]
  | cons e t ih =>
    obtain ⟨k, w⟩ := e
    simp only [Mem.put]
    split
    · split
      · rfl
      · simp [Mem.get, Ne.symm h]
    · split
      · subst_vars
        split
        · simp [Mem.get, Ne.symm h]
        · simp [Mem.get, Ne.symm h]
      · simp only [Mem.get, ih]

/-- The byte written is the byte read. -/
theorem Mem.get_put_same {mem : List Host.Cell} (h : Mem.wf mem = true) (a : Nat) (v : Byte) :
    Mem.get (Mem.put mem a v) a = v := by
  induction mem with
  | nil =>
    simp only [Mem.put]
    split
    · simp_all [Mem.get]
    · simp [Mem.get]
  | cons e t ih =>
    obtain ⟨k, w⟩ := e
    have ⟨_, h2, h3⟩ := Mem.wf_cons.mp h
    simp only [Mem.put]
    split
    · split
      · subst_vars
        rw [Mem.get, if_neg (by omega)]
        exact Mem.get_of_above h2 (by omega)
      · simp [Mem.get]
    · split
      · subst_vars
        split
        · subst_vars; exact Mem.get_of_above h2 (by omega)
        · simp [Mem.get]
      · rw [Mem.get, if_neg (fun hk => absurd hk.symm (by assumption))]
        exact ih h3

/-- A write of bytes leaves every location outside them alone. -/
theorem Mem.get_write_other (mem : List Host.Cell) (a b : Nat) (bs : List Byte) (h : b < a ∨ a + bs.length ≤ b) :
    Mem.get (Mem.write mem a bs) b = Mem.get mem b := by
  induction bs generalizing mem a with
  | nil => rfl
  | cons v bs ih =>
    simp only [List.length_cons] at h
    rw [Mem.write, ih _ _ (by omega), Mem.get_put_other _ _ (by omega)]

/-- The bytes written are the bytes read. -/
theorem Mem.read_write_same {mem : List Host.Cell} (h : Mem.wf mem = true) (a : Nat) (bs : List Byte) :
    Mem.read (Mem.write mem a bs) a bs.length = bs := by
  induction bs generalizing mem a with
  | nil => rfl
  | cons v bs ih =>
    have hw := Mem.wf_put h a v
    simp only [List.length_cons, Mem.read, Mem.write, ih hw]
    rw [Mem.get_write_other _ _ _ _ (by omega), Mem.get_put_same h]

/-- A zeroed range reads as zeros, and nothing else changes. -/
theorem Mem.get_zero (mem : List Host.Cell) (a n b : Nat) :
    Mem.get (Mem.zero mem a n) b = if a ≤ b ∧ b < a + n then 0#8 else Mem.get mem b := by
  induction mem with
  | nil => simp [Mem.zero, Mem.get]
  | cons e t ih =>
    obtain ⟨k, v⟩ := e
    have hz : Mem.zero ((k, v) :: t) a n = if k < a ∨ a + n ≤ k then (k, v) :: Mem.zero t a n else Mem.zero t a n := by
      simp [Mem.zero, List.filter_cons]
    rw [hz]
    by_cases hk : k < a ∨ a + n ≤ k
    · rw [if_pos hk]
      by_cases hb : k = b
      · subst hb; simp [Mem.get]; omega
      · simp only [Mem.get, if_neg hb, ih]
    · rw [if_neg hk, ih]
      by_cases hb : k = b
      · subst hb; rw [if_pos (by omega), if_pos (by omega)]
      · simp only [Mem.get, if_neg hb]

end Sys2Proof.Machine
end

