-- ==== Sys2Proof/Laws/PerInstr.lean ====
section
/-!
SUPPORT. A law per instruction: the tail that `encode` gives has no bit above the size that the head's TL names (R98), so the line
of R97 holds every encoded instruction whole. An event has no encoding.
-/
namespace Sys2Proof.Laws

/-- A tail within the size that its head names (R98). -/
def Fits (c : Code) : Prop := c.tail.toNat < 2 ^ (8 * tailBytes c.tl)

theorem tl_mkHead (op tl : Nat) (a : Opnd) (ka x : Bool) (h : tl < 4) : bits (mkHead op tl a ka x) 9 8 = tl := by
  unfold bits mkHead
  have := ka.toNat_le; have := x.toNat_le; have := a.isLt
  simp only [BitVec.toNat_ofNat, Nat.shiftRight_eq_div_pow]
  omega

theorem t2_lt (b c : Opnd) (kb kc : Bool) {f : Nat} (h : f < 4) : t2 b c kb kc f < 65536 := by
  unfold t2
  have := kb.toNat_le; have := kc.toNat_le; have := b.isLt; have := c.isLt
  omega

theorem fits_none (op x : Nat) : Fits (encNone op x) := by
  unfold Fits Code.tl encNone mkCode
  rw [tl_mkHead _ _ _ _ _ (by decide)]
  exact (by decide : (0 : Nat) < 1)

theorem fits_T2 (op : Nat) (a : Opnd) (ka x : Bool) (b c : Opnd) (kb kc : Bool) {f : Nat} (h : f < 4) :
    Fits (mkT2 op a ka x b c kb kc f) := by
  unfold Fits Code.tl mkT2 mkCode
  rw [tl_mkHead _ _ _ _ _ (by decide)]
  exact Nat.lt_of_le_of_lt (Nat.mod_le _ _) (t2_lt b c kb kc h)

theorem fits_T4 (op : Nat) (a : Opnd) (ka x : Bool) (b c : Opnd) (kb kc : Bool) {f imm : Nat} (h : f < 4) (hi : imm < 65536) :
    Fits (mkT4 op a ka x b c kb kc f imm) := by
  unfold Fits Code.tl mkT4 mkCode
  rw [tl_mkHead _ _ _ _ _ (by decide)]
  have := t2_lt b c kb kc h
  exact Nat.lt_of_le_of_lt (Nat.mod_le _ _) (show _ < 4294967296 by omega)

theorem fits_long {op tail : Nat} {a : Opnd} {ka x : Bool} : Fits (mkCode op 3 a ka x tail) := by
  unfold Fits Code.tl mkCode
  rw [tl_mkHead _ _ _ _ _ (by decide)]
  exact BitVec.isLt _

theorem cond_f_lt (c : Cond) : c.f < 4 := by cases c <;> decide

theorem fits_encAlu3 (op : Nat) {f : Nat} (h : f < 4) (s : Alu3) : Fits (encAlu3 op f s) := fits_T2 _ _ _ _ _ _ _ _ h
theorem fits_encAluI16 (op : Nat) {f : Nat} (h : f < 4) (s : AluI16) : Fits (encAluI16 op f s) := by
  refine fits_T4 _ _ _ _ _ _ _ _ h ?_
  have := s.kb.toNat_le; have := s.half.toNat_le; have := s.imm.isLt; omega
theorem fits_encAluI48 (op : Nat) (f : Nat) (s : AluI48) : Fits (encAluI48 op f s) := fits_long
theorem fits_encShiftI (op : Nat) {f : Nat} (h : f < 4) (s : ShiftI) : Fits (encShiftI op f s) := by
  refine fits_T4 _ _ _ _ _ _ _ _ h ?_
  have := s.kb.toNat_le; have := s.half.toNat_le; have := s.n.isLt; omega
theorem fits_encUn (op : Nat) {f : Nat} (h : f < 4) (s : Un) : Fits (encUn op f s) := fits_T2 _ _ _ _ _ _ _ _ h
theorem fits_encSrc1 (op : Nat) {f : Nat} (h : f < 4) (s : Src1) : Fits (encSrc1 op f s) := fits_T2 _ _ _ _ _ _ _ _ h
theorem fits_encBin (op : Nat) {f : Nat} (h : f < 4) (s : Bin) : Fits (encBin op f s) := fits_T2 _ _ _ _ _ _ _ _ h
theorem fits_encRangeOp (op : Nat) {f : Nat} (h : f < 4) (s : RangeOp) : Fits (encRangeOp op f s) := fits_T2 _ _ _ _ _ _ _ _ h
theorem fits_encSet3 (op : Nat) (s : Set3) : Fits (encSet3 op s) := fits_T2 _ _ _ _ _ _ _ _ (cond_f_lt _)
theorem fits_encSetI16 (op : Nat) (s : SetI16) : Fits (encSetI16 op s) := by
  refine fits_T4 _ _ _ _ _ _ _ _ (cond_f_lt _) ?_
  have := s.kb.toNat_le; have := s.imm.isLt; omega
theorem fits_encSetI48 (op : Nat) (s : SetI48) : Fits (encSetI48 op s) := fits_long
theorem fits_encCsel (op : Nat) (s : Csel) : Fits (encCsel op s) := by
  refine fits_T4 _ _ _ _ _ _ _ _ (Nat.lt_of_le_of_lt (Bool.toNat_le _) (by decide)) ?_
  have := s.kb.toNat_le; have := s.kc.toNat_le; have := s.kd.toNat_le; have := s.onZero.toNat_le; have := s.d.isLt; omega
theorem fits_encExtr (op : Nat) {f : Nat} (h : f < 4) (s : Extr) : Fits (encExtr op f s) := by
  refine fits_T4 _ _ _ _ _ _ _ _ h ?_
  have := s.kb.toNat_le; have := s.pos.isLt; have := s.wid.isLt; omega
theorem fits_encInsr (op : Nat) (s : Insr) : Fits (encInsr op s) := by
  refine fits_T4 _ _ _ _ _ _ _ _ (by have := s.pos.isLt; have := s.wid.isLt; omega) ?_
  have := s.kb.toNat_le; have := s.kc.toNat_le; have := s.pos.isLt; have := s.wid.isLt; omega
theorem fits_encLdi16 (op : Nat) {f : Nat} (h : f < 4) (s : Ldi16) : Fits (encLdi16 op f s) := by
  refine fits_T4 _ _ _ _ _ _ _ _ h ?_
  have := s.half.toNat_le; have := s.imm.isLt; omega
theorem fits_encLdi48 (op : Nat) (f : Nat) (s : Ldi48) : Fits (encLdi48 op f s) := fits_long
theorem fits_encRel16 (op : Nat) (x : Nat) (s : Rel16) : Fits (encRel16 op x s) := by
  refine fits_T4 _ _ _ _ _ _ _ _ (by have := s.slot.isLt; have := s.ldisp.isLt; omega) ?_
  have := s.slot.isLt; have := s.ldisp.isLt; omega
theorem fits_encRel48 (op : Nat) (x : Nat) (s : Rel48) : Fits (encRel48 op x s) := fits_long
theorem fits_encBr16 (op : Nat) (x : Nat) (s : Br16) : Fits (encBr16 op x s) := by
  refine fits_T4 _ _ _ _ _ _ _ _ (by have := s.slot.isLt; have := s.ldisp.isLt; omega) ?_
  have := s.slot.isLt; have := s.ldisp.isLt; omega
theorem fits_encBr48 (op : Nat) (x : Nat) (s : Br48) : Fits (encBr48 op x s) := fits_long
theorem fits_encBc16 (op : Nat) (s : Bc16) : Fits (encBc16 op s) := by
  refine fits_T4 _ _ _ _ _ _ _ _ (cond_f_lt _) ?_
  have := s.kb.toNat_le; have := s.kc.toNat_le; have := s.slot.isLt; have := s.ldisp.isLt; omega
theorem fits_encBc48 (op : Nat) (s : Bc48) : Fits (encBc48 op s) := fits_long
theorem fits_encSkipF (op : Nat) (s : SkipF) : Fits (encSkipF op s) := by
  refine fits_T4 _ _ _ _ _ _ _ _ (cond_f_lt _) ?_
  have := s.kb.toNat_le; have := s.kc.toNat_le; have := s.n.isLt; omega
theorem fits_encLdX (op : Nat) (s : LdX) : Fits (encLdX op s) := fits_T2 _ _ _ _ _ _ _ _ (by have := s.size.isLt; omega)
theorem fits_encLdD (op : Nat) (s : LdD) : Fits (encLdD op s) := by
  refine fits_T4 _ _ _ _ _ _ _ _ (by have := s.size.isLt; have := s.disp.isLt; omega) ?_
  have := s.kb.toNat_le; have := s.sx.toNat_le; have := s.size.isLt; have := s.disp.isLt; omega
theorem fits_encStX (op : Nat) (s : StX) : Fits (encStX op s) := fits_T2 _ _ _ _ _ _ _ _ (by have := s.size.isLt; omega)
theorem fits_encStD (op : Nat) (s : StD) : Fits (encStD op s) := by
  refine fits_T4 _ _ _ _ _ _ _ _ (by have := s.size.isLt; have := s.disp.isLt; omega) ?_
  have := s.ka.toNat_le; have := s.kb.toNat_le; have := s.size.isLt; have := s.disp.isLt; omega
theorem fits_encLdrsX (op : Nat) (s : LdrsX) : Fits (encLdrsX op s) := fits_T2 _ _ _ _ _ _ _ _ (by have := s.dw.toNat_le; omega)
theorem fits_encLdrsD (op : Nat) (s : LdrsD) : Fits (encLdrsD op s) := by
  refine fits_T4 _ _ _ _ _ _ _ _ (by have := s.dw.toNat_le; have := s.disp.isLt; omega) ?_
  have := s.kb.toNat_le; have := s.dw.toNat_le; have := s.disp.isLt; omega
theorem fits_encStcF (op : Nat) (s : StcF) : Fits (encStcF op s) := fits_T2 _ _ _ _ _ _ _ _ (by have := s.dw.toNat_le; omega)
theorem fits_encBankMask (op : Nat) {f : Nat} (h : f < 4) (s : BankMask) : Fits (encBankMask op f s) := by
  refine fits_T4 _ _ _ _ _ _ _ _ h ?_
  have := s.mask.isLt; omega
theorem fits_encFenceF (op : Nat) (s : FenceF) : Fits (encFenceF op s) := by
  refine fits_T4 _ _ _ _ _ _ _ _ (by have := s.order.isLt; have := s.scope.isLt; omega) ?_
  have := s.order.isLt; have := s.scope.isLt; omega
theorem fits_encAtomF (op : Nat) (s : AtomF) : Fits (encAtomF op s) := by
  refine fits_T4 _ _ _ _ _ _ _ _ (by have := s.dw.toNat_le; have := s.opc.isLt; have := s.o.toNat_le; have := s.scope.isLt; have := s.kd.toNat_le; have := s.d.isLt; omega) ?_
  have := s.kb.toNat_le; have := s.kc.toNat_le; have := s.kd.toNat_le; have := s.dw.toNat_le; have := s.o.toNat_le; have := s.opc.isLt; have := s.scope.isLt; have := s.d.isLt; omega
theorem fits_encRedF (op : Nat) (s : RedF) : Fits (encRedF op s) := by
  refine fits_T4 _ _ _ _ _ _ _ _ (by have := s.dw.toNat_le; have := s.opc.isLt; have := s.o.toNat_le; have := s.scope.isLt; omega) ?_
  have hz : opZ.toNat < 64 := by decide
  generalize opZ.toNat = z at *; have := s.ka.toNat_le; have := s.kb.toNat_le; have := s.dw.toNat_le; have := s.o.toNat_le; have := s.opc.isLt; have := s.scope.isLt; omega
theorem fits_encRedxF (op : Nat) (s : RedxF) : Fits (encRedxF op s) := by
  refine fits_T4 _ _ _ _ _ _ _ _ (by have := s.fmt.isLt; have := s.scope.isLt; omega) ?_
  have := s.ka.toNat_le; have := s.kb.toNat_le; have := s.fmt.isLt; have := s.scope.isLt; omega
theorem fits_encXreadF (op : Nat) (s : XreadF) : Fits (encXreadF op s) := by
  refine fits_T4 _ _ _ _ _ _ _ _ (by have := s.rm.isLt; have := s.ty.isLt; have := s.scope.isLt; omega) ?_
  have := s.kb.toNat_le; have := s.rm.isLt; have := s.ty.isLt; have := s.scope.isLt; omega
theorem fits_encBarF (op : Nat) {f : Nat} (h : f < 4) (s : BarF) : Fits (encBarF op f s) := by
  refine fits_T4 _ _ _ _ _ _ _ _ h ?_
  have := s.kb.toNat_le; have := s.kc.toNat_le; have := s.scope.isLt; omega
theorem fits_encBarvF (op : Nat) (s : BarvF) : Fits (encBarvF op s) := by
  refine fits_T4 _ _ _ _ _ _ _ _ (by have := s.scope.isLt; omega) ?_
  have := s.kb.toNat_le; have := s.scope.isLt; omega
theorem fits_encSemF (op : Nat) {f : Nat} (h : f < 4) (s : SemF) : Fits (encSemF op f s) := by
  refine fits_T4 _ _ _ _ _ _ _ _ h ?_
  have := s.kc.toNat_le; have := s.n.isLt; omega
theorem fits_encJobF (op : Nat) {f : Nat} (h : f < 4) (s : JobF) : Fits (encJobF op f s) := fits_T2 _ _ _ _ _ _ _ _ h
theorem fits_encSpawnF (op : Nat) (s : SpawnF) : Fits (encSpawnF op s) := by
  refine fits_T4 _ _ _ _ _ _ _ _ (by have := s.dom.isLt; omega) ?_
  have := s.kb.toNat_le; have := s.kc.toNat_le; have := s.dom.isLt; omega
theorem fits_encSendF (op : Nat) {f : Nat} (h : f < 4) (s : SendF) : Fits (encSendF op f s) := by
  refine fits_T4 _ _ _ _ _ _ _ _ h ?_
  have := s.kb.toNat_le; have := s.kc.toNat_le; have := s.ord.toNat_le; have := s.len.isLt; omega
theorem fits_encSendxF (op : Nat) (s : SendxF) : Fits (encSendxF op s) := fits_long
theorem fits_encScloseF (op : Nat) (s : ScloseF) : Fits (encScloseF op s) := fits_T2 _ _ _ _ _ _ _ _ (by decide)
theorem fits_encSbindF (op : Nat) (s : SbindF) : Fits (encSbindF op s) := by
  refine fits_T4 _ _ _ _ _ _ _ _ (by have := s.n.isLt; omega) ?_
  have := s.kb.toNat_le; have := s.kc.toNat_le; have := s.n.isLt; omega
theorem fits_encDest (op : Nat) {f : Nat} (h : f < 4) (s : Dest) : Fits (encDest op f s) := fits_T2 _ _ _ _ _ _ _ _ h
theorem fits_encMxPQ (op : Nat) (s : MxPQ) : Fits (encMxPQ op s) := fits_long
theorem fits_encMxDrn (op : Nat) (s : MxDrn) : Fits (encMxDrn op s) := fits_long
theorem fits_encMxN (op : Nat) (f : Nat) (s : MxN) : Fits (encMxN op f s) := fits_long
theorem fits_encMxZero (op : Nat) (s : MxZero) : Fits (encMxZero op s) := fits_long
theorem fits_encCpF (op : Nat) (x : Nat) (s : CpF) : Fits (encCpF op x s) := fits_long
theorem fits_encDtldF (op : Nat) (s : DtldF) : Fits (encDtldF op s) := fits_long
theorem fits_encFp2 (op : Nat) {f : Nat} (h : f < 4) (s : Fp2) : Fits (encFp2 op f s) := by
  refine fits_T4 _ _ _ _ _ _ _ _ h ?_
  have hz : opZ.toNat < 64 := by decide
  generalize opZ.toNat = z at *; have := s.kb.toNat_le; have := s.kc.toNat_le; have := s.ty.isLt; have := s.rm.isLt; omega
theorem fits_encFp1 (op : Nat) {f : Nat} (h : f < 4) (s : Fp1) : Fits (encFp1 op f s) := by
  refine fits_T4 _ _ _ _ _ _ _ _ h ?_
  have hz : opZ.toNat < 64 := by decide
  generalize opZ.toNat = z at *; have := s.kb.toNat_le; have := s.ty.isLt; have := s.rm.isLt; omega
theorem fits_encFp3 (op : Nat) (s : Fp3) : Fits (encFp3 op s) := by
  refine fits_T4 _ _ _ _ _ _ _ _ (by have := s.ty.isLt; have := s.rm.isLt; have := s.d.isLt; have := s.kd.toNat_le; omega) ?_
  have := s.kb.toNat_le; have := s.kc.toNat_le; have := s.kd.toNat_le; have := s.ty.isLt; have := s.rm.isLt; have := s.d.isLt; omega
theorem fits_encFcmpF (op : Nat) (s : FcmpF) : Fits (encFcmpF op s) := by
  refine fits_T4 _ _ _ _ _ _ _ _ (by have := s.ty.isLt; have := s.cnd.isLt; omega) ?_
  have := s.kb.toNat_le; have := s.kc.toNat_le; have := s.ty.isLt; have := s.cnd.isLt; omega
theorem fits_encFcvtF (op : Nat) (s : FcvtF) : Fits (encFcvtF op s) := by
  refine fits_T4 _ _ _ _ _ _ _ _ (by have := s.src.isLt; have := s.rm.isLt; have := s.sat.toNat_le; have := s.dst.isLt; omega) ?_
  have := s.kb.toNat_le; have := s.sat.toNat_le; have := s.src.isLt; have := s.rm.isLt; have := s.dst.isLt; omega
theorem fits_encVecF (op : Nat) (vop : Nat) (s : VecF) : Fits (encVecF op vop s) := fits_long
theorem fits_encVMemF (op : Nat) (f : Nat) (x : Nat) (s : VMemF) : Fits (encVMemF op f x s) := fits_long
theorem fits_encVMovF (op : Nat) {f : Nat} (h : f < 4) (s : VMovF) : Fits (encVMovF op f s) := by
  refine fits_T4 _ _ _ _ _ _ _ _ h ?_
  have := s.kb.toNat_le; have := s.kc.toNat_le; have := s.lane.isLt; have := s.ty.isLt; omega
theorem fits_encCsrrF (op : Nat) (s : CsrrF) : Fits (encCsrrF op s) := by
  refine fits_T4 _ _ _ _ _ _ _ _ (by have := s.n.isLt; omega) ?_
  have := s.n.isLt; omega
theorem fits_encCsrwF (op : Nat) (s : CsrwF) : Fits (encCsrwF op s) := by
  refine fits_T4 _ _ _ _ _ _ _ _ (by have := s.n.isLt; omega) ?_
  have := s.ka.toNat_le; have := s.n.isLt; omega
theorem fits_encCsrxF (op : Nat) (s : CsrxF) : Fits (encCsrxF op s) := by
  refine fits_T4 _ _ _ _ _ _ _ _ (by have := s.n.isLt; omega) ?_
  have := s.kb.toNat_le; have := s.n.isLt; omega
theorem fits_encCodeF (op : Nat) {f : Nat} (h : f < 4) (s : CodeF) : Fits (encCodeF op f s) := by
  refine fits_T4 _ _ _ _ _ _ _ _ h ?_
  have := s.code.isLt; omega

namespace Encoding

/-- R98: what an instruction encodes to has a tail within the size that its head names. -/
def Statement (i : Instr) : Prop := ∀ c, encode i = some c → Fits c
theorem event {i : Instr} (h : encode i = none) : Statement i := fun c e => by rw [h] at e; cases e
theorem code {i : Instr} {c : Code} (h : encode i = some c) (hc : Fits c) : Statement i := fun d e => by
  rw [h] at e; cases e; exact hc

theorem addReg (f : Alu3) : Statement (.addReg f) := code rfl (fits_encAlu3 _ (by decide) f)
theorem addShortImm (f : AluI16) : Statement (.addShortImm f) := code rfl (fits_encAluI16 _ (by decide) f)
theorem addLongImm (f : AluI48) : Statement (.addLongImm f) := code rfl (fits_encAluI48 _ _ f)
theorem subReg (f : Alu3) : Statement (.subReg f) := code rfl (fits_encAlu3 _ (by decide) f)
theorem subShortImm (f : AluI16) : Statement (.subShortImm f) := code rfl (fits_encAluI16 _ (by decide) f)
theorem subLongImm (f : AluI48) : Statement (.subLongImm f) := code rfl (fits_encAluI48 _ _ f)
theorem mulReg (f : Alu3) : Statement (.mulReg f) := code rfl (fits_encAlu3 _ (by decide) f)
theorem mulShortImm (f : AluI16) : Statement (.mulShortImm f) := code rfl (fits_encAluI16 _ (by decide) f)
theorem mulLongImm (f : AluI48) : Statement (.mulLongImm f) := code rfl (fits_encAluI48 _ _ f)
theorem mulhReg (f : Alu3) : Statement (.mulhReg f) := code rfl (fits_encAlu3 _ (by decide) f)
theorem mulhShortImm (f : AluI16) : Statement (.mulhShortImm f) := code rfl (fits_encAluI16 _ (by decide) f)
theorem mulhLongImm (f : AluI48) : Statement (.mulhLongImm f) := code rfl (fits_encAluI48 _ _ f)
theorem mulhUReg (f : Alu3) : Statement (.mulhUReg f) := code rfl (fits_encAlu3 _ (by decide) f)
theorem mulhUShortImm (f : AluI16) : Statement (.mulhUShortImm f) := code rfl (fits_encAluI16 _ (by decide) f)
theorem mulhULongImm (f : AluI48) : Statement (.mulhULongImm f) := code rfl (fits_encAluI48 _ _ f)
theorem divReg (f : Alu3) : Statement (.divReg f) := code rfl (fits_encAlu3 _ (by decide) f)
theorem divShortImm (f : AluI16) : Statement (.divShortImm f) := code rfl (fits_encAluI16 _ (by decide) f)
theorem divLongImm (f : AluI48) : Statement (.divLongImm f) := code rfl (fits_encAluI48 _ _ f)
theorem divUReg (f : Alu3) : Statement (.divUReg f) := code rfl (fits_encAlu3 _ (by decide) f)
theorem divUShortImm (f : AluI16) : Statement (.divUShortImm f) := code rfl (fits_encAluI16 _ (by decide) f)
theorem divULongImm (f : AluI48) : Statement (.divULongImm f) := code rfl (fits_encAluI48 _ _ f)
theorem remReg (f : Alu3) : Statement (.remReg f) := code rfl (fits_encAlu3 _ (by decide) f)
theorem remShortImm (f : AluI16) : Statement (.remShortImm f) := code rfl (fits_encAluI16 _ (by decide) f)
theorem remLongImm (f : AluI48) : Statement (.remLongImm f) := code rfl (fits_encAluI48 _ _ f)
theorem remUReg (f : Alu3) : Statement (.remUReg f) := code rfl (fits_encAlu3 _ (by decide) f)
theorem remUShortImm (f : AluI16) : Statement (.remUShortImm f) := code rfl (fits_encAluI16 _ (by decide) f)
theorem remULongImm (f : AluI48) : Statement (.remULongImm f) := code rfl (fits_encAluI48 _ _ f)
theorem andReg (f : Alu3) : Statement (.andReg f) := code rfl (fits_encAlu3 _ (by decide) f)
theorem andShortImm (f : AluI16) : Statement (.andShortImm f) := code rfl (fits_encAluI16 _ (by decide) f)
theorem andLongImm (f : AluI48) : Statement (.andLongImm f) := code rfl (fits_encAluI48 _ _ f)
theorem andnReg (f : Alu3) : Statement (.andnReg f) := code rfl (fits_encAlu3 _ (by decide) f)
theorem andnShortImm (f : AluI16) : Statement (.andnShortImm f) := code rfl (fits_encAluI16 _ (by decide) f)
theorem andnLongImm (f : AluI48) : Statement (.andnLongImm f) := code rfl (fits_encAluI48 _ _ f)
theorem orReg (f : Alu3) : Statement (.orReg f) := code rfl (fits_encAlu3 _ (by decide) f)
theorem orShortImm (f : AluI16) : Statement (.orShortImm f) := code rfl (fits_encAluI16 _ (by decide) f)
theorem orLongImm (f : AluI48) : Statement (.orLongImm f) := code rfl (fits_encAluI48 _ _ f)
theorem xorReg (f : Alu3) : Statement (.xorReg f) := code rfl (fits_encAlu3 _ (by decide) f)
theorem xorShortImm (f : AluI16) : Statement (.xorShortImm f) := code rfl (fits_encAluI16 _ (by decide) f)
theorem xorLongImm (f : AluI48) : Statement (.xorLongImm f) := code rfl (fits_encAluI48 _ _ f)
theorem shlReg (f : Alu3) : Statement (.shlReg f) := code rfl (fits_encAlu3 _ (by decide) f)
theorem shlImm (f : ShiftI) : Statement (.shlImm f) := code rfl (fits_encShiftI _ (by decide) f)
theorem shrReg (f : Alu3) : Statement (.shrReg f) := code rfl (fits_encAlu3 _ (by decide) f)
theorem shrImm (f : ShiftI) : Statement (.shrImm f) := code rfl (fits_encShiftI _ (by decide) f)
theorem sarReg (f : Alu3) : Statement (.sarReg f) := code rfl (fits_encAlu3 _ (by decide) f)
theorem sarImm (f : ShiftI) : Statement (.sarImm f) := code rfl (fits_encShiftI _ (by decide) f)
theorem rotReg (f : Alu3) : Statement (.rotReg f) := code rfl (fits_encAlu3 _ (by decide) f)
theorem rotImm (f : ShiftI) : Statement (.rotImm f) := code rfl (fits_encShiftI _ (by decide) f)
theorem minReg (f : Alu3) : Statement (.minReg f) := code rfl (fits_encAlu3 _ (by decide) f)
theorem minShortImm (f : AluI16) : Statement (.minShortImm f) := code rfl (fits_encAluI16 _ (by decide) f)
theorem minLongImm (f : AluI48) : Statement (.minLongImm f) := code rfl (fits_encAluI48 _ _ f)
theorem maxReg (f : Alu3) : Statement (.maxReg f) := code rfl (fits_encAlu3 _ (by decide) f)
theorem maxShortImm (f : AluI16) : Statement (.maxShortImm f) := code rfl (fits_encAluI16 _ (by decide) f)
theorem maxLongImm (f : AluI48) : Statement (.maxLongImm f) := code rfl (fits_encAluI48 _ _ f)
theorem minUReg (f : Alu3) : Statement (.minUReg f) := code rfl (fits_encAlu3 _ (by decide) f)
theorem minUShortImm (f : AluI16) : Statement (.minUShortImm f) := code rfl (fits_encAluI16 _ (by decide) f)
theorem minULongImm (f : AluI48) : Statement (.minULongImm f) := code rfl (fits_encAluI48 _ _ f)
theorem maxUReg (f : Alu3) : Statement (.maxUReg f) := code rfl (fits_encAlu3 _ (by decide) f)
theorem maxUShortImm (f : AluI16) : Statement (.maxUShortImm f) := code rfl (fits_encAluI16 _ (by decide) f)
theorem maxULongImm (f : AluI48) : Statement (.maxULongImm f) := code rfl (fits_encAluI48 _ _ f)
theorem clz (f : Un) : Statement (.clz f) := code rfl (fits_encUn _ (by decide) f)
theorem ctz (f : Un) : Statement (.ctz f) := code rfl (fits_encUn _ (by decide) f)
theorem popc (f : Un) : Statement (.popc f) := code rfl (fits_encUn _ (by decide) f)
theorem bswp (f : Un) : Statement (.bswp f) := code rfl (fits_encUn _ (by decide) f)
theorem setReg (f : Set3) : Statement (.setReg f) := code rfl (fits_encSet3 _ f)
theorem setShortImm (f : SetI16) : Statement (.setShortImm f) := code rfl (fits_encSetI16 _ f)
theorem setLongImm (f : SetI48) : Statement (.setLongImm f) := code rfl (fits_encSetI48 _ f)
theorem csel (f : Csel) : Statement (.csel f) := code rfl (fits_encCsel _ f)
theorem extr (f : Extr) : Statement (.extr f) := code rfl (fits_encExtr _ (by decide) f)
theorem extrS (f : Extr) : Statement (.extrS f) := code rfl (fits_encExtr _ (by decide) f)
theorem insr (f : Insr) : Statement (.insr f) := code rfl (fits_encInsr _ f)
theorem ldiShort (f : Ldi16) : Statement (.ldiShort f) := code rfl (fits_encLdi16 _ (by decide) f)
theorem ldiLong (f : Ldi48) : Statement (.ldiLong f) := code rfl (fits_encLdi48 _ _ f)
theorem ldiUShort (f : Ldi16) : Statement (.ldiUShort f) := code rfl (fits_encLdi16 _ (by decide) f)
theorem ldiULong (f : Ldi48) : Statement (.ldiULong f) := code rfl (fits_encLdi48 _ _ f)
theorem adpcShort (f : Rel16) : Statement (.adpcShort f) := code rfl (fits_encRel16 _ _ f)
theorem adpcLong (f : Rel48) : Statement (.adpcLong f) := code rfl (fits_encRel48 _ _ f)
theorem ldIndex (f : LdX) : Statement (.ldIndex f) := code rfl (fits_encLdX _ f)
theorem ldDisp (f : LdD) : Statement (.ldDisp f) := code rfl (fits_encLdD _ f)
theorem stIndex (f : StX) : Statement (.stIndex f) := code rfl (fits_encStX _ f)
theorem stDisp (f : StD) : Statement (.stDisp f) := code rfl (fits_encStD _ f)
theorem ldrsIndex (f : LdrsX) : Statement (.ldrsIndex f) := code rfl (fits_encLdrsX _ f)
theorem ldrsDisp (f : LdrsD) : Statement (.ldrsDisp f) := code rfl (fits_encLdrsD _ f)
theorem stc (f : StcF) : Statement (.stc f) := code rfl (fits_encStcF _ f)
theorem pref (f : RangeOp) : Statement (.pref f) := code rfl (fits_encRangeOp _ (by decide) f)
theorem smap (f : RangeOp) : Statement (.smap f) := code rfl (fits_encRangeOp _ (by decide) f)
theorem sflush (f : RangeOp) : Statement (.sflush f) := code rfl (fits_encRangeOp _ (by decide) f)
theorem sinv (f : RangeOp) : Statement (.sinv f) := code rfl (fits_encRangeOp _ (by decide) f)
theorem dropRet (f : BankMask) : Statement (.dropRet f) := code rfl (fits_encBankMask _ (by decide) f)
theorem dropOff (f : BankMask) : Statement (.dropOff f) := code rfl (fits_encBankMask _ (by decide) f)
theorem wake (f : BankMask) : Statement (.wake f) := code rfl (fits_encBankMask _ (by decide) f)
theorem fence (f : FenceF) : Statement (.fence f) := code rfl (fits_encFenceF _ f)
theorem icinv (f : RangeOp) : Statement (.icinv f) := code rfl (fits_encRangeOp _ (by decide) f)
theorem fbar : Statement .fbar := code rfl (fits_none _ _)
theorem atom (f : AtomF) : Statement (.atom f) := code rfl (fits_encAtomF _ f)
theorem red (f : RedF) : Statement (.red f) := code rfl (fits_encRedF _ f)
theorem redx (f : RedxF) : Statement (.redx f) := code rfl (fits_encRedxF _ f)
theorem xread (f : XreadF) : Statement (.xread f) := code rfl (fits_encXreadF _ f)
theorem waitrs (f : Un) : Statement (.waitrs f) := code rfl (fits_encUn _ (by decide) f)
theorem bari (f : BarF) : Statement (.bari f) := code rfl (fits_encBarF _ (by decide) f)
theorem bara (f : BarF) : Statement (.bara f) := code rfl (fits_encBarF _ (by decide) f)
theorem bart (f : BarF) : Statement (.bart f) := code rfl (fits_encBarF _ (by decide) f)
theorem barw (f : BarF) : Statement (.barw f) := code rfl (fits_encBarF _ (by decide) f)
theorem barv (f : BarvF) : Statement (.barv f) := code rfl (fits_encBarvF _ f)
theorem semw (f : SemF) : Statement (.semw f) := code rfl (fits_encSemF _ (by decide) f)
theorem sems (f : SemF) : Statement (.sems f) := code rfl (fits_encSemF _ (by decide) f)
theorem semset (f : SemF) : Statement (.semset f) := code rfl (fits_encSemF _ (by decide) f)
theorem jwait (f : JobF) : Statement (.jwait f) := code rfl (fits_encJobF _ (by decide) f)
theorem jpoll (f : JobF) : Statement (.jpoll f) := code rfl (fits_encJobF _ (by decide) f)
theorem wait (f : Un) : Statement (.wait f) := code rfl (fits_encUn _ (by decide) f)
theorem bShort (f : Br16) : Statement (.bShort f) := code rfl (fits_encBr16 _ _ f)
theorem bLong (f : Br48) : Statement (.bLong f) := code rfl (fits_encBr48 _ _ f)
theorem callShort (f : Rel16) : Statement (.callShort f) := code rfl (fits_encRel16 _ _ f)
theorem callLong (f : Rel48) : Statement (.callLong f) := code rfl (fits_encRel48 _ _ f)
theorem bcShort (f : Bc16) : Statement (.bcShort f) := code rfl (fits_encBc16 _ f)
theorem bcLong (f : Bc48) : Statement (.bcLong f) := code rfl (fits_encBc48 _ f)
theorem jmp (f : Src1) : Statement (.jmp f) := code rfl (fits_encSrc1 _ (by decide) f)
theorem callr (f : Un) : Statement (.callr f) := code rfl (fits_encUn _ (by decide) f)
theorem ret (f : Src1) : Statement (.ret f) := code rfl (fits_encSrc1 _ (by decide) f)
theorem skip (f : SkipF) : Statement (.skip f) := code rfl (fits_encSkipF _ f)
theorem endAct : Statement .endAct := code rfl (fits_none _ _)
theorem yield : Statement .yield := code rfl (fits_none _ _)
theorem spawn (f : SpawnF) : Statement (.spawn f) := code rfl (fits_encSpawnF _ f)
theorem join (f : Un) : Statement (.join f) := code rfl (fits_encUn _ (by decide) f)
theorem migr (f : Src1) : Statement (.migr f) := code rfl (fits_encSrc1 _ (by decide) f)
theorem send (f : SendF) : Statement (.send f) := code rfl (fits_encSendF _ (by decide) f)
theorem sendx (f : SendxF) : Statement (.sendx f) := code rfl (fits_encSendxF _ f)
theorem mcast (f : SendF) : Statement (.mcast f) := code rfl (fits_encSendF _ (by decide) f)
theorem sopen (f : Bin) : Statement (.sopen f) := code rfl (fits_encBin _ (by decide) f)
theorem sclose (f : ScloseF) : Statement (.sclose f) := code rfl (fits_encScloseF _ f)
theorem sbind (f : SbindF) : Statement (.sbind f) := code rfl (fits_encSbindF _ f)
theorem hself (f : Dest) : Statement (.hself f) := code rfl (fits_encDest _ (by decide) f)
theorem hqry (f : Bin) : Statement (.hqry f) := code rfl (fits_encBin _ (by decide) f)
theorem mxld (f : MxPQ) : Statement (.mxld f) := code rfl (fits_encMxPQ _ f)
theorem mxmma (f : MxPQ) : Statement (.mxmma f) := code rfl (fits_encMxPQ _ f)
theorem mxdrn (f : MxDrn) : Statement (.mxdrn f) := code rfl (fits_encMxDrn _ f)
theorem mxrot (f : MxN) : Statement (.mxrot f) := code rfl (fits_encMxN _ _ f)
theorem mxzero (f : MxZero) : Statement (.mxzero f) := code rfl (fits_encMxZero _ f)
theorem mxgang (f : MxN) : Statement (.mxgang f) := code rfl (fits_encMxN _ _ f)
theorem mxstat (f : Dest) : Statement (.mxstat f) := code rfl (fits_encDest _ (by decide) f)
theorem mxstatClr (f : Dest) : Statement (.mxstatClr f) := code rfl (fits_encDest _ (by decide) f)
theorem cpy (f : CpF) : Statement (.cpy f) := code rfl (fits_encCpF _ _ f)
theorem cp2d (f : CpF) : Statement (.cp2d f) := code rfl (fits_encCpF _ _ f)
theorem gath (f : CpF) : Statement (.gath f) := code rfl (fits_encCpF _ _ f)
theorem scat (f : CpF) : Statement (.scat f) := code rfl (fits_encCpF _ _ f)
theorem cpyx (f : CpF) : Statement (.cpyx f) := code rfl (fits_encCpF _ _ f)
theorem dtld (f : DtldF) : Statement (.dtld f) := code rfl (fits_encDtldF _ f)
theorem fadd (f : Fp2) : Statement (.fadd f) := code rfl (fits_encFp2 _ (by decide) f)
theorem fsub (f : Fp2) : Statement (.fsub f) := code rfl (fits_encFp2 _ (by decide) f)
theorem fmul (f : Fp2) : Statement (.fmul f) := code rfl (fits_encFp2 _ (by decide) f)
theorem fdiv (f : Fp2) : Statement (.fdiv f) := code rfl (fits_encFp2 _ (by decide) f)
theorem fsqrt (f : Fp1) : Statement (.fsqrt f) := code rfl (fits_encFp1 _ (by decide) f)
theorem fmin (f : Fp2) : Statement (.fmin f) := code rfl (fits_encFp2 _ (by decide) f)
theorem fmax (f : Fp2) : Statement (.fmax f) := code rfl (fits_encFp2 _ (by decide) f)
theorem fcls (f : Fp1) : Statement (.fcls f) := code rfl (fits_encFp1 _ (by decide) f)
theorem fma (f : Fp3) : Statement (.fma f) := code rfl (fits_encFp3 _ f)
theorem fcmp (f : FcmpF) : Statement (.fcmp f) := code rfl (fits_encFcmpF _ f)
theorem fcvt (f : FcvtF) : Statement (.fcvt f) := code rfl (fits_encFcvtF _ f)
theorem vadd (f : VecF) : Statement (.vadd f) := code rfl (fits_encVecF _ _ f)
theorem vsub (f : VecF) : Statement (.vsub f) := code rfl (fits_encVecF _ _ f)
theorem vmul (f : VecF) : Statement (.vmul f) := code rfl (fits_encVecF _ _ f)
theorem vfma (f : VecF) : Statement (.vfma f) := code rfl (fits_encVecF _ _ f)
theorem vmin (f : VecF) : Statement (.vmin f) := code rfl (fits_encVecF _ _ f)
theorem vmax (f : VecF) : Statement (.vmax f) := code rfl (fits_encVecF _ _ f)
theorem vabs (f : VecF) : Statement (.vabs f) := code rfl (fits_encVecF _ _ f)
theorem vneg (f : VecF) : Statement (.vneg f) := code rfl (fits_encVecF _ _ f)
theorem vand (f : VecF) : Statement (.vand f) := code rfl (fits_encVecF _ _ f)
theorem vor (f : VecF) : Statement (.vor f) := code rfl (fits_encVecF _ _ f)
theorem vxor (f : VecF) : Statement (.vxor f) := code rfl (fits_encVecF _ _ f)
theorem vshl (f : VecF) : Statement (.vshl f) := code rfl (fits_encVecF _ _ f)
theorem vshr (f : VecF) : Statement (.vshr f) := code rfl (fits_encVecF _ _ f)
theorem vsar (f : VecF) : Statement (.vsar f) := code rfl (fits_encVecF _ _ f)
theorem vcmp (f : VecF) : Statement (.vcmp f) := code rfl (fits_encVecF _ _ f)
theorem vsel (f : VecF) : Statement (.vsel f) := code rfl (fits_encVecF _ _ f)
theorem vcvt (f : VecF) : Statement (.vcvt f) := code rfl (fits_encVecF _ _ f)
theorem vdot (f : VecF) : Statement (.vdot f) := code rfl (fits_encVecF _ _ f)
theorem vred (f : VecF) : Statement (.vred f) := code rfl (fits_encVecF _ _ f)
theorem vperm (f : VecF) : Statement (.vperm f) := code rfl (fits_encVecF _ _ f)
theorem vld (f : VMemF) : Statement (.vld f) := code rfl (fits_encVMemF _ _ _ f)
theorem vst (f : VMemF) : Statement (.vst f) := code rfl (fits_encVMemF _ _ _ f)
theorem vlds (f : VMemF) : Statement (.vlds f) := code rfl (fits_encVMemF _ _ _ f)
theorem vsts (f : VMemF) : Statement (.vsts f) := code rfl (fits_encVMemF _ _ _ f)
theorem vgath (f : VMemF) : Statement (.vgath f) := code rfl (fits_encVMemF _ _ _ f)
theorem vmov (f : VMovF) : Statement (.vmov f) := code rfl (fits_encVMovF _ (by decide) f)
theorem vbc (f : VMovF) : Statement (.vbc f) := code rfl (fits_encVMovF _ (by decide) f)
theorem vext (f : VMovF) : Statement (.vext f) := code rfl (fits_encVMovF _ (by decide) f)
theorem vins (f : VMovF) : Statement (.vins f) := code rfl (fits_encVMovF _ (by decide) f)
theorem csrr (f : CsrrF) : Statement (.csrr f) := code rfl (fits_encCsrrF _ f)
theorem csrw (f : CsrwF) : Statement (.csrw f) := code rfl (fits_encCsrwF _ f)
theorem csrx (f : CsrxF) : Statement (.csrx f) := code rfl (fits_encCsrxF _ f)
theorem trap (f : CodeF) : Statement (.trap f) := code rfl (fits_encCodeF _ (by decide) f)
theorem svc (f : CodeF) : Statement (.svc f) := code rfl (fits_encCodeF _ (by decide) f)
theorem eret : Statement .eret := code rfl (fits_none _ _)
theorem uret : Statement .uret := code rfl (fits_none _ _)
theorem nop : Statement .nop := code rfl (fits_none _ _)
theorem brk : Statement .brk := code rfl (fits_none _ _)
theorem cStashWrite (cid : Nat) (ctx : Nat) : Statement (.cStashWrite cid ctx) := event rfl
theorem cCprWrite (cid : Nat) (ctx : Nat) : Statement (.cCprWrite cid ctx) := event rfl
theorem cSwWrite (cid : Nat) (ctx : Nat) : Statement (.cSwWrite cid ctx) := event rfl
theorem handlerCreation (cid : Nat) : Statement (.handlerCreation cid) := event rfl
theorem taskStart (cid : Nat) : Statement (.taskStart cid) := event rfl
theorem workRangeStart (cid : Nat) : Statement (.workRangeStart cid) := event rfl
theorem wakeUpArrival (p : Nat) : Statement (.wakeUpArrival p) := event rfl
theorem wakeUpHeldPush (cid : Nat) : Statement (.wakeUpHeldPush cid) := event rfl
theorem trapActivationCreation (cid : Nat) (ctx : Nat) : Statement (.trapActivationCreation cid ctx) := event rfl
theorem deferredTrapEntry (cid : Nat) : Statement (.deferredTrapEntry cid) := event rfl
theorem activationBinding (cid : Nat) (key : Nat) : Statement (.activationBinding cid key) := event rfl
theorem contextEntry (cid : Nat) (ctx : Nat) : Statement (.contextEntry cid ctx) := event rfl
theorem displacement (cid : Nat) : Statement (.displacement cid) := event rfl
theorem aging (cid : Nat) (key : Nat) : Statement (.aging cid key) := event rfl
theorem budgetExpiry (cid : Nat) (ctx : Nat) : Statement (.budgetExpiry cid ctx) := event rfl
theorem forcedSuspension (cid : Nat) (ctx : Nat) : Statement (.forcedSuspension cid ctx) := event rfl
theorem handlerBudgetExpiry (cid : Nat) (ctx : Nat) : Statement (.handlerBudgetExpiry cid ctx) := event rfl
theorem stealAttempt (cid : Nat) : Statement (.stealAttempt cid) := event rfl
theorem stealRoundRestart (cid : Nat) : Statement (.stealRoundRestart cid) := event rfl
theorem stealRequest (thief : Nat) : Statement (.stealRequest thief) := event rfl
theorem stealReply (thief : Nat) : Statement (.stealReply thief) := event rfl
theorem migrationPacket (p : Nat) : Statement (.migrationPacket p) := event rfl
theorem migrationResend (cid : Nat) (key : Nat) : Statement (.migrationResend cid key) := event rfl
theorem joinReread (cid : Nat) (key : Nat) : Statement (.joinReread cid key) := event rfl
theorem waitExpiry (cid : Nat) (key : Nat) : Statement (.waitExpiry cid key) := event rfl
theorem waitrsTimeout (cid : Nat) (key : Nat) : Statement (.waitrsTimeout cid key) := event rfl
theorem lateFaultDelivery (cid : Nat) (ctx : Nat) : Statement (.lateFaultDelivery cid ctx) := event rfl
theorem neighbourWordArrival (cid : Nat) (left : Bool) : Statement (.neighbourWordArrival cid left) := event rfl
theorem registerBankIdle (cid : Nat) (key : Nat) (bank : Nat) : Statement (.registerBankIdle cid key bank) := event rfl
theorem lmBankWakeComplete (pid : Nat) (bank : Nat) : Statement (.lmBankWakeComplete pid bank) := event rfl
theorem groomerVisit (pid : Nat) (off : Nat) (err : Nat) : Statement (.groomerVisit pid off err) := event rfl
theorem vectorInstructionStart (cid : Nat) : Statement (.vectorInstructionStart cid) := event rfl
theorem vectorRetirement (cid : Nat) : Statement (.vectorRetirement cid) := event rfl
theorem vectorLateFault (cid : Nat) : Statement (.vectorLateFault cid) := event rfl
theorem icacheFill (cid : Nat) (ctx : Nat) : Statement (.icacheFill cid ctx) := event rfl
theorem readRequest (p : Nat) : Statement (.readRequest p) := event rfl
theorem writeRequest (late : Bool) (k : Nat) : Statement (.writeRequest late k) := event rfl
theorem checkRequest (p : Nat) : Statement (.checkRequest p) := event rfl
theorem atomicRequest (p : Nat) : Statement (.atomicRequest p) := event rfl
theorem reply (p : Nat) : Statement (.reply p) := event rfl
theorem retryReply (p : Nat) : Statement (.retryReply p) := event rfl
theorem retryResend (p : Nat) : Statement (.retryResend p) := event rfl
theorem replySlotTimeout (cid : Nat) (slot : Nat) : Statement (.replySlotTimeout cid slot) := event rfl
theorem pageTableWalk (site : Nat) (va : Nat) : Statement (.pageTableWalk site va) := event rfl
theorem stashRecall (cid : Nat) (line : Nat) (write : Bool) : Statement (.stashRecall cid line write) := event rfl
theorem stashWriteBack (cid : Nat) (line : Nat) : Statement (.stashWriteBack cid line) := event rfl
theorem reservationRecallDeferral (cid : Nat) (line : Nat) : Statement (.reservationRecallDeferral cid line) := event rfl
theorem pendingByteDecrement (tile : Nat) (q : Nat) : Statement (.pendingByteDecrement tile q) := event rfl
theorem barwRegistrationRetry (cid : Nat) (key : Nat) : Statement (.barwRegistrationRetry cid key) := event rfl
theorem collectiveCombine (site : Nat) : Statement (.collectiveCombine site) := event rfl
theorem barrierCompletionMulticast (site : Nat) (loc : Nat) : Statement (.barrierCompletionMulticast site loc) := event rfl
theorem tlbiCompletion (site : Nat) : Statement (.tlbiCompletion site) := event rfl
theorem matrixCommandStart (tile : Nat) (slot : Nat) : Statement (.matrixCommandStart tile slot) := event rfl
theorem matrixStepGrant (tile : Nat) : Statement (.matrixStepGrant tile) := event rfl
theorem matrixStepEffect (tile : Nat) : Statement (.matrixStepEffect tile) := event rfl
theorem latchSwap (tile : Nat) (slot : Nat) : Statement (.latchSwap tile slot) := event rfl
theorem mxrotRendezvous (tile : Nat) (slot : Nat) : Statement (.mxrotRendezvous tile slot) := event rfl
theorem latchRotationSwap (tile : Nat) : Statement (.latchRotationSwap tile) := event rfl
theorem gangFormation (tile : Nat) (slot : Nat) : Statement (.gangFormation tile slot) := event rfl
theorem mxzeroCompletion (tile : Nat) (slot : Nat) : Statement (.mxzeroCompletion tile slot) := event rfl
theorem drainCompletion (tile : Nat) (slot : Nat) : Statement (.drainCompletion tile slot) := event rfl
theorem matrixLateFault (tile : Nat) (slot : Nat) : Statement (.matrixLateFault tile slot) := event rfl
theorem copyCommandStart (tile : Nat) (q : Nat) : Statement (.copyCommandStart tile q) := event rfl
theorem cpyxPinning (tile : Nat) (q : Nat) : Statement (.cpyxPinning tile q) := event rfl
theorem copyPiece (tile : Nat) (q : Nat) : Statement (.copyPiece tile q) := event rfl
theorem copyStall (tile : Nat) (q : Nat) : Statement (.copyStall tile q) := event rfl
theorem copyLateFault (tile : Nat) (q : Nat) : Statement (.copyLateFault tile q) := event rfl
theorem copyCommandCompletion (tile : Nat) (q : Nat) : Statement (.copyCommandCompletion tile q) := event rfl
theorem dtldTableChange (tile : Nat) (q : Nat) : Statement (.dtldTableChange tile q) := event rfl
theorem packetInjection (p : Nat) : Statement (.packetInjection p) := event rfl
theorem routerForward (p : Nat) : Statement (.routerForward p) := event rfl
theorem activeMessage (p : Nat) : Statement (.activeMessage p) := event rfl
theorem multicastCopy (p : Nat) : Statement (.multicastCopy p) := event rfl
theorem nack (p : Nat) : Statement (.nack p) := event rfl
theorem multicastResend (p : Nat) : Statement (.multicastResend p) := event rfl
theorem sendxLanding (p : Nat) : Statement (.sendxLanding p) := event rfl
theorem streamOpen (p : Nat) : Statement (.streamOpen p) := event rfl
theorem streamAttach (cid : Nat) (idx : Nat) : Statement (.streamAttach cid idx) := event rfl
theorem streamFlitSend (cid : Nat) (idx : Nat) : Statement (.streamFlitSend cid idx) := event rfl
theorem streamDataArrival (k : Nat) : Statement (.streamDataArrival k) := event rfl
theorem streamClose (k : Nat) : Statement (.streamClose k) := event rfl
theorem streamIdleBreak (cid : Nat) (idx : Nat) : Statement (.streamIdleBreak cid idx) := event rfl
theorem trapReport (site : Nat) : Statement (.trapReport site) := event rfl
theorem collectorDelivery (part : Nat) (collector : Nat) : Statement (.collectorDelivery part collector) := event rfl
theorem tamvexPacket (port : Nat) (w : WirePacket) : Statement (.tamvexPacket port w) := event rfl
theorem doorbell (at_ : BlockPort) (value : Nat) : Statement (.doorbell at_ value) := event rfl
theorem launchStart (part : Nat) : Statement (.launchStart part) := event rfl
theorem launchPacket (site : Nat) : Statement (.launchPacket site) := event rfl
theorem graphVerdict (part : Nat) : Statement (.graphVerdict part) := event rfl
theorem graphStart (site : Nat) : Statement (.graphStart site) := event rfl
theorem creditPartialSum (site : Nat) (node : Nat) : Statement (.creditPartialSum site node) := event rfl
theorem kernelTotal (part : Nat) (node : Nat) : Statement (.kernelTotal part node) := event rfl
theorem completionEvent (site : Nat) : Statement (.completionEvent site) := event rfl
theorem condDecision (part : Nat) (node : Nat) : Statement (.condDecision part node) := event rfl
theorem loopDecision (part : Nat) (node : Nat) : Statement (.loopDecision part node) := event rfl
theorem hostsigStore (part : Nat) (node : Nat) : Statement (.hostsigStore part node) := event rfl
theorem graphEnd (part : Nat) : Statement (.graphEnd part) := event rfl
theorem livenessEvent (site : Nat) : Statement (.livenessEvent site) := event rfl
theorem stopEvent (site : Nat) : Statement (.stopEvent site) := event rfl
theorem hqCancel (at_ : BlockPort) : Statement (.hqCancel at_) := event rfl
theorem pageNoticeResume (part : Nat) (all : Bool) (rsite : Nat) : Statement (.pageNoticeResume part all rsite) := event rfl
theorem pageNoticeCancel (part : Nat) (all : Bool) (rsite : Nat) : Statement (.pageNoticeCancel part all rsite) := event rfl
theorem pageNoticeArrival (part : Nat) (site : Nat) : Statement (.pageNoticeArrival part site) := event rfl
theorem swapOut (part : Nat) : Statement (.swapOut part) := event rfl
theorem swapIn (part : Nat) : Statement (.swapIn part) := event rfl
theorem swapExchange (part : Nat) (other : Nat) : Statement (.swapExchange part other) := event rfl
theorem quiescenceAgreement (part : Nat) : Statement (.quiescenceAgreement part) := event rfl
theorem swapSaveCompletion (part : Nat) : Statement (.swapSaveCompletion part) := event rfl
theorem swapRestoreCompletion (part : Nat) : Statement (.swapRestoreCompletion part) := event rfl
theorem pswapStRead (part : Nat) : Statement (.pswapStRead part) := event rfl
theorem retire (site : Nat) (value : Word) : Statement (.retire site value) := event rfl
theorem retirementCompletion (site : Nat) : Statement (.retirementCompletion site) := event rfl
theorem selfTestPass (pid : Nat) : Statement (.selfTestPass pid) := event rfl
theorem passExpiry (pid : Nat) : Statement (.passExpiry pid) := event rfl
theorem balloonRelease (site : Nat) : Statement (.balloonRelease site) := event rfl
theorem spillMove (site : Nat) : Statement (.spillMove site) := event rfl
theorem mcExposeWrite (site : Nat) : Statement (.mcExposeWrite site) := event rfl
theorem mcSpillRead (site : Nat) : Statement (.mcSpillRead site) := event rfl
theorem mcBtailWrite (site : Nat) (value : Word) : Statement (.mcBtailWrite site value) := event rfl
theorem mcBpoolWrite (site : Nat) (value : Word) : Statement (.mcBpoolWrite site value) := event rfl
theorem psaveWrite (site : Nat) (value : Word) : Statement (.psaveWrite site value) := event rfl
theorem lpctEntryWrite (site : Nat) (l : Nat) (value : Word) : Statement (.lpctEntryWrite site l value) := event rfl
theorem niTlbi (site : Nat) (value : Word) : Statement (.niTlbi site value) := event rfl
theorem cfgRegisterWrite (space : Nat) (idx : Nat) (off : Nat) (value : Word) : Statement (.cfgRegisterWrite space idx off value) := event rfl
theorem powerOn : Statement .powerOn := event rfl
theorem clockOffer (site : Nat) : Statement (.clockOffer site) := event rfl
theorem siteStateAdvance (site : Nat) (ok : Bool) (step : Nat) : Statement (.siteStateAdvance site ok step) := event rfl
theorem mcFirmwareBoot (mc : Nat) (image : FwImage) (sigOk : Bool) : Statement (.mcFirmwareBoot mc image sigOk) := event rfl
theorem hostCxlMemAccess (port : Nat) (o : Nat) (n : Nat) (write : Bool) (value : Nat) : Statement (.hostCxlMemAccess port o n write value) := event rfl
theorem tokenLinkEnable (sig : Bool) (key : Nat) (body : BitVec 512) (port : Nat) : Statement (.tokenLinkEnable sig key body port) := event rfl
theorem tokenPartitionKey (sig : Bool) (key : Nat) (body : BitVec 512) (part : Nat) (pk : BitVec 32) : Statement (.tokenPartitionKey sig key body part pk) := event rfl
theorem tokenReadmit (sig : Bool) (key : Nat) (body : BitVec 512) (site : Nat) (idx : Nat) (rcnt : Nat) : Statement (.tokenReadmit sig key body site idx rcnt) := event rfl
theorem tokenClearCoreStop (sig : Bool) (key : Nat) (body : BitVec 512) (site : Nat) (l : Nat) : Statement (.tokenClearCoreStop sig key body site l) := event rfl
theorem tokenSetRetired (sig : Bool) (key : Nat) (body : BitVec 512) (site : Nat) : Statement (.tokenSetRetired sig key body site) := event rfl
theorem tokenMcExpose (sig : Bool) (key : Nat) (body : BitVec 512) (site : Nat) (fact : Nat) : Statement (.tokenMcExpose sig key body site fact) := event rfl
theorem powerClamp : Statement .powerClamp := event rfl
theorem partitionCreation (part : Nat) (sites : List Nat) : Statement (.partitionCreation part sites) := event rfl
theorem partitionReshape (part : Nat) (sites : List Nat) : Statement (.partitionReshape part sites) := event rfl
theorem tamvexLinkTraining (port : Nat) (up : Bool) : Statement (.tamvexLinkTraining port up) := event rfl
theorem pcieLinkTraining (port : Nat) (cxl : Bool) : Statement (.pcieLinkTraining port cxl) := event rfl
theorem powerClampRelease : Statement .powerClampRelease := event rfl
theorem powerLoss : Statement .powerLoss := event rfl
theorem selfTestStart (pid : Nat) : Statement (.selfTestStart pid) := event rfl
theorem matrixDrainSegment (tile : Nat) (slot : Nat) : Statement (.matrixDrainSegment tile slot) := event rfl
theorem streamCredit (k : Nat) : Statement (.streamCredit k) := event rfl

end Encoding
end Sys2Proof.Laws
end

