-- ==== Sys2Proof/Laws/Run.lean ====
section
/-!
SUPPORT. Bodies of instructions run one operation at a time: what each shared operation of Operands, Flags and Exec answers, as
rewriting rules whose proofs the kernel checks at the rule and nowhere else.
-/
namespace Sys2Proof.Machine

variable {α β : Type}

/-- An operation that answers hands its value and its state on. -/
theorem Run.bind_ok {x : Run α} {f : α → Run β} {s t : State} {a : α} (h : x s = .ok (a, t)) : (x >>= f) s = f a t := by
  show StateT.bind x f s = _
  rw [StateT.bind, h]; rfl

/-- An operation that stops ends the body. -/
theorem Run.bind_error {x : Run α} {f : α → Run β} {s : State} {e : Stop} (h : x s = .error e) : (x >>= f) s = .error e := by
  show StateT.bind x f s = _
  rw [StateT.bind, h]; rfl

@[simp] theorem Run.pure_run (a : α) (s : State) : (pure a : Run α) s = .ok (a, s) := Eq.trans rfl rfl
@[simp] theorem Run.get_bind (f : State → Run β) (s : State) : ((get : Run State) >>= f) s = f s s := Run.bind_ok rfl
@[simp] theorem Run.pure_bind' (a : α) (f : α → Run β) (s : State) : ((pure a : Run α) >>= f) s = f a s := Run.bind_ok rfl
@[simp] theorem Run.modify_bind (g : State → State) (f : PUnit → Run β) (s : State) :
    ((modify g : Run PUnit) >>= f) s = f ⟨⟩ (g s) := Run.bind_ok rfl
@[simp] theorem Run.set_bind (t : State) (f : PUnit → Run β) (s : State) : ((set t : Run PUnit) >>= f) s = f ⟨⟩ t := Run.bind_ok rfl
@[simp] theorem Run.onM_bind (g : Module → Module) (f : Unit → Run β) (s : State) :
    (Run.onM g >>= f) s = f () { s with m := g s.m } := Run.bind_ok rfl
@[simp] theorem Run.onCore_bind (g : Core → Core) (f : Unit → Run β) (s : State) :
    (Run.onCore g >>= f) s = f () { s with m := s.m.onCore s.cid g } := Run.bind_ok rfl
@[simp] theorem Run.onWin_bind (g : Win → Win) (f : Unit → Run β) (s : State) :
    (Run.onWin g >>= f) s = f () (s.setWin (g s.win)) := Run.bind_ok rfl
@[simp] theorem Run.onCtl_bind (g : Ctl → Ctl) (f : Unit → Run β) (s : State) :
    (Run.onCtl g >>= f) s = f () (s.setWin { s.win with ctl := g s.win.ctl }) := Run.bind_ok rfl
@[simp] theorem Run.stopIf_false (c : Cause) (a : Nat) (f : Unit → Run β) (s : State) :
    (Run.stopIf false c a >>= f) s = f () s := Run.bind_ok rfl
@[simp] theorem Run.stopIf_true (c : Cause) (a : Nat) (f : Unit → Run β) (s : State) :
    (Run.stopIf true c a >>= f) s = .error (.fault { cause := c, addr := BitVec.ofNat 64 a }) := Run.bind_error rfl
@[simp] theorem Run.stallIf_false (f : Unit → Run β) (s : State) : (Run.stallIf false >>= f) s = f () s := Run.bind_ok rfl
@[simp] theorem Run.stallIf_true (f : Unit → Run β) (s : State) : (Run.stallIf true >>= f) s = .error .stall := Run.bind_error rfl
@[simp] theorem Run.raise_run (c : Cause) (a : Nat) (s : State) :
    (Run.raise c a : Run α) s = .error (.fault { cause := c, addr := BitVec.ofNat 64 a }) := Eq.trans rfl rfl
@[simp] theorem Run.stall_run (s : State) : (Run.stall : Run α) s = .error .stall := Eq.trans rfl rfl
@[simp] theorem Run.onM_run (g : Module → Module) (s : State) : Run.onM g s = .ok ((), { s with m := g s.m }) := Eq.trans rfl rfl
@[simp] theorem Run.onCtl_run (g : Ctl → Ctl) (s : State) :
    Run.onCtl g s = .ok ((), s.setWin { s.win with ctl := g s.win.ctl }) := Eq.trans rfl rfl

/-- An operation on the module inside a body. -/
theorem Run.lift_ok {x : MM α} {f : α → Run β} {s : State} {a : α} {m : Module} (h : x s.m = .ok (a, m)) :
    (Run.lift x >>= f) s = f a { s with m := m } := by
  refine Run.bind_ok ?_
  rw [Run.lift, h]
theorem Run.lift_error {x : MM α} {f : α → Run β} {s : State} {e : Stop} (h : x s.m = .error e) :
    (Run.lift x >>= f) s = .error e := by
  refine Run.bind_error ?_
  rw [Run.lift, h]

end Sys2Proof.Machine
end

