-- ==== Sys2Proof/Tests/Slice0.lean ====
section
/-!
SUPPORT. Tests of the model's own: ill-formed terms that `wf` refuses, words that the spec's encodings give, single steps, and for
every statement a state and operands that meet its hypotheses together.
-/
namespace Sys2Proof.Tests
set_option Elab.async false
open Sys2Proof Sys2Proof.Machine Sys2Proof.Claims

/-! ## Helpers -/

/-- Core 0 of a one-site partition in supervisor mode at LM 0x1_0002, its line holding NOP alone. -/
def base : State := State.reset.withFetchWord 16 0xFCA4
/-- A state with the focused activation's window changed. -/
def atWin (s : State) (f : Win → Win) : State := s.setWin (f s.win)
def atCtl (s : State) (f : Ctl → Ctl) : State := atWin s fun w => { w with ctl := f w.ctl }
/-- A state with its module changed. -/
def atM (s : State) (f : Module → Module) : State := { s with m := f s.m }
def atCore (s : State) (f : Core → Core) : State := atM s fun m => m.onCore s.cid f
/-- General register k holds v. -/
def atG (s : State) (k v : Nat) : State := atWin s fun w => { w with g := Tab.put w.g k (BitVec.ofNat 64 v) }
/-- The same in user mode. -/
def user : State := atCtl base fun c => { c with sw := 0#64 }
/-- Bytes at an LM offset of core 0. -/
def withLm (s : State) (off : Nat) (b : List Byte) : State :=
  atM s fun m => { m with mem := Mem.write m.mem (m.lmAt 0 off) b }
/-- What a step or an instruction answers, looked at where it goes on. -/
def nextWith (o : Host.Outcome State Fault Refusal) (p : State → Bool) : Bool :=
  match o with
  | .next s => p s
  | _ => false
/-- The cause that the oldest entry of core 0's supervisor queue records. -/
def trapCause (s : State) : Nat := (s.m.supEntry 0 0).cause
def answers {α : Type} (x : Except Stop α) : Bool := match x with
  | .ok _ => true
  | .error _ => false

theorem ok_of {α β : Type} {x : Except Stop (α × β)} (h : answers x = true) : ∃ a m, x = .ok (a, m) := by
  cases x with
  | ok r => exact ⟨r.1, r.2, rfl⟩
  | error e => cases h

/-- Site 0, its translation enabled, with a leaf for the first 64 KB of its SEG window in its buffer, and g4 there. -/
def mapped (leaf : Word) : State :=
  atG (atM base fun m => m.onSite 0 fun x => { x with ptroot := 1#64, tlb := [⟨2 ^ 54 / 65536, false, leaf⟩] }) 4 (2 ^ 54)

theorem test_base_running : base.Running := ⟨by decide, by decide, by decide, by decide, by decide⟩
theorem test_user_running : user.Running := ⟨by decide, by decide, by decide, by decide, by decide⟩

/-! ## Witnesses: decoding, steps -/

/-- The line of the base state in the buffer. -/
def lineOfBase : List Byte := base.m.lmRead 0 0x10000 64
def buffered (s : State) (b : List Byte) : State :=
  atCore s fun c => c.onCtx 0 fun x => { x with line := some ⟨0x10000, b, 0⟩ }

theorem test_base_ready : Ready base 0 := ⟨by decide, by decide, by decide, fun _ => by decide⟩
theorem test_buffered_ready : Ready (buffered base lineOfBase) 0 := ⟨by decide, by decide, by decide, fun _ => by decide⟩
/-- The rotation gives the turn to the only context that dispatches; one that waits on nothing stands in its way no longer. -/
theorem test_witness_moving : moving base = base ∧ moving (buffered base lineOfBase) = buffered base lineOfBase :=
  ⟨by decide, by decide⟩
theorem test_witness_rotation : base.ctx < 4 ∧ turnsBehind base 0 < turnsBehind base 1 := by decide
theorem test_witness_encode : ∃ i c, Instr.wf i = true ∧ encode i = some c := ⟨.endAct, ⟨0x90A4#16, 0#64⟩, by decide, by decide⟩
theorem test_witness_decode : ∃ c i, decode c = some i := ⟨⟨0x90A4#16, 0#64⟩, .endAct, by decide⟩
theorem test_witness_reserved : ∃ c m, codeAt 0 0 base.win.ctl.pc true
      (buffered base (oneLine (tableCode 16 0xFFFF))).m = .ok (c, m) ∧ decode c = none := ⟨_, _, rfl, by decide⟩
theorem test_witness_step_buffered : (buffered base lineOfBase).agenda = [] ∧
    ((buffered base lineOfBase).core.ctx 0).line = some ⟨base.win.ctl.pc.toNat / 64 * 64, lineOfBase, 0⟩ ∧
    addrBad lineOfBase base.win.ctl.pc = none ∧ (decodeAt lineOfBase (slotOfPc base.win.ctl.pc)).isSome = true := by decide
theorem test_witness_step_fetched : base.agenda = [] ∧ (base.core.ctx base.ctx).line = none ∧
    base.win.ctl.pc.toNat / 64 * 64 < 2 ^ 19 ∧ base.super = true ∧ (base.m.phy (base.m.pid base.cid)).bank 2 = 0 ∧
    bit (base.m.phy (base.m.pid base.cid)).failed 2 = false ∧ base.m.badNow (base.m.lmAt base.cid 0x10000) 64 = false ∧
    addrBad (base.m.lmRead base.cid 0x10000 64) base.win.ctl.pc = none ∧
    (decodeAt (base.m.lmRead base.cid 0x10000 64) (slotOfPc base.win.ctl.pc)).isSome = true := by decide
/-- A line whose HC is 0 is malformed; slot 2 of the base line, slot 0 and an odd address name no instruction; a reserved head
is none. -/
theorem test_witness_bad_address :
    lineOk (List.replicate 64 0#8) = false ∧ lineOk lineOfBase = true ∧ lineHc lineOfBase < slotOfPc 0x10004#64 ∧
    slotOfPc 0x10000#64 = 0 ∧ bit 0x10003#64 0 = true ∧
    addrBad (oneLine (tableCode 16 0xFFFF)) 0x10002#64 = none ∧ decodeAt (oneLine (tableCode 16 0xFFFF)) 1 = none := by decide
theorem test_witness_agenda : (∃ s : State, s.open_ = none ∧ s.agenda = [.event (.powerOn)] ∧ encode Instr.powerOn = none) ∧
    ∀ x ∈ [Move.run 0 0, .elapse 3, .upset (.word 0) true, .bankFails 0 2 3, .hostStore 64 [1#8], .ownerKey 5#256], ∃ s : State, s.open_ = none ∧ s.agenda = [x] :=
  ⟨⟨{ base with agenda := [.event .powerOn] }, by decide, by decide, by decide⟩,
    fun x _ => ⟨{ base with agenda := [x] }, rfl, rfl⟩⟩
theorem test_witness_idle : ∃ s : State, s.open_ = none ∧ s.agenda = [] ∧ (s.core.ctx s.ctx).act = none :=
  ⟨State.reset, by decide, by decide, by decide⟩
theorem test_witness_groups : ∃ s t : State, s.GroupOk ∧ step s = .next t := by
  refine ⟨State.reset, _, ?_, rfl⟩
  intro g h; cases h

/-! ## Ill-formed terms: one for each check of WellFormed -/

theorem test_wf_half : (Instr.divReg ⟨1#6, 2#6, 3#6, false, false, true⟩).wf = false ∧
    (Instr.maxULongImm ⟨1#6, 2#6, false, true, 0#48⟩).wf = false := by decide
theorem test_wf_field : (Instr.extr ⟨1#6, 2#6, false, 60#6, 4#6⟩).wf = false ∧
    (Instr.insr ⟨1#6, 2#6, 3#6, false, false, 1#6, 63#6⟩).wf = false := by decide
theorem test_wf_load : (Instr.ldDisp ⟨1#6, 2#6, false, 3#2, true, 0#16⟩).wf = false := by decide
theorem test_wf_scope : (Instr.fence ⟨0#2, 9#4⟩).wf = false ∧ (Instr.bara ⟨1#6, 2#6, 3#6, false, false, 7#4⟩).wf = false := by decide
theorem test_wf_atomics : (Instr.atom ⟨1#6, 2#6, 3#6, 41#6, false, false, false, true, 10#4, false, 5#4⟩).wf = false ∧
    (Instr.atom ⟨1#6, 2#6, 3#6, 4#6, false, false, false, true, 0#4, false, 5#4⟩).wf = false ∧
    (Instr.red ⟨1#6, false, 2#6, false, true, 8#4, true, 5#4⟩).wf = false ∧
    (Instr.redx ⟨1#6, false, 2#6, false, 3#2, 5#4⟩).wf = false ∧
    (Instr.xread ⟨1#6, 2#6, false, 5#3, 9#4, 5#4⟩).wf = false ∧ (Instr.xread ⟨1#6, 2#6, false, 0#3, 10#4, 5#4⟩).wf = false := by decide
theorem test_wf_spawn : (Instr.spawn ⟨1#6, 2#6, 3#6, false, false, 5#3⟩).wf = false := by decide
theorem test_wf_messages : (Instr.send ⟨1#6, 2#6, false, false, 0#9, false⟩).wf = false ∧
    (Instr.send ⟨1#6, 2#6, false, false, 12#9, false⟩).wf = false ∧ (Instr.mcast ⟨1#6, 2#6, false, false, 264#9, false⟩).wf = false ∧
    (Instr.sendx ⟨1#6, 2#6, false, false, 8#9, false, 2#3, 0#23⟩).wf = false ∧
    (Instr.sendx ⟨1#6, 2#6, false, false, 8#9, false, 7#3, 0#23⟩).wf = false := by decide
theorem test_wf_engines : (Instr.mxrot ⟨1#6, ⟨0#8, 0#12, 0#8, 0#8⟩, 3#2⟩).wf = false ∧
    (Instr.cpy ⟨1#6, ⟨0#8, 0#12, 0#8, 0#8⟩, 2#6, false, 3#6, false, 4#6, false, false, 3#2⟩).wf = false ∧
    (Instr.gath ⟨1#6, ⟨0#8, 0#12, 0#8, 0#8⟩, 2#6, false, 3#6, false, 4#6, false, true, 0#2⟩).wf = false ∧
    (Instr.dtld ⟨1#6, ⟨0#8, 0#12, 0#8, 0#8⟩, 2#6, false, 3#6, false, 3#2⟩).wf = false := by decide
theorem test_wf_float : (Instr.fadd ⟨1#6, 2#6, 3#6, false, false, 7#4, 0#3⟩).wf = false ∧
    (Instr.fma ⟨1#6, 2#6, 3#6, 4#6, false, false, false, 9#4, 6#3⟩).wf = false ∧
    (Instr.fmin ⟨1#6, 2#6, 3#6, false, false, 9#4, 1#3⟩).wf = false ∧ (Instr.fcmp ⟨1#6, 2#6, 3#6, false, false, 9#4, 5#3⟩).wf = false ∧
    (Instr.fcvt ⟨1#6, 2#6, false, 15#4, 0#3, false, 9#4⟩).wf = false ∧ (Instr.fcvt ⟨1#6, 2#6, false, 9#4, 0#3, false, 15#4⟩).wf = false := by decide
/-- A compute form with the registers v1, v2 and, where used, v3 and v4. -/
def vecOf (ty rm d : Nat) (c m : Opnd) (sat zero : Bool) : VecF :=
  ⟨1#6, 2#6, false, c, false, BitVec.ofNat 6 d, false, m, false, BitVec.ofNat 4 ty, BitVec.ofNat 3 rm, sat, zero⟩
theorem test_wf_vector : (Instr.vadd (vecOf 12 0 41 3#6 41#6 false false)).wf = false ∧
    (Instr.vadd (vecOf 0 1 41 3#6 41#6 false false)).wf = false ∧ (Instr.vmul (vecOf 0 0 4 3#6 41#6 false false)).wf = false ∧
    (Instr.vfma (vecOf 9 5 4 3#6 41#6 false false)).wf = false ∧ (Instr.vmin (vecOf 9 0 41 3#6 41#6 true false)).wf = false ∧
    (Instr.vabs (vecOf 4 0 41 41#6 41#6 false false)).wf = false ∧ (Instr.vneg (vecOf 9 0 41 3#6 41#6 false false)).wf = false ∧
    (Instr.vand (vecOf 2 1 41 3#6 41#6 false false)).wf = false ∧ (Instr.vshl (vecOf 9 0 41 3#6 41#6 false false)).wf = false ∧
    (Instr.vcmp (vecOf 2 3 41 3#6 41#6 false false)).wf = false ∧ (Instr.vcmp (vecOf 9 0 41 3#6 41#6 false true)).wf = false ∧
    (Instr.vsel (vecOf 2 0 4 3#6 41#6 true false)).wf = false ∧ (Instr.vcvt (vecOf 9 0 15 41#6 41#6 false false)).wf = false ∧
    (Instr.vcvt (vecOf 14 0 9 41#6 5#6 false false)).wf = false ∧ (Instr.vdot (vecOf 2 0 4 3#6 41#6 false false)).wf = false ∧
    (Instr.vred (vecOf 9 0 3 41#6 41#6 false false)).wf = false ∧ (Instr.vred (vecOf 2 0 0 41#6 41#6 false true)).wf = false ∧
    (Instr.vperm (vecOf 2 0 41 3#6 41#6 true false)).wf = false := by decide
theorem test_wf_vector_memory : (Instr.vld ⟨1#6, false, 2#6, false, 3#6, false, 0#32, 9#4, 41#6, false⟩).wf = false ∧
    (Instr.vld ⟨1#6, true, 2#6, false, 41#6, false, 0#32, 9#4, 41#6, false⟩).wf = false ∧
    (Instr.vst ⟨1#6, false, 2#6, false, 41#6, false, 0#32, 14#4, 5#6, false⟩).wf = false ∧
    (Instr.vlds ⟨1#6, false, 2#6, false, 3#6, false, 0#32, 14#4, 41#6, false⟩).wf = false ∧
    (Instr.vsts ⟨1#6, false, 2#6, false, 3#6, false, 0#32, 15#4, 41#6, false⟩).wf = false ∧
    (Instr.vgath ⟨1#6, false, 2#6, false, 3#6, false, 0#32, 0#4, 41#6, false⟩).wf = false := by decide
theorem test_wf_vector_moves : (Instr.vmov ⟨1#6, 2#6, false, 41#6, false, 0#6, 9#4⟩).wf = false ∧
    (Instr.vbc ⟨1#6, 2#6, false, 41#6, false, 1#6, 9#4⟩).wf = false ∧ (Instr.vext ⟨1#6, 2#6, false, 41#6, false, 16#6, 9#4⟩).wf = false ∧
    (Instr.vins ⟨1#6, 2#6, false, 3#6, false, 8#6, 3#4⟩).wf = false := by decide

/-! ## Words written out from the encodings of the spec (R97–R100, R107, R108, R125–R131, R511) -/

theorem test_words_1 :
    decode ⟨0x121D#16, 0x00081E91#64⟩ = some (.subShortImm ⟨7#6, 7#6, false, true, 8#16⟩)
    ∧ decode ⟨0x2610#16, 0x00030428#64⟩ = some (.csel ⟨4#6, 1#6, 2#6, 3#6, true, false, false, false⟩)
    ∧ decode ⟨0x2A0C#16, 0x03C81290#64⟩ = some (.extr ⟨3#6, 4#6, false, 8#6, 15#6⟩)
    ∧ decode ⟨0x190C#16, 0x1051#64⟩ = some (.maxReg ⟨3#6, 4#6, 5#6, false, false, false⟩)
    ∧ decode ⟨0x0508#16, 0x0C42#64⟩ = some (.mulhUReg ⟨2#6, 3#6, 4#6, false, false, false⟩)
    ∧ decode ⟨0x160C#16, 0x00081293#64⟩ = some (.rotImm ⟨3#6, 4#6, false, false, 8#6⟩) := by decide
theorem test_words_2 :
    decode ⟨0x210D#16, 0x1052#64⟩ = some (.setReg ⟨3#6, 4#6, 5#6, false, false, .ltu⟩)
    ∧ decode ⟨0x220C#16, 0xFFFF1290#64⟩ = some (.setShortImm ⟨3#6, 4#6, false, .eq, 65535#16⟩)
    ∧ decode ⟨0x3A24#16, 0xFFFFA691#64⟩ = some (.ldiUShort ⟨9#6, false, 65535#16⟩)
    ∧ decode ⟨0x827D#16, 0x0021A690#64⟩ = some (.callShort ⟨31#6, 1#5, 1#11⟩)
    ∧ decode ⟨0x90A4#16, 0x0#64⟩ = some (.endAct)
    ∧ decode ⟨0x58A5#16, 0x0#64⟩ = some (.fbar) := by decide
theorem test_words_3 :
    decode ⟨0x89A4#16, 0x7E9A#64⟩ = some (.ret ⟨31#6, true⟩)
    ∧ decode ⟨0xF212#16, 0x0013A691#64⟩ = some (.csrw ⟨4#6, true, 19#12⟩)
    ∧ decode ⟨0xDA10#16, 0x47091460#64⟩ = some (.fma ⟨4#6, 5#6, 6#6, 7#6, false, false, true, 9#4, 0#3⟩)
    ∧ decode ⟨0xDE0C#16, 0x0C891291#64⟩ = some (.fcvt ⟨3#6, 4#6, false, 9#4, 0#3, true, 12#4⟩)
    ∧ decode ⟨0x59A4#16, 0x0830#64⟩ = some (.icinv ⟨2#6, 3#6, false, false⟩)
    ∧ decode ⟨0x7911#16, 0x0E98#64⟩ = some (.jwait ⟨4#6, 3#6, true, true⟩) := by decide
theorem test_words_4 :
    decode ⟨0x4181#16, 0x0835#64⟩ = some (.ldIndex ⟨32#6, 2#6, 3#6, false, true, 1#2, true⟩)
    ∧ decode ⟨0x4A14#16, 0x00000A91#64⟩ = some (.ldrsDisp ⟨5#6, 2#6, false, true, 0#16⟩)
    ∧ decode ⟨0x491C#16, 0x0867#64⟩ = some (.stc ⟨7#6, 2#6, 6#6, false, true, true⟩)
    ∧ decode ⟨0x460E#16, 0x00081A93#64⟩ = some (.stDisp ⟨3#6, true, 6#6, false, 3#2, 8#16⟩)
    ∧ decode ⟨0xCF09#16, 0x0024429000000000#64⟩ = some (.dtld ⟨2#6, ⟨0#8, 0#12, 0#8, 0#8⟩, 8#6, false, 9#6, false, 0#2⟩)
    ∧ decode ⟨0xBB0C#16, 0x013274D010700000#64⟩ = some (.mxdrn ⟨3#6, ⟨0#8, 0#12, 7#8, 1#8⟩, 13#6, true, 14#6, true, 12#6, true⟩) := by decide
theorem test_words_5 :
    decode ⟨0xB708#16, 0x00A458A010700403#64⟩ = some (.mxmma ⟨2#6, ⟨3#8, 4#12, 7#8, 1#8⟩, 10#6, false, 11#6, false⟩)
    ∧ decode ⟨0x660E#16, 0xA4B52293#64⟩ = some (.red ⟨3#6, true, 8#6, false, true, 5#4, true, 5#4⟩)
    ∧ decode ⟨0x6A18#16, 0x02C82693#64⟩ = some (.xread ⟨6#6, 9#6, false, 0#3, 9#4, 5#4⟩)
    ∧ decode ⟨0xA6A4#16, 0x02401060#64⟩ = some (.mcast ⟨4#6, 6#6, false, false, 64#9, true⟩)
    ∧ decode ⟨0xA2A4#16, 0x0040106C#64⟩ = some (.send ⟨4#6, 6#6, true, true, 64#9, false⟩)
    ∧ decode ⟨0x8EA4#16, 0x00010E91#64⟩ = some (.skip ⟨3#6, 41#6, false, false, .ne, 1#2⟩) := by decide
theorem test_words_6 :
    decode ⟨0x9608#16, 0x00001C50#64⟩ = some (.spawn ⟨2#6, 7#6, 5#6, false, false, 0#3⟩)
    ∧ decode ⟨0xF6A4#16, 0x0010A691#64⟩ = some (.svc ⟨16#16⟩)
    ∧ decode ⟨0xE704#16, 0x0299000000801290#64⟩ = some (.vld ⟨1#6, false, 4#6, false, 41#6, false, 128#32, 9#4, 41#6, false⟩)
    ∧ decode ⟨0xEA14#16, 0x02430692#64⟩ = some (.vext ⟨5#6, 1#6, false, 41#6, false, 3#6, 9#4⟩)
    ∧ decode ⟨0x622C#16, 0xA4A070AF#64⟩ = some (.atom ⟨11#6, 28#6, 10#6, 41#6, true, true, false, true, 0#4, false, 5#4⟩)
    ∧ decode ⟨0x9DA4#16, 0x0A90#64⟩ = some (.migr ⟨2#6, false⟩) := by decide
theorem test_words_7 :
    decode ⟨0x9914#16, 0x1A90#64⟩ = some (.join ⟨5#6, 6#6, false⟩)
    ∧ decode ⟨0x76A4#16, 0x0007A455#64⟩ = some (.sems ⟨5#6, true, 7#8⟩)
    ∧ decode ⟨0xAA10#16, 0x00010E92#64⟩ = some (.sbind ⟨4#6, 3#6, 41#6, false, false, 1#2⟩)
    ∧ decode ⟨0xAD10#16, 0x1461#64⟩ = some (.hqry ⟨4#6, 5#6, 6#6, false, false⟩)
    ∧ decode ⟨0x6D18#16, 0xA690#64⟩ = some (.waitrs ⟨6#6, 41#6, false⟩) := by decide

/-! ## Witnesses: operands, integers, floats -/

/-- Every register dead. -/
def dead : State := atCtl base fun c => { c with liveg := 0#32 }
/-- An open group with one entry in each queue, and a word in the left link's buffer. -/
def queued : State :=
  let s := atCore base fun c => { c with ports := { c.ports with nbl := [7#64] } }
  { s with open_ := some ⟨s.m, [(0, 5#64)], [(0, 6#64)], 1, 0, none⟩ }

theorem test_witness_operands : PlainCode 3#6 ∧
    [(⟨4#6, true, .exec⟩ : Src), ⟨41#6, false, .addr⟩].map (fun o => plainValue base.win o.code) = [0#64, 0#64].map some := by unfold PlainCode; decide
theorem test_witness_operand_faults :
    42 ≤ (42#6 : Opnd).toNat ∧ 42 ≤ (63#6 : Opnd).toNat ∧ ¬ PlainCode 32#6 ∧ (∀ x ∈ [(⟨4#6, false, .exec⟩ : Src)], PlainCode x.code) ∧
    dead.win.live (4#6 : Opnd).toNat = false := by unfold PlainCode; decide
theorem test_witness_integer_fault : ∃ (r : Row) (f : FInfo), intRow (.addReg ⟨1#6, 2#6, 3#6, false, false, false⟩) = some r ∧
    dead.Running ∧ operands r.srcs (some r.dst) dead.begun = .error (.fault f) :=
  ⟨_, _, rfl, ⟨by decide, by decide, by decide, by decide, by decide⟩, rfl⟩
theorem test_witness_queues : ∃ g, queued.open_ = some g ∧ g.ld = [(0, 5#64)] ∧ g.sd = [(0, 6#64)] ∧
    queued.core.ports.nbl = [7#64] := ⟨_, rfl, rfl, rfl, rfl⟩
theorem test_witness_link : (queued.m.core (rightOf queued.cid)).ports.nbl.length
    + (queued.m.core (rightOf queued.cid)).ports.flyL.length < 4 := by decide
/-- A word in either link buffer, and one in each; onward buffers with room and with none. -/
def linked (l r : List Word) : State := atCore base fun c => { c with ports := { c.ports with nbl := l, nbr := r } }
/-- Both neighbours' buffers full. -/
def jammed : State :=
  atM (linked [7#64] [8#64]) fun m =>
    (m.onCore (rightOf 0) fun c => { c with ports := { c.ports with nbl := [1#64, 2#64, 3#64], flyL := [4#64] } }).onCore (leftOf 0)
      fun c => { c with ports := { c.ports with nbr := [1#64, 2#64, 3#64, 4#64] } }
theorem test_witness_links :
    linkWords true base.core.ports = [] ∧ linkWords false base.core.ports = [] ∧
    linkWords true (linked [7#64] [8#64]).core.ports = [7#64] ∧ linkWords false (linked [7#64] [8#64]).core.ports = [8#64] ∧
    (∀ b ∈ [true, false], onward (popped (linked [7#64] [8#64]) b []) b < 4 ∧ 4 ≤ onward (popped jammed b []) b) ∧
    ∀ b ∈ [true, false], onward base b < 4 ∧ 4 ≤ onward jammed b := by decide
theorem test_witness_integer : ∃ r s1 s2 l, arithRow (.addReg ⟨1#6, 2#6, 41#6, true, false, false⟩) = some r ∧ base.Running ∧
    operands r.srcs (some r.dst) base.begun = .ok (l, s1) ∧ writeDst r.dst.2 (r.val l) s1 = .ok ((), s2) :=
  ⟨_, _, _, _, rfl, test_base_running, rfl, rfl⟩
theorem test_witness_logic : ∃ r s1 s2 l, logicRow (.rotImm ⟨1#6, 2#6, true, false, 63#6⟩) = some r ∧
    operands r.srcs (some r.dst) base.begun = .ok (l, s1) ∧ writeDst r.dst.2 (r.val l) s1 = .ok ((), s2) :=
  ⟨_, _, _, _, rfl, rfl, rfl⟩
theorem test_witness_moves : (∃ r s1 s2 l, countRow (.clz ⟨1#6, 2#6, true⟩) = some r ∧
      operands r.srcs (some r.dst) base.begun = .ok (l, s1) ∧ writeDst r.dst.2 (r.val l) s1 = .ok ((), s2)) ∧
    (∃ r s1 s2 l, (Instr.extrS ⟨1#6, 2#6, false, 0#6, 63#6⟩).wf = true ∧ moveRow (.extrS ⟨1#6, 2#6, false, 0#6, 63#6⟩) = some r ∧
      operands r.srcs (some r.dst) base.begun = .ok (l, s1) ∧ writeDst r.dst.2 (r.val l) s1 = .ok ((), s2)) :=
  ⟨⟨_, _, _, _, rfl, rfl, rfl⟩, ⟨_, _, _, _, by decide, rfl, rfl, rfl⟩⟩
theorem test_witness_integer_forms : ∃ r, (Instr.subReg ⟨5#6, 5#6, 6#6, true, true, false⟩).wf = true ∧
    intRow (.subReg ⟨5#6, 5#6, 6#6, true, true, false⟩) = some r ∧ user.Running ∧ user.open_ = none ∧ swSs user.sw = false ∧
    user.m.late = [] ∧ r.srcs.map (fun o => plainValue user.win o.code) = [0#64, 0#64].map some ∧ PlainCode r.dst.2 :=
  ⟨_, by decide, rfl, test_user_running, by decide, by decide, by decide, by decide, Or.inl (by decide)⟩
/-- 1.0 + 1.0 under RNE, and a maximum. -/
theorem test_witness_float : (∃ r s1 s3 l, fpRow (.fadd ⟨1#6, 2#6, 3#6, false, false, 9#4, 0#3⟩) = some r ∧ base.Running ∧
      operands r.srcs (some (.exec, r.a)) base.begun = .ok (l, s1) ∧
      writeDst r.a (r.out (r.val (taken s1 r.rm).1 (taken s1 r.rm).2.1 l).1)
        (withSw (taken s1 r.rm).2.2 fun w => swOr w (r.val (taken s1 r.rm).1 (taken s1 r.rm).2.1 l).2) = .ok ((), s3)) ∧
    (∃ r s1 s2 l, fpPickRow (.fmax ⟨1#6, 2#6, 3#6, false, false, 9#4, 0#3⟩) = some r ∧
      operands r.srcs (some r.dst) base.begun = .ok (l, s1) ∧ writeDst r.dst.2 (r.val l) s1 = .ok ((), s2)) :=
  ⟨⟨_, _, _, _, rfl, test_base_running, rfl, rfl⟩, ⟨_, _, _, _, rfl, rfl, rfl⟩⟩

/-! ## Single steps, with results from the spec's worked examples or worked out from its equations -/

/-- General register 3 after an instruction in user mode with g4 = x and g5 = y. -/
def g3of (i : Instr) (x y : Nat) : Option Word :=
  match exec i (atG (atG user 4 x) 5 y) with
  | .next s => some (s.win.gr 3)
  | _ => none
def abc : Alu3 := ⟨3#6, 4#6, 5#6, true, true, false⟩
/-- R397: modulo 2^64. -/
theorem test_add_wraps : g3of (.addReg abc) (2 ^ 64 - 1) 2 = some 1#64 ∧ g3of (.subReg abc) 0 1 = some (-1#64) := by decide +kernel
/-- R448: (−1)·(−1) has high half 0, (2^64 − 1)² has 2^64 − 2. -/
theorem test_mulh_signs : g3of (.mulhReg abc) (2 ^ 64 - 1) (2 ^ 64 - 1) = some 0#64 ∧
    g3of (.mulhUReg abc) (2 ^ 64 - 1) (2 ^ 64 - 1) = some (-2#64) := by decide +kernel
/-- R414: toward zero; a divisor of 0. -/
theorem test_div_signs : g3of (.divReg abc) (2 ^ 64 - 7) 2 = some (-3#64) ∧ g3of (.remReg abc) (2 ^ 64 - 7) 2 = some (-1#64) := by decide +kernel
theorem test_div_zero : g3of (.divReg abc) 5 0 = some (-1#64) ∧ g3of (.remUReg abc) 5 0 = some 5#64 ∧
    g3of (.divReg abc) (2 ^ 63) (2 ^ 64 - 1) = some (BitVec.ofNat 64 (2 ^ 63)) := by decide +kernel
/-- R464, its example, and a count of 72. -/
theorem test_rot : g3of (.rotImm ⟨3#6, 4#6, true, false, 8#6⟩) 0x0123456789ABCDEF 0 = some 0x23456789ABCDEF01#64 ∧
    g3of (.rotReg abc) 0x0123456789ABCDEF 72 = some 0x23456789ABCDEF01#64 := by decide +kernel
/-- R405 and its examples. -/
theorem test_clz : g3of (.clz ⟨3#6, 4#6, true⟩) 0x10000 0 = some 47#64 ∧ g3of (.clz ⟨3#6, 4#6, true⟩) 0 0 = some 64#64 := by decide +kernel
theorem test_bswp : g3of (.bswp ⟨3#6, 4#6, true⟩) 0x10000 0 = some 0x10000000000#64 := by decide +kernel
/-- R422 and its examples. -/
theorem test_extr : g3of (.extr ⟨3#6, 4#6, true, 8#6, 15#6⟩) 0xABCD00 0 = some 0xABCD#64 ∧
    g3of (.extrS ⟨3#6, 4#6, true, 8#6, 15#6⟩) 0xABCD00 0 = some 0xFFFFFFFFFFFFABCD#64 := by decide +kernel
/-- R440 and its examples. -/
theorem test_ldi : g3of (.ldiUShort ⟨3#6, false, 0xFFFF#16⟩) 0 0 = some 0xFFFF#64 ∧
    g3of (.ldiShort ⟨3#6, false, 0xFFF0#16⟩) 0 0 = some 0xFFFFFFFFFFFFFFF0#64 := by decide +kernel
/-- R438, R479: a byte stored at LM 0x100 and read back with its sign; the next byte is as before. -/
theorem test_load_store : nextWith (exec (.stDisp ⟨4#6, true, 5#6, true, 0#2, 0#16⟩) (withLm (atG (atG user 4 0x1280) 5 0x100) 0x100 [1#8, 2#8]))
      (fun s => s.m.lmRead 0 0x100 2 == [0x80#8, 2#8]) = true ∧
    g3of (.ldDisp ⟨3#6, 5#6, true, 0#2, true, 0xFFF8#16⟩) 0 0x108 = some 0#64 ∧
    nextWith (exec (.ldDisp ⟨3#6, 5#6, true, 0#2, true, 0xFFF8#16⟩) (withLm (atG user 5 0x108) 0x100 [0x80#8]))
      (fun s => s.win.gr 3 == 0xFFFFFFFFFFFFFF80#64) = true := by decide +kernel
/-- f32 1.0 + 2.0 is 3.0; a comparison of f32 1.0 < 2.0 holds. -/
theorem test_float : g3of (.fadd ⟨3#6, 4#6, 5#6, true, true, 9#4, 0#3⟩) 0x3F800000 0x40000000 = some 0x40400000#64 ∧
    g3of (.fcmp ⟨3#6, 4#6, 5#6, true, true, 9#4, 1#3⟩) 0x3F800000 0x40000000 = some 1#64 := by decide +kernel
/-- R153: a wider integer target extends, with `.sat` too (s8 −1 to u16); a narrower one clamps (s16 −1 to u8). -/
theorem test_convert : (Num.convert 0 5 0 0 true 0xFF).1 = 0xFFFF ∧ (Num.convert 1 4 0 0 true 0xFFFF).1 = 0 ∧
    (Num.convert 1 4 0 0 false 0xFFFF).1 = 0xFF := by decide
/-- R81: a dead source raises DEADREG, a last use leaves its register dead. -/
theorem test_liveness : nextWith (exec (.addReg abc) (atCtl user fun c => { c with liveg := 0#32 })) (fun s => trapCause s == 6) = true ∧
    nextWith (exec (.addReg ⟨3#6, 4#6, 5#6, true, false, false⟩) user) (fun s => s.win.live 3 && (s.win.live 4 != s.win.live 5)) = true := by
  decide +kernel
/-- 1.0 < 2.0, and a NaN. -/
theorem test_witness_fcmp : ∃ l s1 s3, Instr.wf (.fcmp ⟨3#6, 4#6, 5#6, true, true, 9#4, 1#3⟩) = true ∧
    operands [⟨4#6, true, .exec⟩, ⟨5#6, true, .exec⟩] (some (.exec, 3#6)) (atG (atG user 4 0x3F800000) 5 0x40000000).begun = .ok (l, s1) ∧
    (Num.fmtOf 9).val (low 9#4 l 0) ≠ .nan ∧ (Num.fmtOf 9).val (low 9#4 l 1) ≠ .nan ∧
    writeDst 3#6 1#64 (withSw s1 fun _ => s1.win.ctl.sw) = .ok ((), s3) := ⟨_, _, _, by decide, rfl, by decide, by decide, rfl⟩
theorem test_witness_fcmp_nan : (Num.fmtOf 9).val (low 9#4 [0x7FC00000#64, 0#64] 0) = .nan := by decide

/-! ## Witnesses: memory -/

theorem test_witness_load : (∃ s1 s2 l bs m', operands [⟨4#6, false, .addr⟩, ⟨41#6, false, .addr⟩] (some (.load, 1#6)) base.begun = .ok (l, s1) ∧
      memLoad s1.cid s1.ctx (arg l 0 + arg l 1).toNat (2 ^ (3#2 : BitVec 2).toNat) s1.super s1.m = .ok (bs, m') ∧
      writeDst 1#6 (loaded 3#2 false bs) { s1 with m := m' } = .ok ((), s2)) ∧
    (∃ s1 s2 l bs m', operands [⟨41#6, false, .addr⟩] (some (.load, 32#6)) base.begun = .ok (l, s1) ∧
      memLoad s1.cid s1.ctx (arg l 0 + (63#16).signExtend 64).toNat (2 ^ (0#2 : BitVec 2).toNat) s1.super s1.m = .ok (bs, m') ∧
      writeDst 32#6 (loaded 0#2 true bs) { s1 with m := m' } = .ok ((), s2)) :=
  ⟨⟨_, _, _, _, _, rfl, rfl, rfl⟩, ⟨_, _, _, _, _, rfl, rfl, rfl⟩⟩
theorem test_witness_store : (∃ s1 l m', operands [⟨4#6, false, .addr⟩, ⟨41#6, false, .addr⟩, ⟨5#6, true, .data⟩] none base.begun = .ok (l, s1) ∧
      memStore s1.cid s1.ctx (arg l 0 + arg l 1).toNat (leBytes (2 ^ (3#2 : BitVec 2).toNat) (arg l 2).toNat) s1.super s1.m = .ok ((), m')) ∧
    (∃ s1 l m', operands [⟨41#6, false, .addr⟩, ⟨5#6, false, .data⟩] none base.begun = .ok (l, s1) ∧
      memStore s1.cid s1.ctx (arg l 0 + (64#16).signExtend 64).toNat (leBytes (2 ^ (0#2 : BitVec 2).toNat) (arg l 1).toNat) s1.super s1.m
        = .ok ((), m')) :=
  ⟨⟨_, _, _, rfl, rfl⟩, ⟨_, _, _, rfl, rfl⟩⟩
theorem test_witness_local (k : LmAcc) : LocalOk base 0x38 8 k := ⟨by decide, Or.inl (by decide), by decide, by decide, by decide⟩
theorem test_witness_local_user : LocalOk user 0x1003C 4 .read :=
  ⟨by decide, Or.inr (by decide), by decide, by decide, by decide⟩
theorem test_witness_local_words : base.m.badNow (base.m.lmAt 0 0x38) 8 = false ∧
    ({ base.m with quar := [0x3C] } : Module).badNow (base.m.lmAt 0 0x38) 8 = true := by decide
theorem test_witness_unwatched : Unwatched base.m (base.m.lmAt 0 0x38) 8 := ⟨by decide, by decide⟩
theorem test_witness_local_store : Mem.wf base.m.mem = true ∧ ((upFrom 0x38 8).all fun o => base.core.writable o == 0xFF) = true ∧
    meet 0x38 8 0x7F800 8 = false := by decide
theorem test_witness_crossing : 64 < 0x3D % 64 + 4 ∧ ¬ 64 < 0x3C % 64 + 4 := by decide
theorem test_witness_reserve : (∃ s1 s2 l v r m', operands [⟨4#6, false, .addr⟩, ⟨41#6, false, .addr⟩] (some (.reg, 1#6)) base.begun = .ok (l, s1) ∧
      ldrsAt s1.cid s1.ctx (arg l 0 + arg l 1).toNat 8 s1.super s1.m = .ok ((v, r), m') ∧
      writeDst 1#6 (BitVec.ofNat 64 v) (reserving { s1 with m := m' } (some r)) = .ok ((), s2)) ∧
    (∃ s1 s2 l v r m', operands [⟨4#6, false, .addr⟩] (some (.reg, 1#6)) base.begun = .ok (l, s1) ∧
      ldrsAt s1.cid s1.ctx (arg l 0 + (0#16).signExtend 64).toNat 4 s1.super s1.m = .ok ((v, r), m') ∧
      writeDst 1#6 (BitVec.ofNat 64 v) (reserving { s1 with m := m' } (some r)) = .ok ((), s2)) ∧
    (∃ s1 s2 l b m', operands [⟨4#6, false, .addr⟩, ⟨5#6, false, .addr⟩] (some (.reg, 1#6)) base.begun = .ok (l, s1) ∧
      stcAt s1.cid s1.ctx (arg l 0).toNat (leBytes 8 (arg l 1).toNat) s1.super (s1.core.ctx s1.ctx).resv s1.m = .ok (b, m') ∧
      writeDst 1#6 (if b then 0#64 else 1#64) (noted (reserving { s1 with m := m' } none)) = .ok ((), s2)) :=
  ⟨⟨_, _, _, _, _, _, rfl, rfl, rfl⟩, ⟨_, _, _, _, _, _, rfl, rfl, rfl⟩, ⟨_, _, _, _, _, rfl, rfl, rfl⟩⟩
/-- Without a reservation, and with one on another line. -/
theorem test_witness_unreserved : ∀ r ∈ [none, some (⟨0x40, false, 0, 0x40#64⟩ : Resv)], ∀ x, r = some x → x.line ≠ lineOf (base.m.lmAt 0 0x38) := by
  intro r hr x hx; simp at hr; rcases hr with rfl | rfl
  · cases hx
  · cases hx; decide
/-- Core 0 with bank 14 as its stash. -/
def stashed : State := atCore base fun c => { c with spec := { c.spec with stash := 0xE1#64 } }
theorem test_witness_lines : (∃ l s1, operands [⟨41#6, false, .addr⟩, ⟨41#6, false, .addr⟩] none base.begun = .ok (l, s1) ∧ s1.core.stashNb = 0 ∧
      inGroup (arg l 0).toNat (arg l 1).toNat = false ∧ inCfg (arg l 0).toNat (arg l 1).toNat = false ∧
      (s1.core.linesIn (arg l 0).toNat (arg l 1).toNat = [])) ∧
    (∃ l s1 m', operands [⟨41#6, false, .addr⟩, ⟨41#6, false, .addr⟩] none stashed.begun = .ok (l, s1) ∧ s1.core.stashNb ≠ 0 ∧
      smapFrom s1.cid s1.ctx s1.super (lineCount (arg l 0).toNat (arg l 1).toNat) ((arg l 0).toNat / 64 * 64) 0 s1.m = .ok ((), m')) ∧
    stashed.Running :=
  ⟨⟨_, _, rfl, by decide, by decide, by decide, by decide⟩, ⟨_, _, _, rfl, by decide, rfl⟩,
    ⟨by decide, by decide, by decide, by decide, by decide⟩⟩
/-- Group memory named by g4: SMAP raises PERM. -/
theorem test_witness_smap_group : ∃ l s1, operands [⟨4#6, false, .addr⟩, ⟨5#6, false, .addr⟩] none (atG (atG base 4 (2 ^ 33)) 5 64).begun = .ok (l, s1) ∧
    s1.core.stashNb = 0 ∧ (inGroup (arg l 0).toNat (arg l 1).toNat = true ∨ inCfg (arg l 0).toNat (arg l 1).toNat = true) :=
  ⟨_, _, rfl, by decide, by decide⟩
/-- A bank in FULL, and an OFF one that no descriptor protects. -/
theorem test_witness_banks : (base.m.phy (base.m.pid 0)).bank 15 = 0 ∧ base.m.bankHeld 0 3 = false ∧ (base.m.core 0).stashNb = 0 ∧
    ((atM base fun m => m.setPhy 0 ((m.phy 0).setBank 3 2)).m.phy (base.m.pid 0)).bank 3 = 2 ∧
    (atM base fun m => m.setPhy 0 ((m.phy 0).setBank 3 2)).m.bankHeld 0 3 = false := by decide
/-- A core whose activation has a line of an SFLUSH still to write back, where FBAR waits, and one that has none. -/
theorem test_witness_fbar : base.begun.m.unflushed base.cid base.aid = false ∧
    (atCore base fun c => { c with flushes := [(base.aid, 0x40, true)], stash := [(0x40, ⟨1, 0x40#64, 0, [], []⟩)] }).begun.m.unflushed base.cid base.aid = true := by decide

/-! ## Witnesses: synchronisation -/

theorem test_base_sleeps : MaySleep user := ⟨by decide, by decide, by decide⟩
theorem test_witness_fence : (user.groupNow.ld ++ user.groupNow.sd).isEmpty = true ∧
    user.begun.m.unflushed user.cid user.aid = false ∧ user.begun.m.unwritten user.cid user.aid = false ∧
    user.begun.m.unsent user.cid user.aid = false := by decide
theorem test_mapped_running : (mapped 0xBD#64).Running := ⟨by decide, by decide, by decide, by decide, by decide⟩
theorem test_witness_atomics : (∃ l s1 old m' s2, Reads base [⟨4#6, false, .addr⟩, ⟨5#6, false, .addr⟩, ⟨41#6, false, .addr⟩] (some (.load, 1#6)) l s1 ∧
      atomAt s1.cid s1.ctx (arg l 0).toNat 64 0 ((arg l 1).toNat % 2 ^ 64) ((arg l 2).toNat % 2 ^ 64) s1.super true s1.m = .ok (old, m') ∧
      writeDst 1#6 (BitVec.ofNat 64 old) (noted (numbered true (arg l 0).toNat { s1 with m := m' })) = .ok ((), s2)) ∧
    (∃ l s1 m', Reads base [⟨4#6, false, .addr⟩, ⟨5#6, false, .addr⟩] none l s1 ∧ OrdRoom true s1 ∧
      redAt s1.cid s1.ctx (arg l 0).toNat 32 7 ((arg l 1).toNat % 2 ^ 32) s1.super (some (s1.ordNum (arg l 0).toNat)) s1.m = .ok ((), m')) ∧
    (∃ l s1, Reads (mapped 0xBD#64) [⟨4#6, false, .addr⟩, ⟨5#6, false, .addr⟩] none l s1 ∧
      ∃ u m', redxAt s1.cid s1.ctx (arg l 0).toNat 0 ((arg l 1).toNat % 2 ^ (redxFmt 0).w) s1.super s1.m = .ok (u, m')) ∧
    (∃ l s1, Reads (mapped 0xBD#64) [⟨4#6, false, .addr⟩] (some (.reg, 1#6)) l s1 ∧
      ∃ cell m', xreadAt s1.cid s1.ctx (arg l 0).toNat s1.super s1.m = .ok (cell, m')) :=
  ⟨⟨_, _, _, _, _, ⟨test_base_running, rfl⟩, rfl, rfl⟩, ⟨_, _, _, ⟨test_base_running, rfl⟩, by unfold OrdRoom; decide, rfl⟩,
    ⟨_, _, ⟨test_mapped_running, rfl⟩, ok_of (by decide +kernel)⟩, ⟨_, _, ⟨test_mapped_running, rfl⟩, ok_of (by decide +kernel)⟩⟩
theorem test_witness_local_atomic : 0x38 % 8 = 0 ∧ base.m.badNow (base.m.lmAt 0 0x38) 8 = false ∧ meet 0x38 8 0x7F800 0x40 = false := by decide
/-- A barrier object at LM 0x100 of core 0: target 2, count 0. -/
def barred (phase : Bool) : State := withLm user 0x100 (leBytes 32 (barEncode 0 ⟨2, 0, 0, phase, true, 2⟩))
/-- The operands of a barrier instruction on LM 0x100 with an argument c. -/
def barArgs (s : State) (c : Nat) : State := atG (atG s 4 0x100) 5 c
theorem test_bar_running : (barArgs (barred false) 1).Running ∧ (barArgs user 1).Running :=
  ⟨⟨by decide, by decide, by decide, by decide, by decide⟩, ⟨by decide, by decide, by decide, by decide, by decide⟩⟩
/-- What a home answers where it performs a request. -/
def put {α : Type} (x : HomeRes α) : Bool := match x with
  | .ok _ _ => true
  | _ => false
/-- An object without V, and with counts 0, 1 and 2^24. -/
theorem test_witness_barrier_new : ∀ c ∈ [0, 1, 2 ^ 24], ∃ loc d cw va s1, barOperands ⟨1#6, 4#6, 5#6, false, false, 2#4⟩ (barArgs user c).begun = .ok ((loc, d, cw, va), s1) ∧
    (s1.m.bwait.any fun w => w.loc == loc) = false ∧ (s1.m.barObj loc).v = false ∧ s1.m.isNetBar loc = false ∧
    put (s1.m.barPut loc d (barEncode 0 ⟨bits cw 31 0, 0, 0, false, true, 2⟩)) = true ∧
    put ((s1.m.leaveComb (siteOf s1.cid) s1.cid s1.key).bara loc d (bits cw 31 0)) = true ∧ answers (writeDst 1#6 0#64 s1) = true := by
  intro c hc; simp only [List.mem_cons, List.not_mem_nil, or_false] at hc
  rcases hc with rfl | rfl | rfl <;> exact ⟨_, _, _, _, _, rfl, by decide, by decide, by decide, by decide, by decide, by decide⟩
/-- A valid object, with counts 0, 2^31 − 1 and 2^31, in the phase that BARW waits for and in the other. -/
theorem test_witness_barrier_valid : ∀ c ∈ [0, 2 ^ 31 - 1, 2 ^ 31], ∃ loc d cw va s1,
    barOperands ⟨1#6, 4#6, 5#6, false, false, 2#4⟩ (barArgs (barred false) c).begun = .ok ((loc, d, cw, va), s1) ∧
    (s1.m.barObj loc).v = true ∧ (s1.m.barObj loc).phase = false ∧
    put (s1.m.barChange loc d { s1.m.barObj loc with pend := ((s1.m.barObj loc).pend + bits cw 31 0) % 2 ^ 32 }) = true ∧
    put (s1.m.barPut loc d (barEncode (s1.m.barWord loc) { s1.m.barObj loc with v := false })) = true := by
  intro c hc; simp only [List.mem_cons, List.not_mem_nil, or_false] at hc
  rcases hc with rfl | rfl | rfl <;> exact ⟨_, _, _, _, _, rfl, by decide, by decide, by decide, by decide⟩
theorem test_witness_barrier_settled : Settled (barArgs (barred false) 1).begun ∧ MaySleep (barArgs (barred false) 1) ∧
    bit 0#64 0 = false ∧ bit 1#64 0 = true := ⟨by unfold Settled; decide, ⟨by decide, by decide, by decide⟩, by decide, by decide⟩
/-- The same object as a network barrier whose site has the answer 1 for this activation's arrival. -/
def netBarred : State :=
  atM (barArgs (barred false) 1) fun m => m.onSite 0 fun x => { x with bars := [0x100], comb := [⟨0x100, 1, 8, [(0, 0)], some 1⟩] }
theorem test_witness_network_barrier : ∃ loc d cw va s1 i b r, barOperands ⟨1#6, 4#6, 5#6, false, false, 2#4⟩ netBarred.begun = .ok ((loc, d, cw, va), s1) ∧
    netBarred.Running ∧ (s1.m.barObj loc).v = true ∧ 0 < bits cw 31 0 ∧ bits cw 31 0 < 2 ^ 24 ∧ s1.m.isNetBar loc = true ∧
    (s1.m.site (siteOf s1.cid)).joined loc s1.cid s1.key = some (i, b) ∧ b.res = some r ∧ netBarred.begun.m.unwritten 0 netBarred.aid = false :=
  ⟨_, _, _, _, _, 0, ⟨0x100, 1, 8, [(0, 0)], some 1⟩, 1, rfl, ⟨by decide, by decide, by decide, by decide, by decide⟩, by decide +kernel,
    by decide +kernel, by decide +kernel, by decide +kernel, by decide +kernel, rfl, by decide +kernel⟩
theorem mem_upFrom : ∀ n a o, a ≤ o → o < a + n → o ∈ upFrom a n
  | 0, a, o, h, k => absurd k (by omega)
  | n + 1, a, o, h, k => by
    rcases Nat.eq_or_lt_of_le h with rfl | h
    · exact List.mem_cons_self
    · exact List.mem_cons_of_mem _ (mem_upFrom n (a + 1) o h (by omega))
/-- Every byte of a field-free range of the LM of core 0 may be written. -/
theorem plain_lm (m : Module) (loc n : Nat) (h : ∀ p, m.lmOwner loc = some p →
    ((upFrom p.2 n).all fun o => (m.core p.1).writable o == 0xFF) = true ∧ meet p.2 n 0x7F800 0x40 = false) : PlainLm m loc n := by
  intro c off e
  refine ⟨fun o h1 h2 => ?_, (h _ e).2⟩
  have := List.all_eq_true.1 (h _ e).1 o (mem_upFrom n off o h1 h2)
  simpa using this
theorem test_witness_arrival : isLm 0x100 = true ∧ Mem.wf (barred true).m.mem = true ∧ ((barred true).m.barObj 0x100).v = true ∧
    Unwatched (barred true).m 0x100 32 ∧ (barred true).m.isNetBar 0x100 = false ∧ PlainLm (barred true).m 0x100 32 := by
  refine ⟨by decide, by decide, by decide, ⟨by decide, by decide⟩, by decide, plain_lm _ _ _ fun p e => ?_⟩
  obtain rfl : p = (0, 0x100) := Option.some.inj (e.symm.trans (by decide))
  decide
/-- The same object in DRAM, in reserved memory and in compressed memory. -/
def dramBar (resv : List (Nat × Nat)) : Module :=
  let m := base.m.onMc 0 fun c => { c with resv := resv }
  { m with mem := Mem.write m.mem (dramLoc 0 0x40) (leBytes 32 (barEncode 0 ⟨2, 0, 0, false, true, 2⟩)) }
def dramArrival (m : Module) : HomeRes Unit :=
  m.dramWrite (dramLoc 0 0x40) (leBytes 32 (barEncode (m.barWord (dramLoc 0 0x40)) (arrived (m.barObj (dramLoc 0 0x40)) 1))) true
theorem test_witness_dram_arrival : ∀ r ∈ [[(0, 0x10000)], []], isLm (dramLoc 0 0x40) = false ∧ dramLoc 0 0x40 % 32 = 0 ∧ Mem.wf (dramBar r).mem = true ∧
    ((dramBar r).barObj (dramLoc 0 0x40)).v = true ∧ (dramBar r).holders (lineOf (dramLoc 0 0x40)) = [] ∧
    Unwatched (dramBar r) (lineOf (dramLoc 0 0x40)) 64 ∧ (dramBar r).isNetBar (dramLoc 0 0x40) = false := by
  intro r hr; simp only [List.mem_cons, List.not_mem_nil, or_false] at hr
  rcases hr with rfl | rfl <;> exact ⟨by decide, by decide, by decide +kernel, by decide +kernel, by decide, ⟨by decide, by decide⟩, by decide⟩
theorem test_witness_dram_room : put (dramArrival (dramBar [(0, 0x10000)])) = true := by decide +kernel
/-- A network barrier: an arrival that its unit has not answered joins one that it is combining, or opens one. -/
def netOpen (combs : List Combine) : State :=
  atM (barArgs (barred false) 1) fun m => m.onSite 0 fun x => { x with bars := [0x100], comb := combs }
theorem test_witness_network_arrival : ∀ combs ∈ [[], [(⟨0x100, 1, 8, [(0, 0)], none⟩ : Combine)]], ∃ loc d cw va s1,
    barOperands ⟨1#6, 4#6, 5#6, false, false, 2#4⟩ (netOpen combs).begun = .ok ((loc, d, cw, va), s1) ∧ (netOpen combs).Running ∧
    (s1.m.site (siteOf s1.cid)).answered loc s1.cid s1.key = none ∧ (s1.m.barObj loc).v = true ∧ 0 < bits cw 31 0 ∧
    bits cw 31 0 < 2 ^ 24 ∧ s1.m.isNetBar loc = true ∧ ((s1.m.site (siteOf s1.cid)).joined loc s1.cid s1.key).isSome = !combs.isEmpty := by
  intro r hr; simp only [List.mem_cons, List.not_mem_nil, or_false] at hr
  rcases hr with rfl | rfl <;> exact ⟨_, _, _, _, _, rfl, ⟨by decide, by decide, by decide, by decide, by decide⟩, by decide +kernel,
    by decide +kernel, by decide +kernel, by decide +kernel, by decide +kernel, by decide +kernel⟩
/-- Core 1 meets an arrival that may be joined, and one that has its answer. -/
theorem test_witness_joinable : Joinable (netOpen [⟨0x100, 1, 8, [(0, 0)], none⟩]).m 0x100 ⟨0x100, 1, 8, [(0, 0)], none⟩ ∧
    ¬ Joinable (netOpen []).m 0x100 ⟨0x100, 1, 8, [(0, 0)], some 1⟩ ∧
    (∀ b ∈ ((netOpen [⟨0x100, 1, 8, [(0, 0)], none⟩]).m.site 0).comb, (1, 0) ∉ b.waiters) := by
  unfold Joinable; decide
/-- A completing and an uncompleting arrival of the unit. -/
theorem test_witness_unit_arrival : isLm 0x100 = true ∧ Mem.wf (netOpen []).m.mem = true ∧ ((netOpen []).m.barObj 0x100).v = true ∧
    (netOpen []).m.watched 0x100 32 = [] ∧ (netOpen []).m.isNetBar 0x100 = true ∧ PlainLm (netOpen []).m 0x100 32 ∧
    min (((netOpen []).m.barObj 0x100).count + 2) ((netOpen []).m.barObj 0x100).target = ((netOpen []).m.barObj 0x100).target ∧
    ((netOpen []).m.barObj 0x100).pend = 0 ∧
    min (((netOpen []).m.barObj 0x100).count + 1) ((netOpen []).m.barObj 0x100).target ≠ ((netOpen []).m.barObj 0x100).target := by
  refine ⟨by decide, by decide, by decide, by decide, by decide, plain_lm _ _ _ fun p e => ?_, by decide, by decide, by decide⟩
  obtain rfl : p = (0, 0x100) := Option.some.inj (e.symm.trans (by decide))
  decide
/-- A semaphore whose last operation was in an earlier cycle, and one changed in this cycle. -/
theorem test_witness_final : user.m.semFinal 0 255 = true ∧ (user.m.semPut 0 255 1#32 0).semFinal 0 255 = false ∧
    (user.m.semPut 0 255 1#32 1).semTurn 0 255 0 = false ∧ (user.m.semPut 0 255 1#32 1).semTurn 0 255 8 = true := by decide
theorem test_witness_semaphores : ∃ l s1, Reads user [⟨4#6, false, .addr⟩] none l s1 ∧ Settled user.begun ∧ MaySleep user ∧
    bits (arg l 0) 31 0 ≤ ((s1.m.tile (tileOf s1.cid)).sem 255).toNat ∧ s1.m.semTurn 0 255 0 = true ∧ s1.m.semTurn 0 255 8 = true :=

  ⟨_, _, ⟨test_user_running, rfl⟩, by unfold Settled; decide, test_base_sleeps, by decide, by decide, by decide⟩
theorem test_witness_semaphore_short : ∃ l s1, Reads (atG user 4 1) [⟨4#6, false, .addr⟩] none l s1 ∧
    ((s1.m.tile (tileOf s1.cid)).sem 255).toNat < bits (arg l 0) 31 0 :=
  ⟨_, _, ⟨⟨by decide, by decide, by decide, by decide, by decide⟩, rfl⟩, by decide⟩
/-- A job of the matrix unit in each state. -/
def withJob (st : JobSt) : State := atG (atCore user fun c => { c with jobMx := { c.jobMx with last := 7, st := Tab.put c.jobMx.st 7 st } }) 4 7
theorem test_witness_jobs : ∀ st ∈ [JobSt.queued, .running, .faulted], ∃ l s1, Reads (withJob st) [⟨4#6, false, .addr⟩] (some (.reg, 1#6)) l s1 ∧
    s1.core.jobMx.state (bits (arg l 0) 15 0) = st := by
  intro st h; simp only [List.mem_cons, List.not_mem_nil, or_false] at h
  rcases h with rfl | rfl | rfl <;> exact ⟨_, _, ⟨⟨by decide, by decide, by decide, by decide, by decide⟩, rfl⟩, by decide⟩
theorem test_witness_job_complete : (user.core.jobCp).state 0 = .complete := by decide
/-- WAIT, WAITRS and JOIN: a count of 0 and of 1; no reservation, one, and one with every monitor taken; a join word of 0 and 1. -/
def reservedAt (mons : Nat) : State :=
  atCore user fun c => { c.onCtx 0 fun x => { x with resv := some ⟨0x40, false, 0, 0x40#64⟩ } with mons := List.replicate mons ⟨0, 5⟩ }
theorem test_witness_waits : (∃ l s1, Reads user [⟨4#6, false, .addr⟩] (some (.reg, 1#6)) l s1 ∧ bits (arg l 0) 31 0 = 0 ∧
      (s1.core.ctx s1.ctx).resv = none ∧ ∃ v loc m', joinRead s1.cid s1.ctx (arg l 0).toNat s1.super s1.m = .ok ((v, loc), m') ∧ v.toInt ≤ 0) ∧
    (∃ l s1, Reads (atG user 4 1) [⟨4#6, false, .addr⟩] (some (.reg, 1#6)) l s1 ∧ 0 < bits (arg l 0) 31 0) ∧
    (∃ l s1, Reads (reservedAt 16) [⟨4#6, false, .addr⟩] (some (.reg, 1#6)) l s1 ∧ (s1.core.ctx s1.ctx).resv.isSome = true ∧
      16 ≤ s1.core.mons.length) ∧
    (∃ l s1, Reads (reservedAt 15) [⟨4#6, false, .addr⟩] (some (.reg, 1#6)) l s1 ∧ (s1.core.ctx s1.ctx).resv.isSome = true ∧
      s1.core.mons.length < 16) ∧
    (∃ l s1 v loc m', Reads (withLm user 0 [1#8]) [⟨4#6, false, .addr⟩] (some (.reg, 1#6)) l s1 ∧
      joinRead s1.cid s1.ctx (arg l 0).toNat s1.super s1.m = .ok ((v, loc), m') ∧ 0 < v.toInt) :=
  ⟨⟨_, _, ⟨test_user_running, rfl⟩, by decide, by decide, ⟨_, _, _, rfl, by decide⟩⟩,
    ⟨_, _, ⟨⟨by decide, by decide, by decide, by decide, by decide⟩, rfl⟩, by decide⟩,
    ⟨_, _, ⟨⟨by decide, by decide, by decide, by decide, by decide⟩, rfl⟩, by decide, by decide⟩,
    ⟨_, _, ⟨⟨by decide, by decide, by decide, by decide, by decide⟩, rfl⟩, by decide, by decide⟩,
    ⟨_, _, _, _, _, ⟨⟨by decide, by decide, by decide, by decide, by decide⟩, rfl⟩, rfl, by decide⟩⟩
theorem test_witness_suspension : user.act.st = .issuing user.ctx ∧ (user.core.ctx user.ctx).act = some user.key ∧
    user.act.win = some user.win ∧ user.m.flushBad user.cid user.act.wp user.win = none ∧ Mem.wf user.m.mem = true ∧
    user.act.wp % 64 = 0 := by decide

/-! ## Witnesses: control transfers, activations, messages -/

/-- The base line's own instruction as a target, and slot 5, which the line does not have. -/
def goodTarget : Word := targetOf base.win.ctl.pc 0 1
def badTarget : Word := targetOf base.win.ctl.pc 0 5
theorem test_witness_lands : ∃ u, Lands base.begun goodTarget u :=
  ⟨_, Or.inl ⟨_, _, rfl, by decide +kernel, rfl⟩⟩
/-- A target outside every window: its fetch faults there. -/
theorem test_witness_lands_outside : ∃ u, Lands base.begun 0x40000000000002#64 u :=
  ⟨_, Or.inr ⟨_, rfl, rfl⟩⟩
theorem test_witness_refused : Refused base.begun badTarget .badtgt ∧ PlainCode 4#6 :=
  ⟨⟨_, _, rfl, Or.inr ⟨rfl, by decide +kernel, Or.inr (Or.inr (by decide +kernel))⟩⟩, by unfold PlainCode; decide⟩
theorem test_witness_refused_callr : ∃ l s1, Reads (atG base 4 badTarget.toNat) [⟨4#6, true, .addr⟩] (some (.reg, 31#6)) l s1 ∧
    Refused (atG base 4 badTarget.toNat).begun (arg l 0) .badtgt :=
  ⟨_, _, ⟨⟨by decide, by decide, by decide, by decide, by decide⟩, rfl⟩, _, _, rfl, Or.inr ⟨rfl, by decide +kernel, Or.inr (Or.inr (by decide +kernel))⟩⟩
/-- BC whose condition holds, with the missing slot as its target. -/
theorem test_witness_refused_branch : ∃ l s1, Reads base [⟨4#6, true, .addr⟩, ⟨41#6, false, .addr⟩] none l s1 ∧
    condOf .eq (arg l 0) (arg l 1) = true ∧ Refused s1 badTarget .badtgt :=
  ⟨_, _, ⟨test_base_running, rfl⟩, by decide, _, _, rfl, Or.inr ⟨rfl, by decide +kernel, Or.inr (Or.inr (by decide +kernel))⟩⟩
/-- A handler whose record names the missing slot. -/
def badUret : State := atCtl base fun c => { c with sw := 3#64, waita := badTarget }
theorem test_witness_refused_uret : GoesBack badUret ∧ Refused badUret.begun badUret.win.ctl.waita .badtgt :=
  ⟨⟨⟨by decide, by decide, by decide, by decide, by decide⟩, by decide, by decide, by decide⟩,
    _, _, rfl, Or.inr ⟨rfl, by decide +kernel, Or.inr (Or.inr (by decide +kernel))⟩⟩
theorem test_witness_call : ∃ s1 u, Reads base [] (some (.reg, 31#6)) [] s1 ∧ CallsTo base s1 31#6 goodTarget u :=
  ⟨_, _, ⟨test_base_running, rfl⟩, _, Or.inl ⟨_, _, rfl, by decide +kernel⟩, Or.inl ⟨_, _, rfl, by decide +kernel⟩, rfl, Or.inl ⟨_, _, rfl, by decide +kernel, rfl⟩⟩
theorem test_witness_branch : ∃ l s1, Reads base [⟨4#6, true, .addr⟩, ⟨41#6, false, .addr⟩] none l s1 ∧
    condOf .eq (arg l 0) (arg l 1) = true ∧ condOf .ltu (arg l 0) (arg l 1) = false := ⟨_, _, ⟨test_base_running, rfl⟩, by decide, by decide⟩
/-- A line of three NOPs, in which SKIP of one stays; and the base line, which SKIP of one leaves from its only slot. -/
def lineOf3 : List Byte := leBytes 64 (3 + 0xFCA4 * (2 ^ 16 + 2 ^ 32 + 2 ^ 48))
theorem test_witness_skip_inside : lineOk lineOf3 = true ∧ slotOfPc 0x10002#64 + (0 + 1) + 1 ≤ lineHc lineOf3 ∧
    ¬ slotOfPc 0x10002#64 + (1 + 1) + 1 ≤ lineHc lineOf3 := by decide
theorem test_witness_skip : ∃ b t m', ((buffered base lineOfBase).core.ctx 0).line = some ⟨base.win.ctl.pc.toNat / 64 * 64, lineOfBase, 0⟩ ∧
    b = lineOfBase ∧ skipFrom 0 0 true b base.win.ctl.pc 0 (buffered base lineOfBase).m = .ok (t, m') := ⟨_, _, _, by decide +kernel, rfl, rfl⟩

/-- A join word of 1 at LM 0x80. -/
def joining : State := withLm (atCtl user fun c => { c with joina := 0x80#64 }) 0x80 [1#8]
theorem test_witness_end : ∃ m', joining.Running ∧ joining.key ≠ 64 ∧ joining.ldQ = [] ∧ joining.sdQ = [] ∧
    Settled joining.begun ∧ joining.begun.m.endJoin 0 joining.begun.win.ctl = some m' :=
  ⟨_, ⟨by decide, by decide, by decide, by decide, by decide⟩, by decide, by decide, by decide, by unfold Settled; decide, rfl⟩
theorem test_witness_yield : user.Running ∧ MaySleep user := ⟨test_user_running, test_base_sleeps⟩
theorem test_witness_spawn : (∃ l s1 s2, Reads user [⟨4#6, false, .addr⟩, ⟨41#6, false, .addr⟩] (some (.reg, 1#6)) l s1 ∧ bits (arg l 1) 2 0 = 0 ∧
      bit (arg l 1) 63 = false ∧ s1.core.desc.n < 64 ∧ s1.m.dqOk s1.cid = true ∧ s1.m.dqFree s1.cid = true ∧ Settled (readEight user s1) ∧
      writeDst 1#6 0#64 { readEight user s1 with m := (readEight user s1).m.dqPush 0 (spawned user s1 0#3 (arg l 0) (arg l 1)) } = .ok ((), s2)) ∧
    (∀ k, k < 8 → user.win.live k = true → user.win.bad.contains k = false) ∧
    64 ≤ ((atCore user fun c => { c with desc := { c.desc with n := 64 } }).core.desc).n :=
  ⟨⟨_, _, _, ⟨test_user_running, rfl⟩, by decide, by decide, by decide, by decide, by decide, by unfold Settled; decide, rfl⟩,
    by decide, by decide⟩
/-- Only g0–g9 live, and g4 an address of the own LM, or of core 1's, which is not vacant. -/
def mover (va : Nat) : State :=
  atM (atG (atCtl user fun c => { c with liveg := 0x3FF#32 }) 4 va) fun m =>
    m.onSite 0 fun x => { x with lpct := Tab.put x.lpct 1 ⟨1, true, 0⟩, vacant := x.vacant.filter (· ≠ 1) }
theorem test_witness_migr : (∃ l s1, Reads (mover 0x100) [⟨4#6, false, .addr⟩] none l s1 ∧ MaySleep (mover 0x100) ∧ s1.ldQ = [] ∧ s1.sdQ = [] ∧
      bits s1.win.ctl.liveg 31 10 = 0 ∧ s1.win.ctl.livev = 0#16 ∧ s1.m.ownerCore s1.cid (arg l 0).toNat = some s1.cid) ∧
    (∃ l s1 k, Reads (mover (2 ^ 32 + 2 ^ 19)) [⟨4#6, false, .addr⟩] none l s1 ∧ s1.m.ownerCore s1.cid (arg l 0).toNat = some 1 ∧
      Settled (counted s1) ∧ (counted s1).m.unsent s1.cid s1.aid = false ∧ (counted s1).m.freeReply s1.cid = some k ∧
      (leaving (mover (2 ^ 32 + 2 ^ 19)) (counted s1) 1 k (arg l 0)).flushBad s1.cid s1.act.wp (counted s1).win = none) :=
  ⟨⟨_, _, ⟨⟨by decide, by decide, by decide, by decide, by decide⟩, rfl⟩, ⟨by decide, by decide, by decide⟩, by decide, by decide, by decide,
    by decide, by decide +kernel⟩,
   ⟨_, _, _, ⟨⟨by decide, by decide, by decide, by decide, by decide⟩, rfl⟩, by decide +kernel, by unfold Settled; decide, by decide, rfl,
    by decide +kernel⟩⟩
theorem test_witness_release : (user.m.act 0 0).st = .issuing 0 ∧ bit (user.m.core 0).desc.held 0 = true := by decide
theorem test_witness_deque : Mem.wf base.m.mem = true ∧ (base.m.core 0).desc.n < 64 ∧ (base.m.core 0).desc.lifo < 64 ∧ base.m.dqOk 0 = true ∧
    base.m.bad (base.m.lmAt 0 (dqOff (base.m.core 0).desc.lifo)) 96 = false ∧
    Unwatched base.m (base.m.lmAt 0 (dqOff (base.m.core 0).desc.lifo)) 96 :=
  ⟨by decide, by decide, by decide, by decide, by decide, by decide, by decide⟩

/-! ## Witnesses: messages, handles, streams -/

/-- g4 holds the core's own handle, g5 an aligned LM offset. -/
def sending : State := atG (atG user 4 (user.m.selfHandle 0).toNat) 5 0x80
theorem test_sending_running : sending.Running := ⟨by decide, by decide, by decide, by decide, by decide⟩
theorem test_witness_payload : ∃ bs t, Payload sending 0x80#64 256 bs t := ⟨_, _, by decide, by decide, ⟨_, rfl, rfl⟩⟩
theorem test_witness_send : ∃ l s1 bs t k, Reads sending [⟨4#6, false, .addr⟩, ⟨5#6, false, .addr⟩] none l s1 ∧
    s1.m.handleOk (siteOf s1.cid) (arg l 0) = true ∧ Payload s1 (arg l 1) 8 bs t ∧ Settled t ∧
    t.m.freeReply t.cid = some k :=
  ⟨_, _, _, _, _, ⟨test_sending_running, rfl⟩, by decide +kernel, ⟨by decide, by decide, ⟨_, rfl, rfl⟩⟩, by unfold Settled; decide, rfl⟩
theorem test_witness_sendx : sendxOk 0 0 8 = true ∧ sendxOk 0 0 256 = true := by decide
/-- The set of core 0 of site 0. -/
theorem test_witness_mcast : mcastOk 0#64 = true ∧ user.m.mcastSet 0 0#64 ≠ [] ∧ user.core.ni.mrecs.length < 4 := by decide +kernel
theorem test_witness_send_refused : ∃ l s1, Reads (atG sending 4 0) [⟨4#6, false, .addr⟩, ⟨5#6, false, .addr⟩] none l s1 ∧
    (arg l 1).toNat % 8 = 0 ∧ s1.m.handleOk (siteOf s1.cid) (arg l 0) = false ∧ (0x81 : Nat) % 8 ≠ 0 :=
  ⟨_, _, ⟨⟨by decide, by decide, by decide, by decide, by decide⟩, rfl⟩, by decide, by decide +kernel, by decide⟩
theorem test_witness_handles : ∃ l s1 s2, Reads user [⟨4#6, false, .addr⟩, ⟨41#6, false, .addr⟩] (some (.reg, 1#6)) l s1 ∧ bits (arg l 1) 63 4 = 0 ∧
    writeDst 1#6 (s1.m.selfHandle s1.cid) s1 = .ok ((), s2) := ⟨_, _, _, ⟨test_user_running, rfl⟩, by decide, rfl⟩
/-- R434's example on one site: shape 3 is a torus of 8 × 8 with strides 1 and 128; i = 8, j = 0 names VCN 0, and i = −1 a VCN that is vacant there. -/
def shaped (i k : Nat) : State :=
  atG (atG (atM user fun m => m.onSite 0 fun x => { x with shapes := [(3, BitVec.ofNat 64 (3 + 2 ^ 15 + 8 * 2 ^ 32 + 8 * 2 ^ 48), BitVec.ofNat 64 (1 + 128 * 2 ^ 16))] })
    4 i) 5 k
theorem test_witness_shape : ∃ l s1 s2, Reads (shaped 8 3) [⟨4#6, false, .addr⟩, ⟨5#6, false, .addr⟩] (some (.reg, 1#6)) l s1 ∧
    bits (arg l 1) 63 4 = 0 ∧ ShapeGives s1 (arg l 1) (arg l 0) (mkHandle 0 0 1) ∧ writeDst 1#6 (mkHandle 0 0 1) s1 = .ok ((), s2) :=
  ⟨_, _, _, ⟨⟨by decide, by decide, by decide, by decide, by decide⟩, rfl⟩, by decide,
    ⟨fun h => absurd (by decide) h, fun _ _ => ⟨fun _ => by decide, fun h => absurd (by decide) h⟩, fun _ h => absurd (Or.inr (by decide)) h,
      fun _ h => absurd (Or.inr (by decide)) h⟩, rfl⟩
theorem test_shape : nextWith (exec (.hqry ⟨1#6, 4#6, 5#6, false, false⟩) (shaped 8 3)) (fun t => t.win.gr 1 == mkHandle 0 0 1) = true ∧
    nextWith (exec (.hqry ⟨1#6, 4#6, 5#6, false, false⟩) (shaped 0xFFFFFFFF 3)) (fun t => t.win.gr 1 == 0#64) = true ∧
    nextWith (exec (.hqry ⟨1#6, 4#6, 5#6, false, false⟩) (shaped 8 0x13)) (fun t => trapCause t == 4) = true := by decide +kernel
theorem test_witness_check : bits (mkHandle 1 2 3 ^^^ 0x1000000000000#64) 47 0 = bits (mkHandle 1 2 3) 47 0 ∧
    bits (mkHandle 1 2 3 ^^^ 0x1000000000000#64) 63 48 ≠ bits (mkHandle 1 2 3) 63 48 := by decide
/-- Stream words: send port 0, send port 3, and receive port 2. -/
theorem test_witness_stream_words : StreamWord sending 0#64 0 false ∧ StreamWord sending 3#64 3 false ∧ StreamWord sending 6#64 2 true :=
  ⟨⟨by decide, by decide, by decide, by decide⟩, ⟨by decide, by decide, by decide, by decide⟩, ⟨by decide, by decide, by decide, by decide⟩⟩
/-- The activation with a send port in state r, bound or closing, and a receive port. -/
def ported (r : Nat) (closing : Bool) : State :=
  atCore sending fun c =>
    { c with ports := { c.ports with send := [{ aid := sending.aid, dcid := 0, n := 1, last := 0, route := r, closing := closing }],
                                     recv := [(1, { aid := sending.aid, from_ := none, last := 0 })] } }
theorem test_witness_ports : sending.core.boundTo sending.aid 1 = false ∧ (ported 2 false).core.boundTo sending.aid 1 = true ∧
    (Tab.find (ported 2 false).core.ports.recv 1).isSome = true ∧ Tab.find sending.core.ports.recv 1 = none ∧
    ((Tab.find (ported 2 false).core.ports.recv 1).any (·.aid == sending.aid)) = true ∧
    (((ported 2 false).core.ports.send.any fun p => p.aid == sending.aid && !p.closing)) = true ∧
    (((ported 2 true).core.ports.send.any fun p => p.aid == sending.aid && !p.closing)) = false ∧
    ((sending.core.ports.send.filter fun p => !p.closing).length < 4) ∧
    sending.m.coreOfVcn 0 (bits (sending.m.selfHandle 0) 15 0) = some 0 ∧
    bits (sending.m.selfHandle 0) 31 16 = sending.m.modnum.toNat ∧
    (((ported 3 false).core.ports.send.find? fun p => p.aid == sending.aid && !p.closing).map (·.route)) = some 3 := by decide +kernel
/-- Four ports of other activations. -/
theorem test_witness_ports_full : 4 ≤ ((List.replicate 4 ({ aid := 9, dcid := 0, n := 1, last := 0 } : SPort)).filter fun p => !p.closing).length := by
  decide
/-- A copy of 64 bytes inside the own LM, job 1 of the core, that waits in the core's queue. -/
def copyCmd : CpCmd := { op := .cpy, p := 0x100#64, q := 0x200#64, h := 64#64, d := { len := 64 }, by_ := { cid := 0, job := 1, super := true } }
def copying : State :=
  atCore (atM user fun m => m.onTile 0 fun x => { x with cpq := Tab.put x.cpq 0 [copyCmd] }) fun c =>
    { c with jobCp := { c.jobCp with last := 1, st := Tab.put c.jobCp.st 1 .queued } }
/-- SBIND to a job that the core does not have is refused; to the job above, for its piece 0 and its last, it is not. -/
theorem test_witness_sbind : (user.m.bindRefusal 0 user.aid 1 0 0#64).isSome = true ∧
    copying.m.bindRefusal 0 copying.aid 1 1 0#64 = none ∧ copying.m.bindRefusal 0 copying.aid 1 1 7#64 = none ∧
    copying.m.bindRefusal 0 copying.aid 1 1 8#64 = some 1 := by decide +kernel

/-! ## Witnesses: engine commands -/

/-- g4 and g5 with two words of a descriptor, g6 with the own handle. -/
def with2 (p q : Nat) : State := atG (atG (atG user 4 p) 5 q) 6 (user.m.selfHandle 0).toNat
def sigNone : EngSig := ⟨0#8, 0#12, 0#8, 0#8⟩
/-- MXLD of a source at LM 0 of pitch 8, K = 8, NB = 1, type 0; MXMMA and MXZERO of block (0,0), 1 × 1; MXDRN of it to LM 0x8000. -/
def latchWord : Nat := 8 * 2 ^ 4 + 2 ^ 15
def regionWord : Nat := 2 ^ 3 + 2 ^ 10
def drainP : Nat := 0x8000 + 32 * 4 * 2 ^ 19
def drainQ : Nat := regionWord + 9 * 2 ^ 14 + 2 * 2 ^ 24
theorem test_witness_matrix_words : SourceOk (BitVec.ofNat 64 (8 * 2 ^ 24)) ∧ LatchOk (BitVec.ofNat 64 latchWord) ∧
    ControlOk (BitVec.ofNat 64 regionWord) ∧ RegionOk (BitVec.ofNat 64 regionWord) ∧ ¬ SourceOk 1#64 ∧ ¬ RegionOk 0#64 := by
  unfold SourceOk LatchOk ControlOk RegionOk TypeOk
  refine ⟨by decide, by decide, by decide, by decide, by decide, by decide⟩
theorem test_witness_drain : DrainOk (BitVec.ofNat 64 drainP) (BitVec.ofNat 64 drainQ) ∧ ¬ DrainOk 0#64 0#64 := by
  unfold DrainOk RegionOk
  refine ⟨⟨by decide, by decide, by decide, by decide, by decide, by decide, by decide, by decide, by decide, ?_, by decide, by decide⟩,
    fun h => absurd h.1 (by decide)⟩
  rw [if_neg (by decide)]; decide
/-- The push of each command from its operands: the queue has room, the ring entry is free, every write is accepted. -/
theorem test_witness_matrix_push : ∀ i ∈ [Instr.mxrot ⟨1#6, sigNone, 2#2⟩, .mxgang ⟨1#6, sigNone, 3#2⟩], ∃ r t b u, matrixRow i = some r ∧
    Reads user r.srcs (some (.reg, r.dst)) [] t ∧ (Tab.get [] (t.m.tile (tileOf t.cid)).mxq (slotOf t.cid)).length < 16 ∧
    PushesFrom i false r.sig r.dst (r.rm []) user t b u := by
  intro i h; simp only [List.mem_cons, List.not_mem_nil, or_false] at h
  rcases h with rfl | rfl <;>
    exact ⟨_, _, _, _, rfl, ⟨test_user_running, rfl⟩, by decide +kernel, by unfold Settled; decide +kernel, _, _, rfl, rfl, rfl⟩
theorem test_matrix_queue : nextWith (exec (.mxld ⟨1#6, sigNone, 4#6, false, 5#6, false⟩) (with2 (8 * 2 ^ 24) latchWord)) (fun t =>
      (Tab.get [] (t.m.tile 0).mxq 0).map (fun c => (c.op, c.p, c.by_.job)) == [(.ld, BitVec.ofNat 64 (8 * 2 ^ 24), 1)] && t.win.gr 1 == 1#64) = true ∧
    nextWith (exec (.mxmma ⟨1#6, sigNone, 4#6, false, 5#6, false⟩) (with2 (8 * 2 ^ 24) regionWord)) (fun t =>
      (Tab.get [] (t.m.tile 0).mxq 0).map (·.op) == [.mma]) = true ∧
    nextWith (exec (.mxdrn ⟨1#6, sigNone, 4#6, false, 5#6, false, 6#6, false⟩) (with2 drainP drainQ)) (fun t =>
      (Tab.get [] (t.m.tile 0).mxq 0).map (·.op) == [.drn]) = true ∧
    nextWith (exec (.mxzero ⟨1#6, sigNone, 5#6, false⟩) (with2 0 regionWord)) (fun t =>
      (Tab.get [] (t.m.tile 0).mxq 0).map (·.op) == [.zero]) = true := by decide +kernel
theorem test_matrix_refused : nextWith (exec (.mxld ⟨1#6, sigNone, 4#6, false, 5#6, false⟩) (with2 1 latchWord)) (fun t =>
      t.m.act 0 0 |>.st |> (· == .faulted)) = true ∧
    nextWith (exec (.mxzero ⟨1#6, sigNone, 5#6, false⟩) (with2 0 0)) (fun t => trapCause t == Cause.illop.code) = true := by decide +kernel
theorem test_witness_status : ∃ t u, Reads user [] (some (.reg, 1#6)) [] t ∧
    (let n := t.m.dueSteps (tileOf t.cid) (t.m.tile (tileOf t.cid)).steps.length
     writeDst 1#6 (statusWord (withZeroed (n.tile (tileOf t.cid)) n.time) (slotOf t.cid)) { t with m := n } = .ok ((), u)) :=
  ⟨_, _, ⟨test_user_running, rfl⟩, rfl⟩
/-- CPY of 64 bytes from LM 0x100 to LM 0x200 with its length in H; the same from a descriptor at LM 0x400. -/
def copyShort (q : Nat) : State := atG (with2 0x100 0x200) 6 q
def copyLong : State := withLm (copyShort 0x400) 0x400 (leBytes 64 (64 + 2 ^ 32 + 2 ^ 48 + 2 * 2 ^ 384))
theorem test_witness_copy : QueueOk (copyShort 64) 0#2 ∧ bits 64#64 63 32 = 0 ∧
    CpCmd.groupOk { op := .cpy, p := 0x100#64, q := 0x200#64, h := 64#64, d := { len := 64 } } = true ∧
    (0x400 : Nat) % 64 = 0 ∧ 0x400 < 2 ^ 19 ∧
    (match lmLoad 0 0 0x400 64 false 0x400 copyLong.m with
     | .ok (bs, m) => Module.descOk m { op := .cpy, p := 0x100#64, q := 0x200#64, h := 0x400#64, d := CpDesc.decode (leNat bs)
                                        by_ := { cid := 0, super := false } } (leNat bs)
     | .error _ => false) = true := ⟨⟨Or.inl rfl, by decide⟩, by decide, by decide, by decide, by decide, by decide +kernel⟩
theorem test_witness_copy_push : ∃ l t b u, Reads (copyShort 64) [⟨4#6, false, .addr⟩, ⟨5#6, false, .addr⟩, ⟨6#6, false, .addr⟩] (some (.reg, 1#6)) l t ∧
    PushesFrom (.cpy ⟨1#6, sigNone, 4#6, false, 5#6, false, 6#6, false, false, 0#2⟩) true sigNone 1#6 none (copyShort 64) t b u :=
  ⟨_, _, _, _, ⟨⟨by decide, by decide, by decide, by decide, by decide⟩, rfl⟩, by unfold Settled; decide +kernel, _, _, rfl, rfl, rfl⟩
theorem test_copy_queue : nextWith (exec (.cpy ⟨1#6, sigNone, 4#6, false, 5#6, false, 6#6, false, false, 0#2⟩) (copyShort 64)) (fun t =>
      (Tab.get [] (t.m.tile 0).cpq 0).map (fun c => (c.op, c.d.len, c.by_.job)) == [(.cpy, 64, 1)]) = true ∧
    nextWith (exec (.cpy ⟨1#6, sigNone, 4#6, false, 5#6, false, 6#6, false, true, 0#2⟩) copyLong) (fun t =>
      (Tab.get [] (t.m.tile 0).cpq 0).map (fun c => (c.op, c.d.len, c.by_.job)) == [(.cpy, 64, 1)]) = true ∧
    nextWith (exec (.dtld ⟨1#6, sigNone, 5#6, false, 6#6, false, 0#2⟩) (copyShort 16)) (fun t =>
      (Tab.get [] (t.m.tile 0).cpq 0).map (fun c => (c.op, c.d.len)) == [(.dtld, 1)]) = true := by decide +kernel
/-- Flags that an MXZERO of this cycle cleared, still read by MXSTAT, and those of an earlier cycle, gone. -/
theorem test_zeroed_flags : Tab.get 0 (withZeroed { zeroAt := some (5, [(3, 6)]) } 5).aflags 3 = 6 ∧
    Tab.get 0 (withZeroed { zeroAt := some (5, [(3, 6)]) } 6).aflags 3 = 0 := by decide

/-! ## Witnesses: vector instructions -/

/-- VE set, v1 and v2 live, g4 and g5 live. -/
def vecUser : State := atG (atG (atCtl user fun c => { c with sw := 8#64, livev := 0xFFFF#16 }) 4 0x100) 5 7
def vf (ty : Nat) (sat : Bool) : VecF := ⟨3#6, 1#6, false, 2#6, false, 1#6, false, 41#6, false, BitVec.ofNat 4 ty, 0#3, sat, false⟩
def vm : VMemF := ⟨3#6, false, 4#6, false, 41#6, false, 0#32, 2#4, 41#6, false⟩
def vv : VMovF := ⟨3#6, 1#6, false, 5#6, false, 0#6, 2#4⟩
def rolesOk (u : VUse) : Bool :=
  (u.srcs.all fun x => if x.vec then decide (x.code.toNat < 16) else decide (x.code.toNat < 32 ∨ x.code.toNat = 41)) &&
    (match u.dst with
      | some p => if p.1 then decide (p.2.toNat < 16) else decide (p.2.toNat < 32 ∨ p.2.toNat = 41)
      | none => true)
theorem roles_of {u : VUse} (h : rolesOk u = true) : RolesOk u := by
  obtain ⟨h1, h2⟩ := Bool.and_eq_true_iff.1 h
  refine ⟨fun x hx => ?_, fun p hp => ?_⟩
  · have := List.all_eq_true.1 h1 x hx
    unfold KindOk; split <;> simp_all
  · simp only [hp] at h2
    unfold KindOk; split <;> simp_all
theorem test_vec_running : vecUser.Running := ⟨by decide, by decide, by decide, by decide, by decide⟩
/-- The commit of a compute, a load, a store and a move form. -/
theorem test_witness_vector : ∀ i ∈ [Instr.vadd (vf 2 false), .vcmp (vf 2 false), .vcvt (vf 8 false), .vld vm, .vst { vm with a := 1#6 }, .vmov vv,
      .vbc { vv with b := 4#6 }, .vext { vv with a := 6#6 }, .vins vv],
    ∃ u n m, vectorRow i = some u ∧ bit vecUser.sw 3 = true ∧ RolesOk u ∧ AllLive vecUser u ∧ Sound vecUser u ∧
      (ticked vecUser.begun u).m.cprPush vecUser.cid vecUser.ctx (((encode i).map (·.head)).getD 0) 0 vecUser.win.ctl.pc vecUser.begun.win.ctl =
        some (n, m) := by
  intro i h; simp only [List.mem_cons, List.not_mem_nil, or_false] at h
  rcases h with rfl | rfl | rfl | rfl | rfl | rfl | rfl | rfl | rfl <;>
    exact ⟨_, _, _, rfl, by decide, roles_of (by decide), by unfold AllLive; decide, by unfold Sound; decide, rfl⟩
/-- VE = 0; a field of the wrong kind; a dead register. -/
theorem test_witness_vector_refuses : ∃ u, vectorRow (.vadd (vf 2 false)) = some u ∧ bit user.sw 3 = false ∧
    RolesOk u ∧ ¬ AllLive (atCtl vecUser fun c => { c with livev := 0#16 }) u :=
  ⟨_, rfl, by decide, roles_of (by decide), by unfold AllLive; decide⟩
theorem test_witness_vector_kind : ∃ u, vectorRow (.vadd { vf 2 false with b := 16#6 }) = some u ∧ bit vecUser.sw 3 = true ∧ ¬ RolesOk u :=
  ⟨_, rfl, by decide, fun h => absurd (h.1 ⟨16#6, false, true⟩ (by decide)) (by unfold KindOk; decide)⟩
/-- The smallest and the largest lanes that the statement on lanes speaks of. -/
theorem test_witness_lanes : 0 < lanesOf 0 ∧ 63 < lanesOf 0 ∧ 7 < lanesOf 3 ∧ ¬ 8 < lanesOf 3 ∧ 0 < lanesOf 11 := by decide
theorem test_vector_queue : nextWith (exec (.vadd (vf 2 false)) vecUser) (fun t =>
      t.core.vq.map (fun o => (o.pc, o.d)) == [(0x10002#64, 0)] && t.win.liveV 3) = true ∧
    nextWith (exec (.vst { vm with a := 1#6 }) vecUser) (fun t => t.core.vq.map (fun o => o.b) == [0x100]) = true ∧
    nextWith (exec (.vbc { vv with b := 4#6 }) (atCtl vecUser fun c => { c with sw := 0#64 })) (fun t => t.core.vq.length == 0) = true := by decide +kernel
/-- 8-bit lanes: 127 + 1 wraps to −128, or saturates; −128 < 1; a lane index wraps. -/
def vop (b c : Nat) : VOp :=
  { i := .vadd (vf 0 false), key := 0, ctx := 0, aid := 0, seq := 0, pc := 0#64, sw := 0#64, rshc := 0#32, seed := 0#64, b := b, c := c
    d := 0, m := 2 ^ 512 - 1, old := 0, bad := false, started := false, pos := 0, got := 0 }
theorem test_witness_lane_forms : (vop 127 1).bad = false ∧ laneForm (vop 127 1).i = some (0, vf 0 false) ∧
    laneForm (.vand (vf 11 false)) = some (8, vf 11 false) ∧ laneForm (.vcmp (vf 0 false)) = some (14, vf 0 false) ∧
    laneForm (.vsel (vf 0 false)) = some (15, vf 0 false) ∧ laneForm (.vperm (vf 11 false)) = some (19, vf 11 false) := by decide
theorem test_lanes : laneAt 8 ((vop 127 1).compute 0 (vf 0 false)).1 0 = 128 ∧ laneAt 8 ((vop 127 1).compute 0 (vf 0 true)).1 0 = 127 ∧
    laneAt 1 ((vop 128 1).compute 14 { vf 0 false with rm := 1#3 }).1 0 = 1 ∧
    laneAt 8 ((vop (7 * 2 ^ 8) 65).compute 19 (vf 0 false)).1 0 = 7 := by decide +kernel
/-- Nobody watches the ring entry of the next vector instruction. -/
theorem test_witness_vector_frame : vecUser.groupNow.brk = none ∧ Mem.wf vecUser.m.mem = true ∧
    Unwatched vecUser.m (vecUser.m.lmAt 0 (vecUser.core.cprAt 0 (vecUser.core.ctx 0).seq.toNat)) 32 := ⟨by decide, by decide, by decide, by decide⟩
/-- What an instruction gives that runs on core 0 of the base state, where it completes; and what it stores at LM 0x100. -/
def vDone (o : VOp) (i : Instr) : Option Nat := match (VOp.run { o with i := i } 0 base.m).2 with
  | .done v _ => some v
  | _ => none
def vStored (o : VOp) (i : Instr) (n : Nat) : List Byte := (VOp.run { o with i := i } 0 base.m).1.lmRead 0 0x100 n
/-- The conversion of element i is within both lane counts; a mask of three elements. -/
theorem test_witness_vector_forms : laneForm (.vadd (vf 9 false)) = some (0, vf 9 false) ∧ laneForm (.vcmp (vf 8 false)) = some (14, vf 8 false) ∧
    0 < min (lanesOf 9) (lanesOf 8) ∧ memForm (.vld vm) = some (0, vm) ∧ memForm (.vgath vm) = some (4, vm) ∧ memForm (.vsts vm) = some (3, vm) ∧
    512 / elemWidth vm = 16 ∧ 512 / elemWidth { vm with ty := 14#4 } = 64 := by decide
/-- R490: f32 1.0 + 2.0; R492: 1.0 < 2.0; R493: s8 −1 to s32; R494: 2·4 + 3·5 + 10 on s8; R495: 1 + 2 + 3 with the fourth element left
out, and the largest of 1, 2 and 3. -/
theorem test_float_lanes : (vDone (vop 0x3F800000 0x40000000) (.vadd (vf 9 false))).map (laneAt 32 · 0) = some 0x40400000 ∧
    (vDone (vop 0x3F800000 0x40000000) (.vcmp { vf 9 false with rm := 1#3 })).map (laneAt 1 · 0) = some 1 ∧
    (vDone (vop 0xFF 0) (.vcvt { vf 2 false with d := 0#6 })).map (laneAt 32 · 0) = some 0xFFFFFFFF := by decide +kernel
theorem test_reductions : (vDone { vop 0x0302 0x0504 with d := 10 } (.vdot (vf 0 false))).map (laneAt 32 · 0) = some 33 ∧
    vDone { vop 0x09030201 0 with m := 7 } (.vred { vf 0 false with d := 0#6 }) = some 6 ∧
    vDone { vop 0x09030201 0 with m := 7 } (.vred { vf 0 false with d := 2#6 }) = some 3 ∧
    vDone { vop 0x09030201 0 with m := 0 } (.vred { vf 0 false with d := 0#6 }) = some 0 := by decide +kernel
/-- R496: VMOV, VBC, VEXT of a signed lane, VINS. -/
theorem test_vector_moves : vDone (vop 5 0) (.vmov vv) = some 5 ∧ (vDone (vop 5 0) (.vbc vv)).map (laneAt 32 · 15) = some 5 ∧
    vDone (vop 0xFFFFFFFF 0) (.vext vv) = some (2 ^ 64 - 1) ∧
    (vDone (vop 0 7) (.vins { vv with lane := 1#6 })).map (laneAt 32 · 1) = some 7 := by decide +kernel
/-- R497, R498: elements 0 and 1 of a store of s32 at LM 0x100; an unaligned element; a load past its last element. -/
theorem test_vector_memory : vStored { vop 0x100 0 with d := 0x200000001, m := 3 } (.vst vm) 12 = leBytes 12 0x200000001 ∧
    (match (VOp.run { vop 0x102 0 with i := .vst vm } 0 base.m).2 with
     | .fault f => f.cause == .misalign && f.addr == 0x102#64
     | _ => false) = true ∧
    vDone { vop 0x100 0 with pos := 16, got := 9 } (.vld vm) = some 9 := by decide +kernel
/-- A load that succeeds; a store whose piece is two elements; a load and a store whose address has no bank behind it. -/
theorem test_witness_vector_memory : answers (loadAt 0 4 0x100 4 false true base.m) = true ∧
    answers (storeAt 0 4 0x100 (leBytes 8 1) false true base.m) = true ∧
    ({ vop 0x100 0 with i := .vst vm }).piece 1 vm 0 = 2 ∧ Nat.testBit (vop 0x100 0).m 1 = true ∧
    (match loadAt 0 4 (2 ^ 63) 4 false true base.m with | .error (.fault _) => true | _ => false) = true ∧
    (match storeAt 0 4 (2 ^ 63) (leBytes 4 1) false true base.m with | .error (.fault _) => true | _ => false) = true := by decide +kernel
/-- A result that lands in a vector register leaves every general one alone. -/
theorem test_retires : (let w := base.win.vecPut 0 (some (true, 3#6)) 5
    (w.vr 3 == 5#512) && w.liveV 3 && (w.gr 3 == base.win.gr 3)) = true := by decide +kernel

/-! ## Witnesses: special registers, exceptions -/

def csrs : List Nat := [0, 1, 2, 3, 4, 5, 6, 7, 0x10, 0x11, 0x12, 0x13, 0x14, 0x15, 0x16, 0x17, 0x18, 0x19, 0x20, 0x27]
theorem test_witness_csr_numbers : SpecialReg 7 ∧ SpecialReg 0x27 ∧ ¬ SpecialReg 8 ∧ ¬ SpecialReg 0x1A ∧ ¬ SpecialReg 0x28 ∧
    UserReads 0x13 ∧ ¬ UserReads 0x12 ∧ SuperWrites 5 ∧ ¬ SuperWrites 3 ∧ ¬ SuperWrites 7 ∧ SuperWrites 0x27 := by
  unfold SpecialReg UserReads SuperWrites; decide
theorem test_witness_csr_read : ∀ n ∈ csrs, ∃ t u, MayRead base n ∧ Reads base [] (some (.exec, 1#6)) [] t ∧
    writeDst 1#6 (specialValue t n) t = .ok ((), u) := by
  intro n h; simp only [csrs, List.mem_cons, List.not_mem_nil, or_false] at h
  rcases h with rfl | rfl | rfl | rfl | rfl | rfl | rfl | rfl | rfl | rfl | rfl | rfl | rfl | rfl | rfl | rfl | rfl | rfl | rfl | rfl <;>
    exact ⟨_, _, by unfold MayRead SpecialReg UserReads; decide, ⟨test_base_running, rfl⟩, rfl⟩
/-- Each writable register in supervisor mode, with a value that it accepts. -/
theorem test_witness_csr_write : ∀ n ∈ [0, 1, 2, 5, 0x10, 0x11, 0x12, 0x13, 0x14, 0x15, 0x16, 0x17, 0x18, 0x19, 0x20, 0x27], ∃ t l u,
    MayWrite (atG base 4 1) n ∧ Reads (atG base 4 1) [⟨4#6, false, .exec⟩] none l t ∧ SpecialWritten n (arg l 0) t u := by
  have run : (atG base 4 1).Running := ⟨by decide, by decide, by decide, by decide, by decide⟩
  intro n h; simp only [List.mem_cons, List.not_mem_nil, or_false] at h
  rcases h with rfl | rfl | rfl | rfl | rfl | rfl | rfl | rfl | rfl | rfl | rfl | rfl | rfl | rfl | rfl | rfl
  · exact ⟨_, _, _, by unfold MayWrite SuperWrites; decide, ⟨run, rfl⟩, rfl⟩
  · exact ⟨_, _, _, by unfold MayWrite SuperWrites; decide, ⟨run, rfl⟩, rfl⟩
  · exact ⟨_, _, _, by unfold MayWrite SuperWrites; decide, ⟨run, rfl⟩, Or.inl rfl, by decide, rfl⟩
  · exact ⟨_, _, _, by unfold MayWrite SuperWrites; decide, ⟨run, rfl⟩, rfl⟩
  · exact ⟨_, _, _, by unfold MayWrite SuperWrites; decide, ⟨run, rfl⟩, rfl⟩
  · exact ⟨_, _, _, by unfold MayWrite SuperWrites; decide, ⟨run, rfl⟩, rfl⟩
  · exact ⟨_, _, _, by unfold MayWrite SuperWrites; decide, ⟨run, rfl⟩, rfl⟩
  · exact ⟨_, _, _, by unfold MayWrite SuperWrites; decide, ⟨run, rfl⟩, rfl⟩
  · exact ⟨_, _, _, by unfold MayWrite SuperWrites; decide, ⟨run, rfl⟩, rfl⟩
  · exact ⟨_, _, _, by unfold MayWrite SuperWrites; decide, ⟨run, rfl⟩, rfl⟩
  · exact ⟨_, _, _, by unfold MayWrite SuperWrites; decide, ⟨run, rfl⟩, by decide, fun _ => rfl, fun h => absurd h (by decide)⟩
  · exact ⟨_, _, _, by unfold MayWrite SuperWrites; decide, ⟨run, rfl⟩, by decide, rfl⟩
  · exact ⟨_, _, _, by unfold MayWrite SuperWrites; decide, ⟨run, rfl⟩, by decide, by decide, _, rfl, rfl⟩
  · exact ⟨_, _, _, by unfold MayWrite SuperWrites; decide, ⟨run, rfl⟩, by decide, rfl⟩
  · exact ⟨_, _, _, by unfold MayWrite SuperWrites; decide, ⟨run, rfl⟩, rfl⟩
  · exact ⟨_, _, _, by unfold MayWrite SuperWrites; decide, ⟨run, rfl⟩, rfl⟩
/-- User mode writes `c.sw` alone: RM becomes 3. -/
theorem test_witness_csr_user : ∃ t l u, MayWrite (atG user 4 0x30) 2 ∧ Reads (atG user 4 0x30) [⟨4#6, false, .exec⟩] none l t ∧
    SpecialWritten 2 (arg l 0) t u ∧ ¬ MayWrite user 0 ∧ user.super = false ∧ ¬ UserReads 0x10 := by
  refine ⟨_, _, _, by unfold MayWrite; rw [if_neg (by decide)], ⟨⟨by decide, by decide, by decide, by decide, by decide⟩, rfl⟩,
    ⟨Or.inr (by decide), by decide, rfl⟩, by unfold MayWrite; rw [if_neg (by decide)]; decide, by decide, by unfold UserReads; decide⟩
/-- `c.cpr` over the CSA. -/
theorem test_witness_csr_cpr_csa : ∃ t l u, MayWrite (atG base 4 0x7E000) 0x16 ∧ Reads (atG base 4 0x7E000) [⟨4#6, false, .exec⟩] none l t ∧
    SpecialWritten 0x16 (arg l 0) t u ∧ bits (arg l 0) 18 13 = 0x3F :=
  ⟨_, _, _, by unfold MayWrite SuperWrites; decide, ⟨⟨by decide, by decide, by decide, by decide, by decide⟩, rfl⟩,
    ⟨by decide, fun h => absurd (by decide) h, fun _ => rfl⟩, by decide⟩
/-- CSRX of `c.upvec`: the destination gets the value before the write. -/
theorem test_witness_csr_exchange : ∃ t l u v, MayWrite (atG base 4 1) 0x14 ∧
    Reads (atG base 4 1) [⟨4#6, false, .exec⟩] (some (.exec, 5#6)) l t ∧ SpecialWritten 0x14 (arg l 0) t u ∧
    writeDst 5#6 (specialValue t 0x14) u = .ok ((), v) :=
  ⟨_, _, _, _, by unfold MayWrite SuperWrites; decide, ⟨⟨by decide, by decide, by decide, by decide, by decide⟩, rfl⟩, rfl, rfl⟩
theorem test_csr : nextWith (exec (.csrw ⟨4#6, false, 0x14#12⟩) (atG base 4 0x1234)) (fun t => t.core.spec.upvec == 0x1234#64) = true ∧
    nextWith (exec (.csrr ⟨4#6, 3#12⟩) user) (fun t => t.win.gr 4 == user.m.selfHandle 0) = true ∧
    nextWith (exec (.csrx ⟨5#6, 4#6, false, 0x14#12⟩) (atG base 4 0x1234)) (fun t => t.core.spec.upvec == 0x1234#64 && t.win.gr 5 == 0#64) = true ∧
    nextWith (exec (.csrw ⟨4#6, false, 0x14#12⟩) user) (fun t => trapCause t == 5) = true := by decide +kernel

/-- `c.frec` with EN set and the records at LM 0x3000. -/
def upUser : State := atM user fun m => m.onCore 0 fun c => { c with spec := { c.spec with frec := BitVec.ofNat 64 (2 ^ 63 + 0x3000), upvec := 0x10100#64 } }
def tgt (code : Nat) : FInfo := { cause := .badtgt, addr := BitVec.ofNat 64 code }
theorem test_witness_upcall : ∃ w, Upcalls upUser.m 0 0 w (tgt 1) ∧ (tgt 1).side = [] ∧ Mem.wf upUser.m.mem = true ∧
    ¬ Upcalls user.m 0 0 w (tgt 1) :=
  ⟨_, ⟨rfl, by decide, by unfold UpcallCause; decide, by decide, by decide, by decide, by decide, by decide⟩, rfl, by decide,
    fun h => absurd h.en (by decide)⟩
theorem test_witness_supervisor_trap : ∃ w, (user.m.act 0 0).win = some w ∧ Mem.wf user.m.mem = true ∧
    user.m.flushBad 0 (user.m.act 0 0).wp w = none ∧ (user.m.act 0 0).wp + 1344 ≤ 0x7FC40 ∧ (user.m.act 0 0).wp % 64 = 0 ∧
    user.m.wordOk 0 ((user.m.act 0 0).wp + 1280) 64 = true ∧ (user.m.core 0).sup.next < 15 ∧
    (user.m.supEntry 0 (user.m.core 0).sup.next).v = false ∧ Unwatched user.m (user.m.lmAt 0 (user.m.act 0 0).wp) 1344 ∧
    Unwatched user.m (user.m.lmAt 0 0x7FC40) 64 ∧ Unwatched user.m (user.m.lmAt 0 0x3000) 64 :=
  ⟨_, rfl, by decide, by decide +kernel, by decide, by decide, by decide, by decide, by decide, ⟨by decide, by decide⟩,
    ⟨by decide, by decide⟩, ⟨by decide, by decide⟩⟩
theorem test_witness_traps : base.open_ = none ∧ user.open_ = none ∧ user.super = false ∧ upUser.open_ = none ∧ upUser.super = false := by decide
theorem test_witness_trap_upcall : let t := closed upUser upUser.begun
    Upcalls t.m upUser.cid upUser.key t.win { cause := .illop, addr := 5#64, req := true } ∧
    ¬ Upcalls (closed user user.begun).m user.cid user.key (closed user user.begun).win { cause := .illop, addr := 5#64, req := true } :=
  ⟨⟨rfl, by decide, by unfold UpcallCause; decide, by decide, by decide, by decide, by decide, by decide⟩, fun h => absurd h.en (by decide)⟩
/-- TRAP 5: the runtime enters at `c.upvec` with a record of cause 0 and address 5; SVC 5: the supervisor's record names 0x10005. -/
theorem test_traps : nextWith (exec (.trap ⟨5#16⟩) upUser) (fun t => t.win.ctl.pc == 0x10100#64 && bit t.sw 1 &&
      (FaultRec.decode (t.m.lmRead 0 0x3000 64)).addr == 5#64 && (FaultRec.decode (t.m.lmRead 0 0x3000 64)).cause == 0) = true ∧
    nextWith (exec (.svc ⟨5#16⟩) user) (fun t => (t.m.supEntry 0 0).addr == 0x10005#64 && trapCause t == 0 && (t.m.act 0 0).st == .faulted) = true ∧
    nextWith (exec .brk base) (fun t => trapCause t == 0x13) = true ∧ nextWith (exec .nop base) (fun t => t.win.ctl.pc == 0x10004#64) = true := by
  decide +kernel

/-- After an upcall: UPC set, the record at LM 0x3000 (WAITV), the resume PC in WAITA; with PW in the second. -/
def inUpcall (pw : Bool) : State :=
  withLm (atCtl upUser fun c => { c with sw := 2#64, waita := 0x10002#64, waitv := 0x3000#64, waitk := 8#4 }) 0x3000
    ({ cause := 10, sub := 0, kind := 0, v := true, pw := pw, l8 := false, l9 := true, save9 := 77#64 } : FaultRec).encode
theorem test_witness_uret : ∀ pw : Bool, (inUpcall pw).Running ∧ bit (inUpcall pw).sw 1 = true ∧ (inUpcall pw).ldQ = [] ∧ (inUpcall pw).sdQ = [] ∧
    (FaultRec.decode ((inUpcall pw).m.lmRead 0 0x3000 64)).pw = pw ∧ (inUpcall pw).act.pwCancel = false := by
  intro pw
  cases pw <;> exact ⟨⟨by decide, by decide, by decide, by decide, by decide⟩, by decide, by decide, by decide, by decide +kernel, by decide⟩
/-- A page wait that has been cancelled. -/
theorem test_witness_uret_cancelled : ∃ s : State, s.Running ∧ bit s.sw 1 = true ∧ s.ldQ = [] ∧ s.sdQ = [] ∧ s.act.pwCancel = true ∧
    (FaultRec.decode (s.m.lmRead 0 0x3000 64)).pw = false :=
  ⟨atM (inUpcall false) fun m => m.onAct 0 0 fun a => { a with pwCancel := true },
    ⟨by decide, by decide, by decide, by decide, by decide⟩, by decide, by decide, by decide, by decide, by decide +kernel⟩
theorem test_witness_goes_back : GoesBack (inUpcall false) :=
  ⟨⟨by decide, by decide, by decide, by decide, by decide⟩, by decide, by decide, by decide +kernel, by decide⟩
/-- The line to go back to stands in the own LM, or in the buffer; a return to an address outside every window faults there. -/
theorem test_witness_uret_target : (∃ m', CodeStands (inUpcall false).begun (inUpcall false).win.ctl.waita m') ∧
    (∃ m', CodeStands (buffered (inUpcall false) lineOfBase).begun (inUpcall false).win.ctl.waita m') ∧
    ∃ f, lineFor 0 0 0x40000000000002#64 false (inUpcall false).begun.m = .error (.fault f) :=
  ⟨⟨_, Or.inr ⟨fun x h => (by cases h), by decide, Or.inr (by decide), by decide, by decide, by decide, by decide +kernel, rfl⟩⟩,
    ⟨_, Or.inl ⟨_, _, rfl, by decide +kernel, rfl⟩⟩, ⟨_, rfl⟩⟩
theorem test_uret : nextWith (exec .uret (inUpcall false)) (fun t => t.win.ctl.pc == 0x10002#64 && !bit t.sw 1 && t.win.gr 9 == 77#64 &&
      !t.win.live 8 && !(FaultRec.decode (t.m.lmRead 0 0x3000 64)).v) = true ∧
    nextWith (exec .uret user) (fun t => trapCause t == 1) = true ∧ nextWith (exec .eret user) (fun t => trapCause t == 5) = true := by
  decide +kernel

/-- The trap activation of core 0 serving entry 0, of a KIND and a DISP, whose activation is in slot 3 with a join word. -/
def servingOf (kind disp join : Nat) : State :=
  withLm (withLm (atCore base fun c =>
    let a := base.m.act 0 0
    { (c.onCtx 0 fun x => { x with act := some 64 }) with
      acts := [(3, { a with st := .faulted, win := none, wp := 0x2000 }), (64, { a with st := .issuing 0 })]
      sup := { c.sup with serving := some 0, keys := [(0, 3)] } }) 0x2500
        ({ (base.m.ctlOf 0 0) with joina := BitVec.ofNat 64 join } : Ctl).encode) 0x7FC40
    ({ cause := 2, sub := 0, kind := kind, v := true, disp := disp } : FaultRec).encode
def serving : State := servingOf 1 1 0
theorem test_witness_serves : ∀ x ∈ [(1, 1, 0), (1, 0, 0), (1, 0, 0x80), (1, 2, 0), (2, 0, 0)], let s := servingOf x.1 x.2.1 x.2.2
    Serves s 0 ∧ Alone s 0 ∧ (s.m.supEntry 0 0).kind = x.1 ∧ (s.m.supEntry 0 0).disp = x.2.1 ∧ named s 0 = 3 := by
  intro x h; simp only [List.mem_cons, List.not_mem_nil, or_false] at h
  rcases h with rfl | rfl | rfl | rfl | rfl <;> exact
    ⟨⟨⟨by decide, by decide, by decide, by decide, by decide⟩, by decide, by decide, by decide, by unfold Settled; decide +kernel, by decide,
      by decide, by decide⟩, ⟨by decide, ⟨by decide, by decide⟩, by decide +kernel, by decide, by decide⟩, by decide +kernel, by decide +kernel,
      by decide⟩
/-- What ERET needs of the activation that its entry names: to resume it, to end it without a join, and with one. -/
theorem test_witness_eret : (serving.m.act 0 3).win = none ∧ (serving.m.act 0 3).wp + 1344 ≤ 0x7FC40 ∧
    serving.m.wordOk 0 ((serving.m.act 0 3).wp + 1280) 64 = true ∧ (serving.m.act 0 3).late = [] ∧
    (serving.m.ctlOf 0 3).joina = 0#64 ∧ ((servingOf 1 0 (2 ^ 63)).m.ctlOf 0 3).joina = BitVec.ofNat 64 (2 ^ 63) := by decide +kernel
theorem any_of {α : Type} {x : Option α} {p : α → Bool} (h : x.any p = true) : ∃ a, x = some a ∧ p a = true := by
  cases x with
  | some a => exact ⟨a, rfl, by simpa using h⟩
  | none => cases h
theorem test_witness_eret_join : ∃ m, let s := servingOf 1 0 0x80; let c := s.begun.m.ctlOf 0 (named s 0)
    c.joina ≠ 0#64 ∧ bit c.joina 63 = false ∧ s.begun.m.unwritten 0 c.aid = false ∧ s.begun.m.unflushed 0 c.aid = false ∧
    s.begun.m.endJoin 0 c = some m ∧ Unwatched m (m.lmAt 0 (supOff 0)) 64 := by
  obtain ⟨m, h, q⟩ := any_of (p := fun m => decide (m.watched (m.lmAt 0 (supOff 0)) 64 = []) &&
      decide ((m.bwait.filter fun w => meet w.loc 32 (m.lmAt 0 (supOff 0)) 64) = []))
    (x := (servingOf 1 0 0x80).begun.m.endJoin 0 ((servingOf 1 0 0x80).begun.m.ctlOf 0 (named (servingOf 1 0 0x80) 0))) (by decide +kernel)
  exact ⟨m, by decide +kernel, by decide +kernel, by decide +kernel, by decide +kernel, h, by simpa [Unwatched] using q⟩
theorem test_eret : nextWith (exec .eret serving) (fun t => (t.m.act 0 3).st == .ready && (t.m.core 0).sup.serving == none) = true ∧
    nextWith (exec .eret (servingOf 1 0 0)) (fun t => (Tab.find (t.m.core 0).acts 3).isNone && !(t.m.supEntry 0 0).v) = true ∧
    nextWith (exec .eret (servingOf 2 0 0)) (fun t => (t.m.act 0 3).st == .faulted && !(t.m.supEntry 0 0).v) = true := by
  decide +kernel

/-- R92, R93: `c.cyc` counts from the cycle in which the site reached READY. -/
theorem test_cycle_counter_starts_at_ready :
    (({ State.reset.m with time := 90 } : Module).onSite 0 fun x => { x with ready := 70 }).csrRead 0 0 0 0 = 20#64 := by decide
/-- R347: a record whose fields lie at both ends of their ranges. -/
theorem test_witness_record : (255 : Nat) < 256 ∧ leNat (({ cause := 255, sub := 1, disp := 3, lost := 255 } : FaultRec).encode) =
    255 + 2 ^ 8 + 3 * 2 ^ 22 + 255 * 2 ^ 24 := by decide +kernel
/-- R94, R411: flags that an engine has ORed into `c.sw` in this cycle are ORed after a write of it. -/
theorem test_flags_after_write : nextWith (exec (.csrw ⟨4#6, false, 2#12⟩) (atWin (atG user 4 0) fun w => { w with orNow := (user.m.time, 1) }))
    (fun t => t.sw == swOr 0#64 1) = true := by decide +kernel

/-! ## Witnesses: events of a core -/

/-- An event's module is what a state without an open group holds. -/
def atCommit (m : Module) : State := { base with m := m }
abbrev MayHappen (e : Instr → Module → Module → Prop) (i : Instr) (m : Module) : Prop := ∃ m', e i (atCommit m).settled m'
theorem some_of {α : Type} {x : Option α} (h : x.isSome = true) : ∃ a, x = some a := Option.isSome_iff_exists.1 h
def bm : Module := base.m
def late (m : Module) : Module := { m with time := 2 ^ 50 }
def on0 (m : Module) (f : Core → Core) : Module := m.onCore 0 f
/-- Activation slot k of core 0. -/
def slot (m : Module) (k : Nat) (a : Act) : Module := on0 m fun c => { c with acts := Tab.put c.acts k a }
def waiting (w : WaitOn) : Module := slot bm 3 { wp := 0x2000, st := .suspended, wait := w }
/-- The activation of context 0 with other control words. -/
def ctl0 (f : Ctl → Ctl) : Module := (atCtl user f).m
def vqueued (o : VOp) : Module := on0 bm fun c => { c with vq := [o] }
def startedV (i : Instr) (bad : Bool) : VOp := { vop 1 2 with i := i, bad := bad, started := true }
def aRecord : FaultRec := { cause := 1, sub := 0, kind := 1, v := true }
def withSup : Module := { bm with mem := Mem.write bm.mem (bm.lmAt 0 0x7FC40) aRecord.encode }
def aNode : NodeEnt := { launch := 1, node := 2, ranges := [(0, 4)], dom := 1, entry := 0x10000#64, tcb := 0#64, budget := 1, slots := 1 }
def gqM : Module := on0 bm fun c => { c with gq := [aNode] }
/-- Every context of core 0 held by an activation of class 4, and a READY one of class 0. -/
def crowded : Module := on0 bm fun c => { c with
  acts := [(0, { st := .issuing 0, win := some { ctl := { cls := 4#3 } } }), (1, { st := .issuing 1, win := some { ctl := { cls := 4#3 } } }),
           (2, { st := .issuing 2, win := some { ctl := { cls := 4#3 } } }), (3, { st := .issuing 3, win := some { ctl := { cls := 4#3 } } }),
           (4, { wp := 0x2000 })]
  ctxs := [(0, { act := some 0 }), (1, { act := some 1 }), (2, { act := some 2 }), (3, { act := some 3 })] }
/-- A task record pushed in the cycle before. -/
def pushed : Module := { bm.dqPush 0 { pc := 0x10002#64 } with time := 1 }
/-- The same with four BOUND activations behind. -/
def crowdedBound : Module := on0 crowded fun c => { c with
  acts := c.acts ++ (upFrom 5 4).map fun k => (k, { wp := 0x2000 * k, st := .bound, win := some { ctl := { cls := 5#3 } } }) }
/-- The same with an entry of the supervisor queue due. -/
def crowdedTrap : Module := { crowded with mem := withSup.mem }
def steals (l : Option Loot) (served : Bool) : Module := on0 bm fun c => { c with thief := { c.thief with busy := some { victim := 1, served := served, loot := l } } }
/-- Core 1 has a VCN too, and an idle core 0 can ask it. -/
def withCore1 : Module := bm.onSite 0 fun x => { x with lpct := Tab.put x.lpct 1 ⟨1, true, 0⟩, vacant := x.vacant.filter (· ≠ 1) }
/-- A pre-emption request holds the partition. -/
def held (m : Module) : Module := { m with parts := Tab.put m.parts 0 { m.partOf 0 with swSt := 1 } }
/-- A range of a launch that is over, and one of the launch that runs. -/
def rangeGone : Module := steals (some (.range aNode 0 4)) true
def rangeKept : Module := { rangeGone with parts := Tab.put rangeGone.parts 0 { rangeGone.partOf 0 with hqLaunch := 1 } }
/-- Core 0 at a CSRW of g4 to a register that waits. -/
def csrAt (n : Nat) : State :=
  { base with m := State.reset.m.withCode (oneLine ((encode (.csrw ⟨4#6, false, BitVec.ofNat 12 n⟩)).getD ⟨0#16, 0#64⟩)) }

theorem test_due_waits :
    MayHappen waitEvent (.waitExpiry 0 3) (waiting (.cycles 0)) ∧
    MayHappen waitEvent (.waitrsTimeout 0 3) (late (waiting (.resv (some 0)))) ∧
    MayHappen waitEvent (.barwRegistrationRetry 0 3) (waiting (.bar 64 false 0 0)) ∧
    MayHappen waitEvent (.joinReread 0 3) (waiting (.join 0x100#64 0#64 false (some 0))) ∧
    MayHappen waitEvent (.joinReread 0 3) (waiting (.join 0x101#64 0#64 false (some 0))) := by
  refine ⟨?_, ?_, ?_, ?_, ?_⟩
  · apply Exists.intro; unfold waitEvent; exact ⟨_, ⟨_, rfl, rfl, rfl⟩, by decide, rfl⟩
  · apply Exists.intro; unfold waitEvent; exact ⟨_, ⟨_, rfl, rfl, rfl⟩, by decide, rfl⟩
  · apply Exists.intro; unfold waitEvent; exact ⟨_, _, _, ⟨_, rfl, rfl, rfl⟩, by decide, rfl⟩
  · obtain ⟨b, n, h⟩ := ok_of (show answers (joinRead 0 103 0x100 (swMode ((waiting (.join 0x100#64 0#64 false (some 0))).ctlOf 0 3).sw) (waiting (.join 0x100#64 0#64 false (some 0)))) = true by decide +kernel); apply Exists.intro; unfold waitEvent; exact ⟨_, _, _, _, ⟨_, rfl, rfl, rfl⟩, by decide, Or.inl ⟨b.1, b.2, n, h, rfl⟩⟩
  · apply Exists.intro; unfold waitEvent; exact ⟨_, _, _, _, ⟨_, rfl, rfl, rfl⟩, by decide, Or.inr ⟨_, rfl, rfl⟩⟩
/-- A word on a link of the ring; register and LM banks. -/
theorem test_due_banks :
    MayHappen waitEvent (.neighbourWordArrival 0 true) (on0 bm fun c => { c with ports := { c.ports with flyL := [5#64] } }) ∧
    MayHappen waitEvent (.neighbourWordArrival 0 false) (on0 bm fun c => { c with ports := { c.ports with flyR := [5#64] } }) ∧
    MayHappen waitEvent (.registerBankIdle 0 0 0) (late bm) ∧
    MayHappen waitEvent (.groomerVisit 0 0 2) (bm) ∧
    MayHappen waitEvent (.lmBankWakeComplete 0 0) (bm.setPhy 0 { lm := 3#32 }) ∧
    MayHappen waitEvent (.icacheFill 0 0) (bm) := by
  refine ⟨?_, ?_, ?_, ?_, ?_, ?_⟩
  · apply Exists.intro; unfold waitEvent; refine ⟨5#64, [], ?_⟩; rw [if_pos rfl]; exact ⟨rfl, by decide, rfl⟩
  · apply Exists.intro; unfold waitEvent; refine ⟨5#64, [], ?_⟩; rw [if_neg (by decide)]; exact ⟨rfl, by decide, rfl⟩
  · apply Exists.intro; unfold waitEvent; exact ⟨_, rfl, by decide, by decide, by decide, by decide, rfl⟩
  · apply Exists.intro; unfold waitEvent; exact ⟨by decide, by decide, by decide, by decide, by decide, rfl⟩
  · apply Exists.intro; unfold waitEvent; exact ⟨by decide, by decide, rfl⟩
  · obtain ⟨b, n, h⟩ := ok_of (show answers (lineFor 0 0 base.win.ctl.pc (swMode base.win.ctl.sw) bm) = true by decide +kernel); apply Exists.intro; unfold waitEvent; exact ⟨_, _, b, by decide, rfl, rfl, fun l h => (nomatch (show (none : Option LineBuf) = some l from h)), h⟩
theorem test_due_vector :
    MayHappen waitEvent (.vectorInstructionStart 0) (vqueued (vop 1 2)) ∧
    MayHappen waitEvent (.vectorRetirement 0) (vqueued (startedV (.vmov vv) false)) ∧
    MayHappen waitEvent (.vectorLateFault 0) (vqueued (startedV (.vmov vv) true)) := by
  refine ⟨?_, ?_, ?_⟩
  · apply Exists.intro; unfold waitEvent; exact ⟨_, _, rfl, rfl⟩
  · apply Exists.intro; unfold waitEvent; exact ⟨_, _, rfl, rfl, by decide, _, _, _, rfl, rfl⟩
  · apply Exists.intro; unfold waitEvent; exact ⟨_, _, rfl, rfl, by decide, _, _, rfl, rfl⟩
theorem test_due_scheduler :
    MayHappen schedulerEvent (.activationBinding 0 3) (slot bm 3 { wp := 0x2000 }) ∧
    MayHappen schedulerEvent (.contextEntry 0 1) (slot bm 3 { wp := 0x2000 }) ∧
    MayHappen schedulerEvent (.taskStart 0) (pushed) ∧
    MayHappen schedulerEvent (.workRangeStart 0) (gqM) := by
  refine ⟨?_, ?_, ?_, ?_⟩
  · apply Exists.intro; unfold schedulerEvent; exact ⟨by decide, by decide, ⟨_, rfl⟩, rfl⟩
  · apply Exists.intro; unfold schedulerEvent; exact ⟨_, _, rfl, by decide +kernel, by decide +kernel, by decide, by decide +kernel, by decide +kernel, by decide +kernel, rfl⟩
  · obtain ⟨n, h⟩ := some_of (show (((pushed.dqPop 0).bind fun r => r.2.startNew 0 (r.1.birth 5 (pushed.core 0).spec.budget)).isSome = true) by decide +kernel); obtain ⟨r, h1, h2⟩ := Option.bind_eq_some_iff.1 h; apply Exists.intro; unfold schedulerEvent; exact ⟨r.1, r.2, by decide, by decide +kernel, by decide +kernel, h1, h2⟩
  · obtain ⟨n, h⟩ := some_of (show ((gqM.onCore 0 fun c => { c with gq := takeRange c.gq 0 (0, 4) }).startNew 0 (aNode.birth 0 4 6 (gqM.core 0).spec.budget)).isSome = true by decide +kernel); apply Exists.intro; unfold schedulerEvent; exact ⟨_, _, _, rfl, by decide +kernel, by decide +kernel, by decide +kernel, rfl, h⟩
theorem test_due_traps :
    MayHappen schedulerEvent (.trapActivationCreation 0 1) (withSup) ∧
    MayHappen schedulerEvent (.deferredTrapEntry 0) (slot bm 3 { st := .faulted, defer := some aRecord }) ∧
    MayHappen schedulerEvent (.displacement 0) (crowded) ∧
    MayHappen schedulerEvent (.displacement 0) (crowdedBound) ∧
    MayHappen schedulerEvent (.displacement 0) (crowdedTrap) ∧
    MayHappen schedulerEvent (.aging 0 3) (late (slot bm 3 { st := .bound, win := some { ctl := { cls := 5#3 } } })) := by
  refine ⟨?_, ?_, ?_, ?_, ?_, ?_⟩
  · apply Exists.intro; unfold schedulerEvent; exact ⟨by decide +kernel, by decide +kernel, by decide, by decide +kernel, by decide +kernel, rfl⟩
  · apply Exists.intro; unfold schedulerEvent; exact ⟨⟨_, List.mem_cons_of_mem _ (List.mem_cons_self ..), rfl⟩, by decide, rfl⟩
  · apply Exists.intro; unfold schedulerEvent; exact ⟨false, _, _, _, by decide +kernel, ⟨fun h => (nomatch h), fun h => absurd h.1 (by decide +kernel)⟩, Or.inr (by decide +kernel), rfl, rfl, Or.inl ⟨by decide +kernel, rfl⟩⟩
  · apply Exists.intro; unfold schedulerEvent; exact ⟨false, _, _, _, by decide +kernel, ⟨fun h => (nomatch h), fun h => absurd h.1 (by decide +kernel)⟩, Or.inr (by decide +kernel), rfl, rfl, Or.inr ⟨_, by decide +kernel, rfl, rfl⟩⟩
  · apply Exists.intro; unfold schedulerEvent; exact ⟨true, _, _, _, by decide +kernel, ⟨fun _ => ⟨by decide +kernel, by unfold TrapOpen; decide +kernel⟩, fun _ => rfl⟩, Or.inl rfl, rfl, rfl, Or.inl ⟨by decide +kernel, rfl⟩⟩
  · apply Exists.intro; unfold schedulerEvent; exact ⟨by decide, by decide, by decide, rfl⟩
theorem test_due_budgets :
    MayHappen schedulerEvent (.budgetExpiry 0 0) (ctl0 fun c => { c with budget := 0#32, path := 1#3 }) ∧
    MayHappen schedulerEvent (.forcedSuspension 0 0) ((ctl0 id).onAct 0 0 fun a => { a with grace := some 0 }) ∧
    MayHappen schedulerEvent (.handlerBudgetExpiry 0 0) ((ctl0 fun c => { c with hnd := true }).onAct 0 0 fun a => { a with hcyc := 4096 }) ∧
    MayHappen schedulerEvent (.lateFaultDelivery 0 0) ((ctl0 id).onAct 0 0 fun a => { a with late := [⟨0, .page, 0, 0#64, 0#64, none⟩] }) := by
  refine ⟨?_, ?_, ?_, ?_⟩
  · apply Exists.intro; unfold schedulerEvent; exact ⟨_, _, _, ⟨by decide, rfl, rfl⟩, ⟨rfl, ⟨_, rfl⟩⟩, by decide, by decide, by decide, by decide, rfl⟩
  · apply Exists.intro; unfold schedulerEvent; exact ⟨_, _, _, ⟨by decide, rfl, rfl⟩, ⟨rfl, ⟨_, rfl⟩⟩, by decide, rfl⟩
  · apply Exists.intro; unfold schedulerEvent; exact ⟨_, _, _, ⟨by decide, rfl, rfl⟩, ⟨rfl, ⟨_, rfl⟩⟩, by decide, by decide, rfl⟩
  · apply Exists.intro; unfold schedulerEvent; exact ⟨_, _, ⟨by decide, rfl, rfl⟩, by decide +kernel, rfl⟩
theorem test_due_steals :
    MayHappen stealEvent (.stealAttempt 0) (bm) ∧
    MayHappen stealEvent (.stealAttempt 0) (withCore1) ∧
    MayHappen stealEvent (.stealRoundRestart 0) (late (on0 bm fun c => { c with thief := { c.thief with wake := 1 } })) ∧
    MayHappen stealEvent (.stealRequest 0) (steals none false) ∧
    MayHappen stealEvent (.stealReply 0) (steals none true) ∧
    MayHappen stealEvent (.stealReply 0) (steals (some (.record ({ pc := 0x10002#64 } : TaskRec).encode)) true) ∧
    MayHappen stealEvent (.stealReply 0) (held (steals (some (.record ({ pc := 0x10002#64 } : TaskRec).encode)) true)) ∧
    MayHappen stealEvent (.stealReply 0) (rangeKept) ∧
    MayHappen stealEvent (.stealReply 0) (rangeGone) := by
  refine ⟨?_, ?_, ?_, ?_, ?_, ?_, ?_, ?_, ?_⟩
  · apply Exists.intro; unfold stealEvent; exact ⟨by decide +kernel, by decide, by decide, rfl⟩
  · apply Exists.intro; unfold stealEvent; exact ⟨by decide +kernel, by decide, by decide, rfl⟩
  · apply Exists.intro; unfold stealEvent; exact ⟨by decide, by decide, rfl⟩
  · apply Exists.intro; unfold stealEvent; exact ⟨_, rfl, rfl, by decide, by decide +kernel, by decide +kernel, by decide +kernel, by decide, rfl⟩
  · apply Exists.intro; unfold stealEvent; exact ⟨_, rfl, rfl, by decide, rfl⟩
  · obtain ⟨n, h⟩ := some_of (show ((steals (some (.record ({ pc := 0x10002#64 } : TaskRec).encode)) true).startLoot 0 ((TaskRec.decode ({ pc := 0x10002#64 } : TaskRec).encode).birth 7 (bm.core 0).spec.budget)).isSome = true by decide +kernel); apply Exists.intro; unfold stealEvent; exact ⟨_, rfl, rfl, by decide, (if_neg (by decide +kernel)).mpr ⟨n, h, rfl⟩⟩
  · apply Exists.intro; unfold stealEvent; exact ⟨_, rfl, rfl, by decide +kernel, (if_pos (by decide +kernel)).mpr ⟨by decide +kernel, by decide +kernel, rfl⟩⟩
  · obtain ⟨n, h⟩ := some_of (show (rangeKept.startLoot 0 (aNode.birth 0 4 7 (bm.core 0).spec.budget)).isSome = true by decide +kernel); apply Exists.intro; unfold stealEvent; exact ⟨_, rfl, rfl, by decide, (if_neg (by decide +kernel)).mpr ⟨by decide +kernel, n, h, rfl⟩⟩
  · apply Exists.intro; unfold stealEvent; exact ⟨_, rfl, rfl, by decide +kernel, (if_pos (by decide +kernel)).mpr rfl⟩
/-- A CSRW of `c.sw`, `c.cpr` and `c.stash` taken again. -/
theorem test_witness_retried : ∀ n ∈ [2, 0x16, 0x18], (csrAt n).open_ = none ∧ (csrAt n).m.mayIssue 0 = true ∧
    (match (csrAt n).fetched with
     | .instr i m => csrNumber i == some n && nextWith (exec i { csrAt n with m := m }) fun _ => true
     | _ => false) = true := by decide +kernel
theorem test_witness_retried_running : ∀ n ∈ [2, 0x16, 0x18], (csrAt n).Running := by
  intro n h; simp only [List.mem_cons, List.not_mem_nil, or_false] at h
  rcases h with rfl | rfl | rfl <;> exact ⟨by decide, by decide, by decide, by decide, by decide⟩

/-! ## Witnesses: homes, packets, streams -/

/-- Packet 0 of a kind, in a phase, addressed to core 0 by its handle; the NI of core 0 has a handler range (`c.hbnd`). -/
def aPacket (kind : PKind) (phase : Nat) : Packet := { kind := kind, phase := phase, gen := (bm.site 0).epoch, dvcn := 0 }
def handlers (m : Module) : Module := on0 m fun c => { c with spec := { c.spec with hbnd := BitVec.ofNat 64 (2 ^ 39 + 0x20000 * 2 ^ 19) } }
def sent (p : Packet) : Module := { handlers bm with pkts := [(0, p)] }
/-- Site 1 works. -/
def joined (m : Module) : Module := m.onSite 1 fun x => { x with state := 6 }
/-- The same where every link of site 0 is disabled. -/
def cut (p : Packet) : Module := (joined (sent p)).onSite 0 fun x => { x with off := [0, 1, 2, 3] }
/-- A home with page 0 of ILV and SEG at a reserved place of its memory. -/
def homeM : Module := ((mapped 0xBD#64).m.onMc 0 fun c => { c with resv := [(0, 0x10000)] }).onSite 0 fun x =>
  { x with tlb := ⟨2 ^ 53 / 65536, false, 0xBD#64⟩ :: x.tlb, home := [(0, 0#16)] }
def inStash (st : Nat) : Module := on0 homeM fun c => { c with stash := [(dramLoc 0 0, { st := st, va := BitVec.ofNat 64 (2 ^ 54), used := 0, data := List.replicate 64 0#8, bad := [] })] }
def withPart (m : Module) (f : Part → Part) : Module := m.onPart 0 f
def aSlot (k : PKind) (ans : Ans) : RSlot := { req := aPacket k 1, at_ := 0, ans := ans }
def inSlot (m : Module) (r : RSlot) : Module := on0 m fun c => { c with ni := { c.ni with slots := [(0, r)] } }
def ports0 (m : Module) (f : Ports → Ports) : Module := on0 m fun c => { c with ports := f c.ports }
def aWire : WirePacket :=
  { kind := 0, ord := false, svcn := 0, dvcn := 0, smod := 3, sl := 0, gen := 1, pkey := 0#32, seq := 0#32, sendx := false, xf := 0, par := 0
    seed := 0#64, sw := 0#64, slot := 0, va := 0#64, size := 8, opc := 0, c := 0#64, d := 0#64, super := false, fault := none, value := 0, payload := [] }
def aRow : CpCmd := { op := .cpy, p := 0x200#64, q := 0x100#64, d := { len := 64, bar := 0x400#64 }, started := true, off := 64 }
def copyRuns : Module := bm.onTile 0 fun t => { t with cpq := [(0, [aRow])] }
def collected : Module :=
  { withPart homeM fun x => { x with pfsBase := BitVec.ofNat 64 (0x8200000000000000 + 2 ^ 54) } with coll := [(0, [(0, { kind := 1 })])] }
/-- A tree with a block for the first 512 MiB of SEG. -/
def treeM : Module :=
  { bm.onSite 0 fun x => { x with ptroot := 1#64 } with
    mem := Mem.write (Mem.write bm.mem (dramLoc 0 0x8000) (leBytes 8 0x20001)) (dramLoc 0 0x20000) (leBytes 8 0xBE) }
theorem taken_of {m : Module} {k : Nat} {p : Packet} {pc : Word} (h1 : ¬ (p.mc = true ∧ p.resend = true ∧ m.vacant p.dst = true))
    (h2 : ¬ accepted m p = false) (h3 : ¬ bit (m.core p.dst).spec.hbnd 39 = false) (h4 : m.handlerAt p = .ok pc)
    (h5 : ¬ 8 ≤ ((m.handlerRead p).core p.dst).ni.hq.length) :
    packetEvent.messageTaken m k p
      ((((m.handlerRead p).ackPkt k p).setLat p).onCore p.dst fun c => { c with ni := { c.ni with hq := c.ni.hq ++ [p] } }) := by
  unfold packetEvent.messageTaken; rw [if_neg h1, if_neg h2, if_neg h3]; simp only [h4]; rw [if_neg h5]; trivial

theorem test_due_requests :
    MayHappen homeEvent (.readRequest 0) (sent (aPacket .read 2)) ∧
    MayHappen homeEvent (.checkRequest 0) (sent (aPacket .check 2)) ∧
    MayHappen homeEvent (.atomicRequest 0) (sent (aPacket .atomic 2)) ∧
    MayHappen homeEvent (.writeRequest false 0) (sent (aPacket .write 2)) ∧
    MayHappen homeEvent (.writeRequest true 0) ({ bm with late := [{ cid := 0, aid := 0, va := 0, super := true, loc := dramLoc 0 0, op := .store [1#8], due := 0 }] }) ∧
    MayHappen homeEvent (.hostCxlMemAccess 0 0 8 false 0) ({ withPart homeM fun x => { x with pcie := 0x8000#16 } with pcie := [(0, 1)] }) ∧
    MayHappen homeEvent (.tamvexPacket 0 aWire) ({ bm with tvx := [(0, BitVec.ofNat 32 (1 + 3 * 2 ^ 7))] }) := by
  refine ⟨?_, ?_, ?_, ?_, ?_, ?_, ?_⟩
  · apply Exists.intro; unfold homeEvent; exact ⟨_, ⟨rfl, rfl, rfl⟩, rfl⟩
  · apply Exists.intro; unfold homeEvent; exact ⟨_, ⟨rfl, rfl, rfl⟩, rfl⟩
  · apply Exists.intro; unfold homeEvent; exact ⟨_, ⟨rfl, rfl, rfl⟩, rfl⟩
  · apply Exists.intro; unfold homeEvent; exact (if_neg (by decide)).mpr ⟨_, ⟨rfl, rfl, rfl⟩, rfl⟩
  · apply Exists.intro; unfold homeEvent; exact (if_pos rfl).mpr ⟨_, rfl, Or.inr (by decide), by decide +kernel, by decide, by decide, rfl⟩
  · obtain ⟨v, n, h⟩ := ok_of (show answers (hostServed 0 0 8 false 0 { withPart homeM fun x => { x with pcie := 0x8000#16 } with pcie := [(0, 1)] }) = true by decide +kernel); apply Exists.intro; unfold homeEvent; exact ⟨0, 0, 0, v, rfl, by decide +kernel, by decide +kernel, rfl, by decide, by decide, by decide, by decide, by decide, h⟩
  · apply Exists.intro; unfold homeEvent; exact ⟨0, by decide +kernel, by decide, by decide, by decide, by decide, by decide, rfl⟩
theorem test_due_translation :
    MayHappen homeEvent (.pageTableWalk 0 (2 ^ 54 + 5)) (treeM) ∧
    MayHappen homeEvent (.tlbiCompletion 0) (bm.onSite 0 fun x => { x with tlbi := some none }) := by
  refine ⟨?_, ?_⟩
  · apply Exists.intro; unfold homeEvent; exact ⟨0xBE#64, true, Or.inl (by decide), by decide, by decide, by decide, rfl⟩
  · apply Exists.intro; unfold homeEvent; exact ⟨_, rfl, by decide, rfl⟩
theorem test_due_stash :
    MayHappen homeEvent (.stashRecall 0 (dramLoc 0 0) true) (inStash 3) ∧
    MayHappen homeEvent (.stashWriteBack 0 (dramLoc 0 0)) (inStash 3) ∧
    MayHappen homeEvent (.stashWriteBack 0 (dramLoc 0 0)) (on0 (inStash 3) fun c => { c with flushes := [(0, dramLoc 0 0, true)] }) ∧
    MayHappen homeEvent (.reservationRecallDeferral 0 (dramLoc 0 0)) ({ inStash 2 with recalls := [(dramLoc 0 0, 0, true)] }) ∧
    MayHappen homeEvent (.reservationRecallDeferral 0 (dramLoc 0 0)) (on0 (inStash 2) fun c => { c with prefs := [(dramLoc 0 0, 0, true)] }) := by
  refine ⟨?_, ?_, ?_, ?_, ?_⟩
  · apply Exists.intro; unfold homeEvent; exact ⟨⟨_, rfl⟩, by decide, rfl⟩
  · apply Exists.intro; unfold homeEvent; exact Or.inl ⟨by decide, _, rfl, rfl, rfl⟩
  · apply Exists.intro; unfold homeEvent; exact Or.inr ⟨0, 0, true, _, rfl, Prod.ext (by decide +kernel) rfl, rfl⟩
  · apply Exists.intro; unfold homeEvent; exact Or.inr ⟨_, _, rfl, by decide, rfl, rfl⟩
  · apply Exists.intro; unfold homeEvent; exact Or.inl ⟨by decide, 0, true, _, _, rfl, rfl, by decide +kernel, rfl⟩
/-- An arrival at an empty object is a combined arrival with status 2. -/
theorem test_due_barriers :
    MayHappen homeEvent (.collectiveCombine 0) (late (bm.onSite 0 fun x => { x with comb := [⟨0x400, 1, 0, [(0, 0)], none⟩] })) ∧
    MayHappen homeEvent (.barrierCompletionMulticast 0 0x400) ({ bm with bdone := [⟨0x400, 0, 3⟩] }) ∧
    MayHappen homeEvent (.pendingByteDecrement 0 0) (copyRuns) := by
  refine ⟨?_, ?_, ?_⟩
  · apply Exists.intro; unfold homeEvent; exact ⟨_, _, _, _, rfl, rfl, rfl⟩
  · apply Exists.intro; unfold homeEvent; exact ⟨by decide, rfl⟩
  · apply Exists.intro; unfold homeEvent; exact ⟨_, 64, bm.lmAt 0 0x400, false, copyRuns, _, rfl, by decide +kernel, by decide +kernel, rfl, rfl⟩
theorem test_due_reports :
    MayHappen homeEvent (.trapReport 0) (bm.onSite 0 fun x => { x with faultq := [{ kind := 1 }] }) ∧
    MayHappen homeEvent (.collectorDelivery 0 0) (collected) := by
  refine ⟨?_, ?_⟩
  · apply Exists.intro; unfold homeEvent; exact ⟨_, _, rfl, by decide, rfl⟩
  · obtain ⟨u, o, h⟩ := ok_of (show answers (engineWrite (dramLoc 0 0) ({ kind := 1 } : TrapRec).encode collected) = true by decide +kernel); apply Exists.intro; unfold homeEvent; exact ⟨0, (0, { kind := 1 }), 0, 0, 0, collected, 0xBD#64, o, by decide, by decide, by decide, by decide, by decide, by decide, by decide, by decide +kernel, h, rfl⟩
theorem test_due_network :
    MayHappen packetEvent (.packetInjection 0) (sent (aPacket .message 0)) ∧
    MayHappen packetEvent (.routerForward 0) (joined (sent { aPacket .message 1 with dsite := 1 })) ∧
    MayHappen packetEvent (.routerForward 0) (joined (sent { aPacket .streamOpen 1 with dsite := 1 })) ∧
    MayHappen packetEvent (.routerForward 0) (cut { aPacket .message 1 with dsite := 1 }) ∧
    MayHappen packetEvent (.routerForward 0) (sent { aPacket .message 1 with mc := true, dests := [128] }) ∧
    MayHappen packetEvent (.routerForward 0) (sent { aPacket .message 1 with det := true }) ∧
    MayHappen packetEvent (.routerForward 0) (sent (aPacket .message 1)) ∧
    MayHappen packetEvent (.routerForward 0) (sent { aPacket .message 1 with dmod := 3 }) := by
  refine ⟨?_, ?_, ?_, ?_, ?_, ?_, ?_, ?_⟩
  · apply Exists.intro; unfold packetEvent; exact ⟨_, rfl, rfl, rfl⟩
  · apply Exists.intro; unfold packetEvent; exact ⟨_, rfl, rfl, by decide +kernel, (if_neg (by decide)).mpr ((if_neg (by decide +kernel)).mpr ⟨fun h => (nomatch h), rfl⟩)⟩
  · apply Exists.intro; unfold packetEvent; exact ⟨_, rfl, rfl, by decide +kernel, (if_neg (by decide)).mpr ((if_neg (by decide +kernel)).mpr ⟨fun _ => by decide +kernel, rfl⟩)⟩
  · apply Exists.intro; unfold packetEvent; exact ⟨_, rfl, rfl, by decide +kernel, (if_neg (by decide)).mpr ((if_pos (by decide +kernel)).mpr rfl)⟩
  · apply Exists.intro; unfold packetEvent; exact ⟨_, rfl, rfl, by decide +kernel, (if_pos (by decide)).mpr rfl⟩
  · apply Exists.intro; unfold packetEvent; exact ⟨_, rfl, rfl, by decide +kernel, (if_neg (by decide)).mpr ((if_pos rfl).mpr rfl)⟩
  · apply Exists.intro; unfold packetEvent; exact ⟨_, rfl, rfl, by decide +kernel, (if_neg (by decide)).mpr ((if_neg (by decide)).mpr ((if_pos (by decide)).mpr rfl))⟩
  · apply Exists.intro; unfold packetEvent; exact ⟨_, rfl, rfl, by decide +kernel, (if_neg (by decide)).mpr ((if_neg (by decide)).mpr ((if_neg (by decide)).mpr rfl))⟩
theorem test_due_replies :
    MayHappen packetEvent (.retryReply 0) (sent (aPacket .message 4)) ∧
    MayHappen packetEvent (.retryReply 0) (inSlot (sent (aPacket .retry 2)) (aSlot .read .none_)) ∧
    MayHappen packetEvent (.nack 0) (sent { aPacket .message 4 with mc := true }) ∧
    MayHappen packetEvent (.retryResend 0) (sent (aPacket .message 3)) ∧
    MayHappen packetEvent (.multicastResend 0) (sent { aPacket .message 3 with mc := true }) ∧
    MayHappen packetEvent (.migrationResend 0 3) (slot (sent (aPacket .migration 3)) 3 { st := .migrating, mig := some 0 }) := by
  refine ⟨?_, ?_, ?_, ?_, ?_, ?_⟩
  · apply Exists.intro; unfold packetEvent; exact Or.inl ⟨_, rfl, rfl, rfl, rfl⟩
  · apply Exists.intro; unfold packetEvent; exact Or.inr ⟨_, _, ⟨rfl, rfl, rfl⟩, rfl, rfl⟩
  · apply Exists.intro; unfold packetEvent; exact ⟨_, ⟨rfl, rfl, rfl⟩, rfl, rfl⟩
  · apply Exists.intro; unfold packetEvent; exact ⟨_, rfl, rfl, rfl, by decide, by decide, by decide, rfl⟩
  · apply Exists.intro; unfold packetEvent; exact ⟨_, rfl, rfl, rfl, by decide, by decide, rfl⟩
  · apply Exists.intro; unfold packetEvent; exact ⟨_, _, rfl, ⟨rfl, rfl, rfl⟩, by decide, by decide, rfl⟩
theorem test_due_answers :
    MayHappen packetEvent (.reply 0) (sent (aPacket .reply 2)) ∧
    MayHappen packetEvent (.reply 0) (inSlot (sent (aPacket .reply 2)) (aSlot .message .none_)) ∧
    MayHappen packetEvent (.reply 0) (inSlot (sent (aPacket .reply 2)) (aSlot .read .none_)) ∧
    MayHappen packetEvent (.replySlotTimeout 0 0) (late (inSlot bm (aSlot .message .none_))) ∧
    MayHappen packetEvent (.replySlotTimeout 0 0) (late (inSlot bm (aSlot .migration .none_))) ∧
    MayHappen packetEvent (.replySlotTimeout 0 0) (late (inSlot bm (aSlot .steal .none_))) ∧
    MayHappen packetEvent (.replySlotTimeout 0 0) (late (inSlot bm (aSlot .read .none_))) := by
  refine ⟨?_, ?_, ?_, ?_, ?_, ?_, ?_⟩
  · apply Exists.intro; unfold packetEvent; exact ⟨_, ⟨rfl, rfl, rfl⟩, rfl⟩
  · apply Exists.intro; unfold packetEvent; exact ⟨_, ⟨rfl, rfl, rfl⟩, rfl⟩
  · apply Exists.intro; unfold packetEvent; exact ⟨_, ⟨rfl, rfl, rfl⟩, rfl⟩
  · apply Exists.intro; unfold packetEvent; exact ⟨_, rfl, rfl, by decide, by decide, rfl⟩
  · apply Exists.intro; unfold packetEvent; exact ⟨_, rfl, rfl, by decide, by decide, rfl⟩
  · apply Exists.intro; unfold packetEvent; exact ⟨_, rfl, rfl, by decide, by decide, rfl⟩
  · apply Exists.intro; unfold packetEvent; exact ⟨_, rfl, rfl, by decide, by decide, rfl⟩
/-- A message is queued, refused, contained or diverted. -/
theorem test_due_messages :
    MayHappen packetEvent (.activeMessage 0) (sent { aPacket .message 2 with payload := leBytes 8 0x100, len := 8 }) ∧
    MayHappen packetEvent (.activeMessage 0) ({ bm with pkts := [(0, aPacket .message 2)] }) ∧
    MayHappen packetEvent (.activeMessage 0) (sent { aPacket .message 2 with gen := 7 }) ∧
    MayHappen packetEvent (.multicastCopy 0) (sent { aPacket .message 2 with mc := true, payload := leBytes 8 0x100, len := 8 }) ∧
    MayHappen packetEvent (.handlerCreation 0) (on0 (handlers bm) fun c => { c with ni := { c.ni with hq := [{ aPacket .message 2 with payload := leBytes 8 0x100, len := 8 }] } }) ∧
    MayHappen packetEvent (.handlerCreation 0) (on0 (handlers bm) fun c => { c with ni := { c.ni with hq := [{ aPacket .message 2 with payload := leBytes 8 3, len := 8 }] } }) ∧
    MayHappen packetEvent (.multicastCopy 0) (sent { aPacket .message 2 with mc := true, resend := true, dl := 1, dvcn := 1 }) ∧
    MayHappen packetEvent (.sendxLanding 0) (sent { aPacket .message 2 with opc := 1, payload := leBytes 8 0x100 ++ leBytes 8 7, len := 16 }) := by
  refine ⟨?_, ?_, ?_, ?_, ?_, ?_, ?_, ?_⟩
  · apply Exists.intro; unfold packetEvent; refine ⟨_, ⟨⟨rfl, rfl, rfl⟩, by decide⟩, rfl, by decide, ?_⟩; exact taken_of (by decide) (by decide) (by decide) rfl (by decide)
  · apply Exists.intro; unfold packetEvent; refine ⟨_, ⟨⟨rfl, rfl, rfl⟩, by decide⟩, rfl, by decide, ?_⟩; unfold packetEvent.messageTaken; rw [if_neg (by decide), if_neg (by decide), if_pos (by decide)]
  · apply Exists.intro; unfold packetEvent; refine ⟨_, ⟨⟨rfl, rfl, rfl⟩, by decide⟩, rfl, by decide, ?_⟩; unfold packetEvent.messageTaken; rw [if_neg (by decide), if_pos (by decide)]
  · apply Exists.intro; unfold packetEvent; refine ⟨_, ⟨⟨rfl, rfl, rfl⟩, by decide⟩, rfl, ?_⟩; exact taken_of (by decide) (by decide) (by decide) rfl (by decide)
  · apply Exists.intro; unfold packetEvent; exact Or.inr ⟨_, _, _, _, by decide, rfl, rfl, rfl, rfl⟩
  · apply Exists.intro; unfold packetEvent; exact Or.inl ⟨_, _, _, _, by decide, rfl, rfl, rfl, rfl⟩
  · apply Exists.intro; unfold packetEvent; refine ⟨_, ⟨⟨rfl, rfl, rfl⟩, by decide⟩, rfl, ?_⟩; unfold packetEvent.messageTaken; rw [if_pos (by decide)]
  · apply Exists.intro; unfold packetEvent; refine ⟨_, ⟨⟨rfl, rfl, rfl⟩, by decide⟩, rfl, rfl, ?_⟩; rw [if_neg (by decide), if_neg (by decide)]; exact ⟨_, rfl, rfl⟩
theorem test_due_wakeups :
    MayHappen packetEvent (.wakeUpArrival 0) (sent (aPacket .wakeup 2)) ∧
    MayHappen packetEvent (.wakeUpHeldPush 0) (on0 bm fun c => { c with ni := { c.ni with held := [aPacket .wakeup 2] } }) ∧
    MayHappen packetEvent (.migrationPacket 0) (sent { aPacket .migration 2 with payload := leBytes 128 0 }) ∧
    MayHappen packetEvent (.migrationPacket 0) (sent { aPacket .migration 2 with gen := 7 }) := by
  refine ⟨?_, ?_, ?_, ?_⟩
  · apply Exists.intro; unfold packetEvent; exact ⟨_, ⟨⟨rfl, rfl, rfl⟩, by decide⟩, rfl⟩
  · apply Exists.intro; unfold packetEvent; exact ⟨_, _, rfl, by decide, rfl⟩
  · apply Exists.intro; unfold packetEvent; exact ⟨_, ⟨⟨rfl, rfl, rfl⟩, by decide⟩, (if_neg (by decide +kernel)).mpr rfl⟩
  · apply Exists.intro; unfold packetEvent; exact ⟨_, ⟨⟨rfl, rfl, rfl⟩, by decide⟩, (if_pos (by decide +kernel)).mpr rfl⟩
theorem test_due_streams :
    MayHappen streamEvent (.streamOpen 0) (sent (aPacket .streamOpen 2)) ∧
    MayHappen streamEvent (.streamAttach 0 0) (ports0 (bm.onCore 1 fun c => { c with ports := { c.ports with send := [{ aid := 5, dcid := 0, n := 0, route := 1, sid := 5 }] } }) fun p => { p with routes := [⟨1, 5, 0⟩], recv := [(0, { aid := 0, from_ := none })] }) ∧
    MayHappen streamEvent (.streamFlitSend 0 0) (ports0 bm fun p => { p with send := [{ aid := 5, dcid := 1, n := 0, route := 2, closing := true }] }) ∧
    MayHappen streamEvent (.streamFlitSend 0 0) (ports0 bm fun p => { p with send := [{ aid := 5, dcid := 1, n := 0, route := 2, words := [1#64], closing := true }] }) ∧
    MayHappen streamEvent (.streamDataArrival 0) (ports0 { bm with flits := [⟨1, 5, 0, 0, [1#64], false, []⟩] } fun p => { p with recv := [(0, { aid := 0, from_ := none, src := some (1, 5) })] }) ∧
    MayHappen streamEvent (.streamClose 0) (ports0 { bm with flits := [⟨1, 5, 0, 0, [], true, []⟩] } fun p => { p with recv := [(0, { aid := 0, from_ := none, src := some (1, 5) })] }) ∧
    MayHappen streamEvent (.streamCredit 0) ({ bm with credits := [(0, 5, 8)] }) ∧
    MayHappen streamEvent (.streamIdleBreak 0 0) (late (ports0 (bm.onCore 1 fun c => { c with ports := { c.ports with recv := [(0, { aid := 0, from_ := none, src := some (0, 5) })] } }) fun p => { p with send := [{ aid := 5, dcid := 1, n := 0, route := 2, sid := 5 }] })) := by
  refine ⟨?_, ?_, ?_, ?_, ?_, ?_, ?_, ?_⟩
  · apply Exists.intro; unfold streamEvent; exact ⟨_, ⟨⟨rfl, rfl, rfl⟩, by decide⟩, rfl⟩
  · apply Exists.intro; unfold streamEvent; exact ⟨_, _, _, _, rfl, rfl, rfl, rfl, rfl, rfl, Or.inl rfl, rfl⟩
  · apply Exists.intro; unfold streamEvent; exact ⟨_, rfl, rfl, rfl, rfl⟩
  · apply Exists.intro; unfold streamEvent; exact ⟨_, rfl, rfl, Or.inr (Or.inl rfl), rfl⟩
  · apply Exists.intro; unfold streamEvent; exact ⟨_, _, rfl, rfl, rfl, rfl⟩
  · apply Exists.intro; unfold streamEvent; exact ⟨_, _, rfl, rfl, rfl, rfl⟩
  · apply Exists.intro; unfold streamEvent; exact ⟨_, _, _, rfl, rfl⟩
  · apply Exists.intro; unfold streamEvent; exact ⟨_, rfl, Or.inr rfl, by decide, fun r h _ => by injection h with h; subst h; decide, rfl⟩

/-! ## Witnesses: events of the engines -/

def mx (l : Tab (List MxCmd)) (f : Tile → Tile := id) : Module := bm.onTile 0 fun t => f { t with mxq := l }
def mxc (op : MxOp) (started : Bool) : MxCmd := { op := op, p := BitVec.ofNat 64 (8 * 2 ^ 24), q := BitVec.ofNat 64 regionWord, started := started }
def anLd : MxCmd := { op := .ld, p := BitVec.ofNat 64 (8 * 2 ^ 24), q := BitVec.ofNat 64 latchWord }
def aDrain (pos : Nat) : MxCmd := { op := .drn, p := BitVec.ofNat 64 drainP, q := BitVec.ofNat 64 drainQ, started := true, pos := pos }
def aLatch : Latch := { ty := 0, k := 8, nb := 1, sc := false, elems := List.replicate 256 0, scales := [] }
def aStep : MxStep := { slot := 0, job := 1, row := 0, col := 0, chunk := 0, at_ := 0, part := 0, acc := [(0, 1#32)], flags := 0 }
def cp (c : CpCmd) (f : Tile → Tile := id) : Module := bm.onTile 0 fun t => f { t with cpq := [(0, [c])] }
def aCopy : CpCmd := { op := .cpy, p := 0x200#64, q := 0x100#64, d := { len := 64 }, started := true }
/-- Where a drain's next segment goes, and its bytes. -/
def segment (m : Module) (tile k : Nat) (c : MxCmd) : Nat × List Byte :=
  let t := m.tile tile
  let r := mxReg c.q
  let d := mxDst c.p c.q
  let row := c.pos / r.ncol
  let col := 32 * (c.pos % r.ncol)
  (d.off + row * d.pitch + col * d.w, (packElems (8 * d.w) 32 fun e =>
    drainElem d c.by_ (row * (32 * r.ncol) + col + e)
      (t.accAt (accKey (t.gangOf k).1 (t.gangOf k).2 (32 * r.row + row) (32 * r.col + col + e))).toNat).1)
def segWords (m : Module) (tile k : Nat) (c : MxCmd) : List Nat :=
  let t := m.tile tile
  let r := mxReg c.q
  let row := c.pos / r.ncol
  let col := 32 * (c.pos % r.ncol)
  (upFrom 0 32).map fun e => 64 + accKey (t.gangOf k).1 (t.gangOf k).2 (32 * r.row + row) (32 * r.col + col + e)
def faults {α : Type} (x : Except Stop α) : Bool := match x with
  | .error (.fault _) => true
  | _ => false
theorem fault_of {α : Type} {x : Except Stop α} (h : faults x = true) : ∃ f, x = .error (.fault f) := by
  cases x with
  | ok a => cases h
  | error e => cases e <;> first | exact ⟨_, rfl⟩ | cases h
theorem answer_of {α : Type} {x : Option α} (p : α → Bool) (h : x.any p = true) : ∃ a, x = some a ∧ p a = true := by
  cases x with
  | none => cases h
  | some a => exact ⟨a, rfl, h⟩
def isMoved (x : CpCmd × CpNext) : Bool := match x.2 with
  | .moved _ _ => true
  | _ => false
def isStall (x : CpCmd × CpNext) : Bool := match x.2 with
  | .stall _ _ => true
  | _ => false
def isLate (x : CpCmd × CpNext) : Bool := match x.2 with
  | .late _ _ _ => true
  | _ => false
theorem moved_of {x : Option (CpCmd × CpNext)} (h : x.any isMoved = true) : ∃ c c' n, x = some (c, .moved c' n) := by
  obtain ⟨⟨c, n⟩, rfl, h⟩ := answer_of _ h
  cases n <;> first | exact ⟨_, _, _, rfl⟩ | cases h
theorem stall_of {x : Option (CpCmd × CpNext)} (h : x.any isStall = true) : ∃ c c' n, x = some (c, .stall c' n) := by
  obtain ⟨⟨c, n⟩, rfl, h⟩ := answer_of _ h
  cases n <;> first | exact ⟨_, _, _, rfl⟩ | cases h
theorem late_of {x : Option (CpCmd × CpNext)} (h : x.any isLate = true) : ∃ c y a n, x = some (c, .late y a n) := by
  obtain ⟨⟨c, n⟩, rfl, h⟩ := answer_of _ h
  cases n <;> first | exact ⟨_, _, _, _, rfl⟩ | cases h

/-- A cancelled command, one whose start checks fail, MXLD, MXMMA, MXZERO, MXROT. -/
theorem test_due_matrix_starts :
    MayHappen matrixEvent (.matrixCommandStart 0 0) (mx [(0, [{ mxc .zero false with cancel := true }])]) ∧
    MayHappen matrixEvent (.matrixCommandStart 0 0) (mx [(0, [{ mxc .zero false with q := BitVec.ofNat 64 (2 ^ 3 + 11 * 2 ^ 6 + 2 ^ 10) }])]) ∧
    MayHappen matrixEvent (.matrixCommandStart 0 0) (mx [(0, [anLd])]) ∧
    MayHappen matrixEvent (.matrixCommandStart 0 0) (mx [(0, [mxc .mma false])] fun t => { t with latch := [(0, aLatch)] }) ∧
    MayHappen matrixEvent (.matrixCommandStart 0 0) (mx [(0, [mxc .zero false])]) ∧
    MayHappen matrixEvent (.matrixCommandStart 0 0) (mx [(0, [mxc (.rot 2) false])]) := by
  refine ⟨?_, ?_, ?_, ?_, ?_, ?_⟩
  · apply Exists.intro; unfold matrixEvent; exact Or.inl ⟨_, rfl, rfl, rfl, rfl, rfl⟩
  · apply Exists.intro; unfold matrixEvent; exact Or.inr ⟨_, ⟨rfl, rfl, rfl, rfl, by decide, by decide⟩, (if_pos (by decide)).mpr rfl⟩
  · obtain ⟨l, o, h⟩ := ok_of (show answers (mxImage anLd ((mx [(0, [anLd])]).setJob 0 false 0 .running)) = true by decide +kernel); apply Exists.intro; unfold matrixEvent; exact Or.inr ⟨_, ⟨rfl, rfl, rfl, rfl, by decide, by decide⟩, (if_neg (by decide)).mpr ⟨l, o, h, rfl⟩⟩
  · apply Exists.intro; unfold matrixEvent; exact Or.inr ⟨_, ⟨rfl, rfl, rfl, rfl, by decide, by decide⟩, (if_neg (by decide)).mpr rfl⟩
  · apply Exists.intro; unfold matrixEvent; exact Or.inr ⟨_, ⟨rfl, rfl, rfl, rfl, by decide, by decide⟩, (if_neg (by decide)).mpr rfl⟩
  · apply Exists.intro; unfold matrixEvent; exact Or.inr ⟨_, ⟨rfl, rfl, rfl, rfl, by decide, by decide⟩, (if_neg (by decide)).mpr rfl⟩
theorem test_due_latches :
    MayHappen matrixEvent (.latchSwap 0 0) (mx [(0, [{ anLd with started := true }])] fun t => { t with staging := [(0, aLatch)] }) ∧
    MayHappen matrixEvent (.mxrotRendezvous 0 0) (mx [(0, [mxc (.rot 2) true]), (1, [mxc (.rot 2) true])]) ∧
    MayHappen matrixEvent (.latchRotationSwap 0) (mx [(0, [mxc (.rot 2) true]), (1, [mxc (.rot 2) true])] fun t => { t with rot := [(0, 2, 0)] }) ∧
    MayHappen matrixEvent (.gangFormation 0 0) (mx [(0, [mxc (.gang 2) true]), (1, [mxc (.gang 2) true])]) := by
  refine ⟨?_, ?_, ?_, ?_⟩
  · apply Exists.intro; unfold matrixEvent; exact ⟨_, _, rfl, rfl, rfl, by decide, by decide, rfl, rfl⟩
  · apply Exists.intro; unfold matrixEvent; refine ⟨_, 2, rfl, rfl, rfl, by decide, ?_, rfl⟩; intro j h; rcases (show j = 0 ∨ j = 1 by simpa [subRing, upFrom] using h) with rfl | rfl <;> exact ⟨_, rfl, rfl⟩
  · apply Exists.intro; unfold matrixEvent; exact ⟨_, _, _, _, rfl, by decide, rfl, rfl⟩
  · apply Exists.intro; unfold matrixEvent; refine ⟨_, 2, rfl, rfl, rfl, ?_, rfl⟩; intro j h; rcases (show j = 0 ∨ j = 1 by simpa [upFrom] using h) with rfl | rfl <;> exact ⟨⟨_, rfl, rfl⟩, by decide⟩
/-- Under a power clamp a boundary passes; without one a step starts, meets a fault, and takes effect. -/
theorem test_due_matrix_steps :
    MayHappen matrixEvent (.matrixStepGrant 0) ({ bm with clamp := true }) ∧
    MayHappen matrixEvent (.matrixStepGrant 0) (mx [(0, [{ mxc .mma true with k := 8, cls := 1 }])] fun t => { t with latch := [(0, aLatch)] }) ∧
    MayHappen matrixEvent (.matrixStepGrant 0) (mx [(0, [{ mxc .mma true with p := BitVec.ofNat 64 (8 * 2 ^ 24 + 0x7FFF8), k := 8, cls := 1 }])] fun t => { t with latch := [(0, aLatch)] }) ∧
    MayHappen matrixEvent (.matrixStepEffect 0) (mx [(0, [{ mxc .mma true with pos := 1, k := 8, cls := 1 }])] fun t => { t with latch := [(0, aLatch)], steps := [aStep] }) ∧
    MayHappen matrixEvent (.matrixLateFault 0 0) (mx [(0, [{ mxc .mma true with dead := some (.page, 0#64) }])]) ∧
    MayHappen matrixEvent (.mxzeroCompletion 0 0) (mx [(0, [mxc .zero true])]) := by
  refine ⟨?_, ?_, ?_, ?_, ?_, ?_⟩
  · apply Exists.intro; unfold matrixEvent; exact ⟨by decide, by decide, (if_pos ⟨by decide, by decide⟩).mpr rfl⟩
  · obtain ⟨⟨⟨lead, size⟩, t⟩, h1, h2⟩ := answer_of (x := (mx [(0, [{ mxc .mma true with k := 8, cls := 1 }])] fun t => { t with latch := [(0, aLatch)] }).mxGrant 0) (fun x => (x.2.mxRun x.1.1).any fun c => answers (mxStep 0 x.1.1 x.1.2 c ((mx [(0, [{ mxc .mma true with k := 8, cls := 1 }])] fun t => { t with latch := [(0, aLatch)] }).setTile 0 { x.2 with skip := false }))) (by decide +kernel); obtain ⟨c, h3, h4⟩ := answer_of _ h2; obtain ⟨st, n, h5⟩ := ok_of h4; apply Exists.intro; unfold matrixEvent; exact ⟨by decide, by decide, (if_neg (by decide)).mpr ⟨lead, size, t, c, h1, h3, Or.inl ⟨st, n, h5, rfl⟩⟩⟩
  · obtain ⟨⟨⟨lead, size⟩, t⟩, h1, h2⟩ := answer_of (x := (mx [(0, [{ mxc .mma true with p := BitVec.ofNat 64 (8 * 2 ^ 24 + 0x7FFF8), k := 8, cls := 1 }])] fun t => { t with latch := [(0, aLatch)] }).mxGrant 0) (fun x => (x.2.mxRun x.1.1).any fun c => faults (mxStep 0 x.1.1 x.1.2 c ((mx [(0, [{ mxc .mma true with p := BitVec.ofNat 64 (8 * 2 ^ 24 + 0x7FFF8), k := 8, cls := 1 }])] fun t => { t with latch := [(0, aLatch)] }).setTile 0 { x.2 with skip := false }))) (by decide +kernel); obtain ⟨c, h3, h4⟩ := answer_of _ h2; obtain ⟨x, h5⟩ := fault_of h4; apply Exists.intro; unfold matrixEvent; exact ⟨by decide, by decide, (if_neg (by decide)).mpr ⟨lead, size, t, c, h1, h3, Or.inr ⟨x, h5, rfl⟩⟩⟩
  · apply Exists.intro; unfold matrixEvent; exact ⟨_, _, rfl, by decide, rfl⟩
  · apply Exists.intro; unfold matrixEvent; exact ⟨_, _, _, rfl, rfl, by decide, rfl⟩
  · apply Exists.intro; unfold matrixEvent; exact ⟨_, rfl, rfl, rfl, by decide, rfl⟩
/-- A segment, the end without and with a wake-up to send, and the end after it. -/
theorem test_due_drains :
    MayHappen matrixEvent (.matrixDrainSegment 0 0) (mx [(0, [aDrain 0])]) ∧
    MayHappen matrixEvent (.drainCompletion 0 0) (mx [(0, [aDrain 32])]) ∧
    MayHappen matrixEvent (.drainCompletion 0 0) (mx [(0, [aDrain 33])]) := by
  refine ⟨?_, ?_, ?_⟩
  · obtain ⟨u, n, h⟩ := ok_of (show answers (drainPut (aDrain 0) (segment (mx [(0, [aDrain 0])]) 0 0 (aDrain 0)).1 (segment (mx [(0, [aDrain 0])]) 0 0 (aDrain 0)).2 ((mx [(0, [aDrain 0])]).marksRead 0 (segWords (mx [(0, [aDrain 0])]) 0 0 (aDrain 0)))) = true by decide +kernel); apply Exists.intro; unfold matrixEvent; exact ⟨_, n, u, rfl, rfl, rfl, by decide, by decide +kernel, h, rfl⟩
  · obtain ⟨u, n, h⟩ := ok_of (show answers (drainPut (aDrain 32) (0x8000 + 32 * 128) ((mx [(0, [aDrain 32])]).mxTrailer 0 0 {}) (mx [(0, [aDrain 32])])) = true by decide +kernel); apply Exists.intro; unfold matrixEvent; exact ⟨_, rfl, rfl, rfl, Or.inl ⟨rfl, n, u, h, rfl⟩⟩
  · apply Exists.intro; unfold matrixEvent; exact ⟨_, rfl, rfl, rfl, Or.inr ⟨by decide, by decide, rfl⟩⟩
/-- A cancelled command, and a command that starts. -/
theorem test_due_copy_starts :
    MayHappen copyEvent (.copyCommandStart 0 0) (cp { aCopy with started := false, cancel := true }) ∧
    MayHappen copyEvent (.copyCommandStart 0 0) (cp { aCopy with started := false }) := by
  refine ⟨?_, ?_⟩
  · apply Exists.intro; unfold copyEvent; refine ⟨_, rfl, rfl, rfl, ?_⟩; rw [if_pos (by decide)]
  · apply Exists.intro; unfold copyEvent; refine ⟨_, rfl, rfl, rfl, ?_⟩; rw [if_neg (by decide)]; exact ⟨by decide, by decide, rfl⟩
theorem test_due_copies :
    MayHappen copyEvent (.cpyxPinning 0 0) (cp { aCopy with op := .cpyx }) ∧
    MayHappen copyEvent (.copyPiece 0 0) (cp aCopy) ∧
    MayHappen copyEvent (.copyStall 0 0) (cp { aCopy with q := BitVec.ofNat 64 (2 ^ 54) }) ∧
    MayHappen copyEvent (.copyLateFault 0 0) (cp { aCopy with q := BitVec.ofNat 64 (5 * 2 ^ 60) }) ∧
    MayHappen copyEvent (.dtldTableChange 0 0) (cp { aCopy with op := .dtld, h := 0x10#64, d := { len := 1 }, off := 16, entries := [0] }) ∧
    MayHappen copyEvent (.copyCommandCompletion 0 0) (cp { aCopy with op := .dtld, pinned := true }) ∧
    MayHappen copyEvent (.copyCommandCompletion 0 0) (cp { aCopy with off := 64, dec := 64 }) := by
  refine ⟨?_, ?_, ?_, ?_, ?_, ?_, ?_⟩
  · obtain ⟨c, c', n, h⟩ := moved_of (show ((cp { aCopy with op := .cpyx }).cpAction 0 0 true).any isMoved = true by decide +kernel); apply Exists.intro; unfold copyEvent; exact ⟨c, c', n, h, rfl⟩
  · obtain ⟨c, c', n, h⟩ := moved_of (show ((cp aCopy).cpAction 0 0 false).any isMoved = true by decide +kernel); apply Exists.intro; unfold copyEvent; exact ⟨c, c', n, h, rfl⟩
  · obtain ⟨c, c', n, h⟩ := stall_of (show ((cp { aCopy with q := BitVec.ofNat 64 (2 ^ 54) }).cpEither 0 0).any isStall = true by decide +kernel); apply Exists.intro; unfold copyEvent; exact ⟨c, c', n, h, rfl⟩
  · obtain ⟨c, y, a, n, h⟩ := late_of (show ((cp { aCopy with q := BitVec.ofNat 64 (5 * 2 ^ 60) }).cpEither 0 0).any isLate = true by decide +kernel); apply Exists.intro; unfold copyEvent; exact ⟨c, y, a, n, h, rfl⟩
  · apply Exists.intro; unfold copyEvent; exact ⟨_, rfl, rfl, by decide, rfl, by decide, rfl⟩
  · apply Exists.intro; unfold copyEvent; exact ⟨_, rfl, rfl, by rw [if_pos (by decide)], rfl⟩
  · apply Exists.intro; unfold copyEvent; exact ⟨_, rfl, rfl, by rw [if_neg (by decide)]; decide, rfl⟩

/-! ## Witnesses: graphs, partitions, management -/

/-- The partition of `base` with its launch changed; SYS page 0 of site 0 reaches peer 0, module 3, and SEG page 0 its own. -/
def hostM : Module :=
  { withPart homeM fun x => { x with pcie := 0x8000#16 } with pcie := [(0, 1)], peers := [(0, 0x80000003#32)] }.onSite 0 fun x =>
    { x with tlb := ⟨3 * 2 ^ 53 / 65536, false, BitVec.ofNat 64 (0xBD + 2 ^ 52)⟩ :: x.tlb }
/-- The peer has acknowledged the graph root's store of some bytes. -/
def peerSays (m : Module) (bs : List Byte) : Module :=
  on0 m fun c => { c with ni := { c.ni with slots := [(0, ⟨{ m.peerReq 0 63 .write 0 0 bs.length true with payload := bs }, 0, .ok 0⟩)] } }
theorem home_of {α : Type} {x : HomeRes α} (h : put x = true) : ∃ a m, x = .ok a m := by
  cases x with
  | ok a m => exact ⟨a, m, rfl⟩
  | full l => cases h
  | defer l c w => cases h
def launch (f : Part → Part) (g : SiteGraph → SiteGraph := id) : Module :=
  (withPart hostM fun x => f { x with hqState := 2, run := { started := true, todo := [2] } }).onGraph 0 fun y => g { y with loaded := true, begun := true }
/-- Node 2 of a kind, its predicate or signal word at va. -/
def aTcb (kind va : Nat) : Node := { tcb := leBytes 64 (kind + va * 2 ^ 160) }
def withNode (kind va : Nat) : Module := launch id fun g => { g with nodes := [(2, aTcb kind va)] }
def streamed (e : GEv) : Module := launch fun x => { x with run := { x.run with stream := [e] } }
def site0 (f : Site → Site) : Module := bm.onSite 0 f
def mc0 (f : Mc → Mc) : Module := homeM.onMc 0 f
/-- Pre-empted, with nothing that moves; the engines stand once the units have been stopped. -/
def preempted : Module := withPart (on0 bm fun c => { c with acts := [], ctxs := [] }) fun x => { x with swSt := 1 }
/-- A pool of one entry, at the place of HEAD, below LOW. -/
def poolM : Module := mc0 fun c => { c with ben := true, btail := 1, bytes := 4096 * 6291456 }
abbrev poolMc : Mc := (atCommit poolM).settled.mc 0
abbrev poolAt : Nat := dramLoc 0 (poolMc.baddr * 0x10000 + 8 * poolMc.bhead)
abbrev released (b : List Byte) (n : Module) : HomeRes Unit :=
  let e : Word := BitVec.ofNat 64 (leNat b)
  let n := if poolMc.pageOk e = true then n.zeroLines 0 (bits e 52 16 * 0x10000) 0x10000 else n
  n.dramWrite poolAt (leBytes 8 (setBits e 0 0 1).toNat)
/-- The entry read and its page released. -/
def poolRead : HomeRes (List Byte) := poolM.dramRead poolAt 8
def poolDone : Bool := match poolRead with
  | .ok b n => put (released b n)
  | _ => false
theorem pool_of (h : poolDone = true) : ∃ b n o, poolM.dramRead poolAt 8 = .ok b n ∧ released b n = .ok () o := by
  unfold poolDone at h
  cases hx : poolRead with
  | ok b n => rw [hx] at h; obtain ⟨_, o, h⟩ := home_of h; exact ⟨b, n, o, hx, h⟩
  | full l => rw [hx] at h; cases h
  | defer l c w => rw [hx] at h; cases h
def dark : Module := { powered := false }
/-- A launch that has applied its events, with no activation left; its completion record goes to SYS page 0. -/
def ended : Module :=
  let m := withPart (on0 (launch fun x => { x with hqState := 3 }) fun c => { c with acts := [], ctxs := [] }) fun x =>
    { x with run := { x.run with packet := leBytes 64 (3 * 2 ^ 53 * 2 ^ 192) } }
  peerSays m (completionRec (m.part 0) m.fabNow)
/-- The owner key is installed. -/
def keyed (m : Module) : Module := { m with ownerHash := some (Config.keyHash 5) }
/-- The body of a token for this module, the first by its count, with an action. -/
def tokenBody (act : Nat) : BitVec 512 := BitVec.ofNat 512 (act + 2 ^ 16 + 2 ^ 80 * Config.modId.toNat)
theorem token_body (act : Nat) (h : act < 256) : (tokenBody act).toNat = act + 2 ^ 16 + 2 ^ 80 * Config.modId.toNat := by
  have h2 := Config.modId.isLt
  have h3 : act + 2 ^ 16 + 2 ^ 80 * Config.modId.toNat < 2 ^ 144 := by omega
  exact (BitVec.toNat_ofNat ..).trans (Nat.mod_eq_of_lt (Nat.lt_of_lt_of_le h3 (Nat.pow_le_pow_right (by decide) (by decide))))
theorem token_fields (act : Nat) (h : act < 256) : bits (tokenBody act) 143 80 = Config.modId.toNat ∧ bits (tokenBody act) 79 16 = 1 ∧
    bits (tokenBody act) 15 8 = 0 ∧ bits (tokenBody act) 7 0 = act := by
  have h2 := Config.modId.isLt
  simp only [bits, token_body act h, Nat.shiftRight_eq_div_pow]
  refine ⟨?_, ?_, ?_, ?_⟩ <;> omega
theorem token_of {m : Module} {act : Nat} {ok : Prop} {action : Module → Module} (h : 1 ≤ act ∧ act ≤ 6) (hp : m.powered = true)
    (ho : m.ownerHash = some (Config.keyHash 5)) (hc : m.tokcnt = 0#64) (hk : ok) :
    Token m (action { m with tokcnt := m.tokcnt + 1#64 }) true 5 (tokenBody act) act ok action := by
  obtain ⟨f1, f2, f3, f4⟩ := token_fields act (by omega)
  refine ⟨hp, Or.inr (Or.inr ⟨⟨rfl, ho, f1, ?_⟩, f3, f4, by rw [f4]; exact h.1, by rw [f4]; exact h.2, Or.inl ⟨hk, rfl⟩⟩)⟩
  rw [f2, hc]; decide

theorem test_due_launches :
    MayHappen graphEvent (.doorbell ⟨0, 0⟩ 3) (withPart bm fun x => { x with pcie := 0x8000#16 }) ∧
    MayHappen graphEvent (.hqCancel ⟨0, 0⟩) (withPart bm fun x => { x with pcie := 0x8000#16 }) ∧
    MayHappen graphEvent (.launchStart 0) (withPart bm fun x => { x with hqTail := 1 }) ∧
    MayHappen graphEvent (.launchPacket 0) (withPart bm fun x => { x with hqState := 1 }) ∧
    MayHappen graphEvent (.graphVerdict 0) (withPart bm fun x => { x with hqState := 1, run := { x.run with verdicts := [(0, 0, 0, 0)] } }) ∧
    MayHappen graphEvent (.graphStart 0) (launch id fun g => { g with begun := false, nodes := [(2, {})] }) := by
  refine ⟨?_, ?_, ?_, ?_, ?_, ?_⟩
  · apply Exists.intro; unfold graphEvent; exact ⟨by decide, by decide, rfl⟩
  · apply Exists.intro; unfold graphEvent; exact ⟨by decide, by decide, rfl⟩
  · apply Exists.intro; unfold graphEvent; exact ⟨by decide, by decide, by decide, by decide, by decide, rfl⟩
  · apply Exists.intro; unfold graphEvent; exact ⟨_, _, _, rfl, by decide, by decide, by decide, by decide +kernel, rfl, rfl⟩
  · apply Exists.intro; unfold graphEvent; exact ⟨by decide, by decide, by decide, rfl⟩
  · apply Exists.intro; unfold graphEvent; exact ⟨0, rfl, by decide, by decide, by decide, by decide, rfl⟩
theorem test_due_credits :
    MayHappen graphEvent (.creditPartialSum 0 2) (launch id fun g => { g with credits := [(2, 1)] }) ∧
    MayHappen graphEvent (.kernelTotal 0 2) (launch fun x => { x with run := { x.run with sums := [(2, 1)] } }) := by
  refine ⟨?_, ?_⟩
  · apply Exists.intro; unfold graphEvent; exact ⟨_, rfl, by decide, by decide, rfl⟩
  · apply Exists.intro; unfold graphEvent; exact ⟨_, rfl, by decide, by decide, by decide, fun _ => by decide, rfl⟩
theorem test_due_completions :
    MayHappen graphEvent (.completionEvent 0) (streamed (.done 2)) ∧
    MayHappen graphEvent (.completionEvent 0) (streamed (.cond 2 true)) ∧
    MayHappen graphEvent (.completionEvent 0) (streamed (.loop 2 false)) ∧
    MayHappen graphEvent (.completionEvent 0) (streamed (.hostsig 2)) ∧
    MayHappen graphEvent (.livenessEvent 0) (streamed (.live 5)) ∧
    MayHappen graphEvent (.stopEvent 0) (streamed .stop) := by
  refine ⟨?_, ?_, ?_, ?_, ?_, ?_⟩
  · apply Exists.intro; unfold graphEvent; exact ⟨_, _, rfl, rfl⟩
  · apply Exists.intro; unfold graphEvent; exact ⟨_, _, rfl, rfl⟩
  · apply Exists.intro; unfold graphEvent; exact ⟨_, _, rfl, rfl⟩
  · apply Exists.intro; unfold graphEvent; exact ⟨_, _, rfl, rfl⟩
  · apply Exists.intro; unfold graphEvent; exact ⟨_, _, rfl, rfl⟩
  · apply Exists.intro; unfold graphEvent; exact ⟨_, rfl, rfl⟩
theorem test_due_decisions :
    MayHappen graphEvent (.condDecision 0 2) (withNode 2 (2 ^ 54)) ∧
    MayHappen graphEvent (.loopDecision 0 2) (withNode 3 (2 ^ 54)) ∧
    MayHappen graphEvent (.hostsigStore 0 2) (peerSays (withNode 5 (3 * 2 ^ 53)) (leBytes 8 ((aTcb 5 (3 * 2 ^ 53)).at 287 224))) ∧
    MayHappen graphEvent (.graphEnd 0) (ended) := by
  refine ⟨?_, ?_, ?_, ?_⟩
  · obtain ⟨b, o, h⟩ := ok_of (show answers (siteLine 0 (aTcb 2 (2 ^ 54)).pred.toNat 8 (withNode 2 (2 ^ 54))) = true by decide +kernel); apply Exists.intro; unfold graphEvent; exact ⟨0, aTcb 2 (2 ^ 54), b, o, by decide +kernel, h, rfl⟩
  · obtain ⟨b, o, h⟩ := ok_of (show answers (siteLine 0 (aTcb 3 (2 ^ 54)).pred.toNat 8 (withNode 3 (2 ^ 54))) = true by decide +kernel); apply Exists.intro; unfold graphEvent; exact ⟨0, aTcb 3 (2 ^ 54), b, o, by decide +kernel, h, rfl⟩
  · obtain ⟨u, o, h⟩ := ok_of (show answers (rootStore 0 (aTcb 5 (3 * 2 ^ 53)).pred.toNat (leBytes 8 ((aTcb 5 (3 * 2 ^ 53)).at 287 224)) (peerSays (withNode 5 (3 * 2 ^ 53)) (leBytes 8 ((aTcb 5 (3 * 2 ^ 53)).at 287 224)))) = true by decide +kernel); apply Exists.intro; unfold graphEvent; exact ⟨0, aTcb 5 (3 * 2 ^ 53), u, o, by decide +kernel, h, rfl⟩
  · obtain ⟨u, o, h⟩ := ok_of (show answers (rootStore 0 ((ended.part 0).run.at 255 192) (completionRec (ended.part 0) ended.fabNow) ended) = true by decide +kernel); apply Exists.intro; unfold graphEvent; exact ⟨0, u, o, rfl, Or.inl rfl, by decide +kernel, by decide +kernel, by decide, h, rfl⟩
theorem test_due_notices :
    MayHappen partitionEvent (.pageNoticeResume 0 true 0) (bm) ∧
    MayHappen partitionEvent (.pageNoticeCancel 0 false 0) (bm) ∧
    MayHappen partitionEvent (.pageNoticeArrival 0 0) (withPart bm fun x => { x with notices := [⟨5, false, [0]⟩] }) := by
  refine ⟨?_, ?_, ?_⟩
  · apply Exists.intro; unfold partitionEvent; exact ⟨by decide, rfl⟩
  · apply Exists.intro; unfold partitionEvent; exact ⟨by decide, rfl⟩
  · apply Exists.intro; unfold partitionEvent; exact ⟨_, _, rfl, rfl⟩
theorem test_due_swaps :
    MayHappen partitionEvent (.swapOut 0) (bm) ∧
    MayHappen partitionEvent (.swapIn 0) (bm) ∧
    MayHappen partitionEvent (.swapExchange 0 1) (bm) ∧
    MayHappen partitionEvent (.pswapStRead 0) (bm) ∧
    MayHappen partitionEvent (.quiescenceAgreement 0) (preempted) ∧
    MayHappen partitionEvent (.quiescenceAgreement 0) (preempted.stopUnits [0]) ∧
    MayHappen partitionEvent (.swapSaveCompletion 0) (withPart preempted fun x => { x with swSt := 2 }) ∧
    MayHappen partitionEvent (.swapRestoreCompletion 0) (withPart preempted fun x => { x with swSt := 4 }) := by
  refine ⟨?_, ?_, ?_, ?_, ?_, ?_, ?_, ?_⟩
  · apply Exists.intro; unfold partitionEvent; exact ⟨by decide, rfl⟩
  · apply Exists.intro; unfold partitionEvent; exact ⟨by decide, rfl⟩
  · apply Exists.intro; unfold partitionEvent; exact ⟨by decide, rfl⟩
  · apply Exists.intro; unfold partitionEvent; exact ⟨by decide, rfl⟩
  · apply Exists.intro; unfold partitionEvent; exact ⟨by decide +kernel, by decide +kernel, by decide +kernel, by decide +kernel, (if_pos (by decide +kernel)).mpr rfl⟩
  · apply Exists.intro; unfold partitionEvent; refine ⟨by decide +kernel, by decide +kernel, by decide +kernel, by decide +kernel, ?_⟩; rw [if_neg (by decide +kernel)]; exact ⟨by decide +kernel, by decide +kernel, rfl⟩
  · apply Exists.intro; unfold partitionEvent; exact ⟨by decide, rfl⟩
  · apply Exists.intro; unfold partitionEvent; exact ⟨by decide, rfl⟩
theorem test_due_retirement :
    MayHappen partitionEvent (.retire 0 0x80#64) (bm) ∧
    MayHappen partitionEvent (.retirementCompletion 0) (site0 fun x => { x with rbusy := some ⟨1, none⟩ }) ∧
    MayHappen partitionEvent (.retirementCompletion 0) (site0 fun x => { x with rbusy := some ⟨1, some 3⟩ }) ∧
    MayHappen partitionEvent (.selfTestStart 5) (bm.setPhy 5 { st := 1 }) ∧
    MayHappen partitionEvent (.selfTestPass 5) (bm.setPhy 5 { st := 2 }) ∧
    MayHappen partitionEvent (.passExpiry 5) (late (bm.setPhy 5 { pass := 1 })) := by
  refine ⟨?_, ?_, ?_, ?_, ?_, ?_⟩
  · apply Exists.intro; unfold partitionEvent; exact ⟨by decide, by decide, rfl⟩
  · obtain ⟨⟨⟩, n, h⟩ := home_of (show put (((site0 fun x => { x with rbusy := some ⟨1, none⟩ }).breakStreams 1).flushCore 1) = true by decide +kernel); apply Exists.intro; unfold partitionEvent; exact ⟨_, n, rfl, by decide +kernel, by decide +kernel, fun _ => by decide +kernel, h, rfl⟩
  · obtain ⟨⟨⟩, n, h⟩ := home_of (show put (((site0 fun x => { x with rbusy := some ⟨1, some 3⟩ }).breakStreams 1).flushCore 1) = true by decide +kernel); apply Exists.intro; unfold partitionEvent; exact ⟨_, n, rfl, by decide +kernel, by decide +kernel, fun _ => by decide +kernel, h, rfl⟩
  · apply Exists.intro; unfold partitionEvent; exact ⟨by decide, by decide, by decide, rfl⟩
  · apply Exists.intro; unfold partitionEvent; exact ⟨by decide, rfl⟩
  · apply Exists.intro; unfold partitionEvent; exact ⟨by decide, by decide, rfl⟩
theorem test_due_capacity :
    MayHappen managementEvent (.balloonRelease 0) (poolM) ∧
    MayHappen managementEvent (.spillMove 0) (mc0 fun c => { c with spill := [(5000, List.replicate 64 0#8)] }) ∧
    MayHappen managementEvent (.mcExposeWrite 0) (bm.onMc 0 fun c => { c with due := some 12 }) ∧
    MayHappen managementEvent (.mcSpillRead 0) (bm) ∧
    MayHappen managementEvent (.mcBtailWrite 0 3#64) (bm) ∧
    MayHappen managementEvent (.mcBpoolWrite 0 0#64) (bm) := by
  refine ⟨?_, ?_, ?_, ?_, ?_, ?_⟩
  · obtain ⟨b, n, o, h1, h2⟩ := pool_of (by decide +kernel); apply Exists.intro; unfold managementEvent; exact ⟨b, n, o, by decide +kernel, h1, h2, rfl⟩
  · apply Exists.intro; unfold managementEvent; exact ⟨_, _, _, rfl, by decide, rfl⟩
  · apply Exists.intro; unfold managementEvent; exact ⟨_, rfl, rfl⟩
  · apply Exists.intro; unfold managementEvent; exact ⟨⟨by decide, by decide⟩, rfl⟩
  · apply Exists.intro; unfold managementEvent; exact ⟨⟨by decide, by decide⟩, rfl⟩
  · apply Exists.intro; unfold managementEvent; exact ⟨⟨by decide, by decide⟩, rfl⟩
theorem test_due_registers :
    MayHappen managementEvent (.psaveWrite 0 0#64) (bm) ∧
    MayHappen managementEvent (.lpctEntryWrite 0 127 0#64) (bm) ∧
    MayHappen managementEvent (.niTlbi 0 0#64) (bm) ∧
    MayHappen managementEvent (.cfgRegisterWrite 6 323 7 0#64) (bm) := by
  refine ⟨?_, ?_, ?_, ?_⟩
  · apply Exists.intro; unfold managementEvent; exact ⟨⟨by decide, by decide⟩, rfl⟩
  · apply Exists.intro; unfold managementEvent; exact ⟨⟨by decide, by decide⟩, by decide, by decide +kernel, rfl⟩
  · apply Exists.intro; unfold managementEvent; exact ⟨⟨by decide, by decide⟩, rfl⟩
  · apply Exists.intro; unfold managementEvent; exact ⟨by decide, by decide, by decide, rfl⟩
theorem test_due_power :
    MayHappen managementEvent (.powerOn) (dark) ∧
    MayHappen managementEvent (.powerLoss) (bm) ∧
    MayHappen managementEvent (.clockOffer 5) (late (bm.onSite 5 fun x => { x with offers := [2] })) ∧
    MayHappen managementEvent (.siteStateAdvance 5 true 0) (bm.onSite 5 fun x => { x with state := 3 }) ∧
    MayHappen managementEvent (.siteStateAdvance 5 false 9) (bm.onSite 5 fun x => { x with state := 3 }) ∧
    MayHappen managementEvent (.mcFirmwareBoot 35 ⟨0, 0⟩ true) (bm) ∧
    MayHappen managementEvent (.powerClamp) (bm) ∧
    MayHappen managementEvent (.powerClampRelease) ({ bm with clamp := true }) ∧
    MayHappen managementEvent (.tamvexLinkTraining 71 true) (bm) ∧
    MayHappen managementEvent (.pcieLinkTraining 15 true) (bm) := by
  refine ⟨?_, ?_, ?_, ?_, ?_, ?_, ?_, ?_, ?_, ?_⟩
  · apply Exists.intro; unfold managementEvent; exact ⟨by decide, rfl⟩
  · apply Exists.intro; unfold managementEvent; exact ⟨by decide, rfl⟩
  · apply Exists.intro; unfold managementEvent; exact ⟨_, _, rfl, by decide, by decide, by decide, by decide, rfl⟩
  · apply Exists.intro; unfold managementEvent; refine ⟨by decide, by decide, by decide, by decide, ?_⟩; rw [if_neg (by decide)]; exact ⟨by decide, rfl⟩
  · apply Exists.intro; unfold managementEvent; refine ⟨by decide, by decide, by decide, by decide, ?_⟩; rw [if_pos (by decide)]
  · apply Exists.intro; unfold managementEvent; exact ⟨by decide, by decide, rfl⟩
  · apply Exists.intro; unfold managementEvent; exact ⟨by decide, by decide, rfl⟩
  · apply Exists.intro; unfold managementEvent; exact ⟨by decide, rfl⟩
  · apply Exists.intro; unfold managementEvent; exact ⟨by decide, by decide, rfl⟩
  · apply Exists.intro; unfold managementEvent; exact ⟨by decide, by decide, rfl⟩
theorem test_due_tokens :
    MayHappen managementEvent (.tokenLinkEnable true 5 (tokenBody 1) 71) (keyed bm) ∧
    MayHappen managementEvent (.tokenPartitionKey true 5 (tokenBody 2) 0 7#32) (keyed bm) ∧
    MayHappen managementEvent (.tokenReadmit true 5 (tokenBody 3) 0 143 0) (keyed (late (bm.setPhy 143 { st := 1, pass := 3 }))) ∧
    MayHappen managementEvent (.tokenClearCoreStop true 5 (tokenBody 4) 0 0) (keyed (on0 bm fun c => { c with sup := { c.sup with stopped := true } })) ∧
    MayHappen managementEvent (.tokenSetRetired true 5 (tokenBody 5) 323) (keyed bm) ∧
    MayHappen managementEvent (.tokenMcExpose true 5 (tokenBody 6) 0 24) (keyed bm) := by
  refine ⟨?_, ?_, ?_, ?_, ?_, ?_⟩
  · apply Exists.intro; unfold managementEvent; exact token_of (by decide) (by decide) rfl (by decide) (by decide)
  · apply Exists.intro; unfold managementEvent; exact token_of (by decide) (by decide) rfl (by decide) (by decide)
  · apply Exists.intro; unfold managementEvent; exact token_of (by decide) (by decide) rfl (by decide) (by decide +kernel)
  · apply Exists.intro; unfold managementEvent; exact token_of (by decide) (by decide) rfl (by decide) (by decide)
  · apply Exists.intro; unfold managementEvent; exact token_of (by decide) (by decide) rfl (by decide) (by decide)
  · apply Exists.intro; unfold managementEvent; exact token_of (by decide) (by decide) rfl (by decide) (by decide)
/-- An action whose condition fails, a body with an action above 6, and a token that does not verify. -/
theorem test_due_tokens_refused :
    MayHappen managementEvent (.tokenMcExpose true 5 (tokenBody 6) 0 7) (keyed bm) ∧
    MayHappen managementEvent (.tokenMcExpose true 5 (tokenBody 7) 0 24) (keyed bm) ∧
    MayHappen managementEvent (.tokenMcExpose false 5 (tokenBody 6) 0 24) (keyed bm) := by
  refine ⟨?_, ?_, ?_⟩
  · apply Exists.intro; unfold managementEvent; obtain ⟨f1, f2, f3, f4⟩ := token_fields 6 (by decide); exact ⟨by decide, Or.inr (Or.inr ⟨⟨rfl, rfl, f1, f2.trans (by decide)⟩, f3, f4, by rw [f4]; decide, by rw [f4], Or.inr ⟨by decide, rfl⟩⟩)⟩
  · apply Exists.intro; unfold managementEvent; obtain ⟨f1, f2, f3, f4⟩ := token_fields 7 (by decide); exact ⟨by decide, Or.inr (Or.inl ⟨⟨rfl, rfl, f1, f2.trans (by decide)⟩, Or.inr (Or.inr (by rw [f4]; decide)), rfl⟩)⟩
  · apply Exists.intro; unfold managementEvent; exact ⟨by decide, Or.inl ⟨fun h => (nomatch h.1), rfl⟩⟩
theorem test_due_partitions :
    MayHappen managementEvent (.partitionCreation 1 [1]) (bm.onSite 1 fun x => { x with state := 6 }) ∧
    MayHappen managementEvent (.partitionReshape 0 [0, 1]) (bm.onSite 1 fun x => { x with state := 6 }) ∧
    MayHappen managementEvent (.partitionReshape 0 []) (bm) := by
  refine ⟨?_, ?_, ?_⟩
  · apply Exists.intro; unfold managementEvent; exact ⟨by decide, by decide, by decide, by decide, by decide, rfl⟩
  · apply Exists.intro; unfold managementEvent; exact ⟨by decide, by decide, by decide, by decide, by decide, rfl⟩
  · apply Exists.intro; unfold managementEvent; exact ⟨by decide, by decide, by decide, by decide, by decide, rfl⟩

end Sys2Proof.Tests
end

section
/-!
PROOFS. Operands of the address roles (R69, R81): they are registers or `z`, reading them leaves the registers as they are, and each of
them can be read by itself with the same value.
-/
namespace Sys2Proof.Machine
open Sys2Proof.Claims

/-! ## Reads of registers and `z` -/

@[simp] theorem plainValue_touchBank (w : Win) (time b : Nat) (c : Opnd) : plainValue (w.touchBank time b) c = plainValue w c := rfl
@[simp] theorem plainValue_found (w : Win) (ks : List Nat) (c : Opnd) : plainValue (w.found ks) c = plainValue w c := by
  unfold Win.found
  dsimp only
  split <;> rfl

/-- What has a plain value is a readable register or `z`. -/
theorem plainValue_eq_some {w : Win} {c : Opnd} {v : Word} (h : plainValue w c = some v) :
    (c.toNat < 32 ∧ w.live c.toNat = true ∧ w.bad.contains c.toNat = false ∧ v = w.gr c.toNat) ∨ (c = 41#6 ∧ v = 0#64) := by
  unfold plainValue at h
  split at h
  next hn =>
    split at h
    next hr => exact .inl ⟨hn, hr.1, hr.2, (Option.some.inj h).symm⟩
    next => cases h
  next =>
    split at h
    next hz => exact .inr ⟨hz, (Option.some.inj h).symm⟩
    next => cases h

/-- A read of a register or of `z` gives its plain value, and leaves every plain value as it is. -/
theorem readSrc_plain {s : State} {o : Src} {v : Word} (h : plainValue s.win o.code = some v) :
    ∃ t, readSrc o s = .ok (v, t) ∧ ∀ c, plainValue t.win c = plainValue s.win c := by
  rcases plainValue_eq_some h with ⟨hn, -, -, rfl⟩ | ⟨hz, rfl⟩
  · refine ⟨s.setWin ((s.win.touchBank s.m.time (o.code.toNat / 8)).found [o.code.toNat]), ?_, by simp⟩
    rw [readSrc, Run.get_bind, if_pos hn, Run.onWin_bind, Run.pure_run]
  · exact ⟨s, by simp [readSrc, hz], fun _ => rfl⟩

theorem readList_plain {l : List Src} {s : State} {vs : List Word} (h : l.map (fun o => plainValue s.win o.code) = vs.map some) :
    ∃ t, readList l s = .ok (vs, t) := by
  induction l generalizing s vs with
  | nil =>
    obtain rfl : vs = [] := by simpa using h.symm
    exact ⟨s, rfl⟩
  | cons o l ih =>
    cases vs with
    | nil => simp at h
    | cons v vs =>
      obtain ⟨ho, hl⟩ := List.cons.inj h
      obtain ⟨t, hr, ht⟩ := readSrc_plain ho
      obtain ⟨u, hu⟩ := ih (s := t) (by simpa only [ht] using hl)
      exact ⟨u, by rw [readList, Run.bind_ok hr, Run.bind_ok hu, Run.pure_run]⟩

/-! ## The checks of R81 -/

/-- The registers among sources. -/
def regCodes (l : List Src) : List Nat := (l.filter fun o => o.code.toNat < 32).map fun o => o.code.toNat

/-- Three checks before the rest of a body: the first one that is not met stops it. -/
theorem checked_run {α : Type} (bad dead uncorr : Bool) (f : FInfo) (x : Run α) (s : State) :
    (do
      Run.stopIf bad .badopnd
      Run.stopIf dead .deadreg
      if uncorr then Run.fault f
      x : Run α) s =
      if bad then .error (.fault { cause := .badopnd }) else if dead then .error (.fault { cause := .deadreg })
      else if uncorr then .error (.fault f) else x s := by
  cases bad
  case true => exact Run.stopIf_true ..
  case false =>
    cases dead
    case true => exact (Run.stopIf_false ..).trans (Run.stopIf_true ..)
    case false =>
      cases uncorr
      case true => exact (Run.stopIf_false ..).trans ((Run.stopIf_false ..).trans (Run.bind_error rfl))
      case false => simp

/-- R81: the roles are checked, then dead registers, then uncorrectable words, and then the reads are done. -/
theorem operands_eq (l : List Src) (dst : Option (Put × Opnd)) (s : State) :
    operands l dst s =
      if l.any s.srcBad || s.popsBad l || dst.any (fun d => s.dstBad d.1 d.2) then .error (.fault { cause := .badopnd })
      else if (regCodes l).any fun k => !s.win.live k then .error (.fault { cause := .deadreg })
      else if (regCodes l).any fun k => s.win.bad.contains k then
        .error (.fault { cause := .uncorr, side := [.reg s.cid s.key (regCodes l)] })
      else (do let vs ← readList l; Run.onWin fun w => killAll w l; return vs : Run (List Word)) s := by
  cases dst <;> exact checked_run ..

theorem mem_regCodes {l : List Src} {k : Nat} : k ∈ regCodes l ↔ ∃ o ∈ l, o.code.toNat < 32 ∧ o.code.toNat = k := by
  simp [regCodes, and_assoc]

/-- Operands that have been read passed every check. -/
theorem operands_ok {l : List Src} {dst : Option (Put × Opnd)} {s t : State} {vs : List Word} (h : operands l dst s = .ok (vs, t)) :
    (∀ o ∈ l, s.srcBad o = false) ∧
    (∀ o ∈ l, o.code.toNat < 32 → s.win.live o.code.toNat = true ∧ s.win.bad.contains o.code.toNat = false) ∧
    ∃ u, readList l s = .ok (vs, u) := by
  rw [operands_eq] at h
  split at h
  · cases h
  next hroles =>
  split at h
  · cases h
  next hlive =>
  split at h
  · cases h
  next hbad =>
  refine ⟨fun o ho => ?_, fun o ho hn => ⟨?_, ?_⟩, ?_⟩
  · by_contra hb
    exact hroles (by simpa using .inl (.inl ⟨o, ho, by simpa using hb⟩))
  · by_contra hb
    exact hlive (List.any_eq_true.mpr ⟨_, mem_regCodes.mpr ⟨o, ho, hn, rfl⟩, by simpa using hb⟩)
  · by_contra hb
    exact hbad (List.any_eq_true.mpr ⟨_, mem_regCodes.mpr ⟨o, ho, hn, rfl⟩, by simpa using hb⟩)
  · cases hr : readList l s with
    | error e => rw [Run.bind_error hr] at h; cases h
    | ok r =>
      obtain ⟨ws, u⟩ := r
      rw [Run.bind_ok hr, Run.onWin_bind] at h
      obtain rfl : ws = vs := congrArg Prod.fst (Except.ok.inj h)
      exact ⟨u, rfl⟩

/-- Sources of the address roles that have been read are registers or `z`, and the values read are theirs. -/
theorem operands_addr {l : List Src} {dst : Option (Put × Opnd)} {s t : State} {vs : List Word} (ha : ∀ o ∈ l, o.use = .addr)
    (h : operands l dst s = .ok (vs, t)) : l.map (fun o => plainValue s.win o.code) = vs.map some := by
  obtain ⟨hroles, hregs, u, hr⟩ := operands_ok h
  have hsome : ∀ o ∈ l, ∃ v, plainValue s.win o.code = some v := fun o ho => by
    have hrole := hroles o ho
    by_cases hn : o.code.toNat < 32
    · exact ⟨s.win.gr o.code.toNat, by rw [plainValue, if_pos hn, if_pos (hregs o ho hn)]⟩
    · have hz : o.code = 41#6 := by simpa [State.srcBad, hn, ha o ho, ← BitVec.toNat_inj] using hrole
      exact ⟨0#64, by simp [plainValue, hz]⟩
  have hws : l.map (fun o => plainValue s.win o.code) = (l.map fun o => (plainValue s.win o.code).getD 0#64).map some := by
    rw [List.map_map]
    refine List.map_congr_left fun o ho => ?_
    obtain ⟨v, hv⟩ := hsome o ho
    simp [hv]
  obtain ⟨u', hr'⟩ := readList_plain hws
  exact hws.trans (congrArg (List.map some) (congrArg Prod.fst (Except.ok.inj (hr'.symm.trans hr))))

/-! What has a plain value passes every check. -/

theorem srcBad_plain {s : State} {o : Src} {v : Word} (h : plainValue s.win o.code = some v) : s.srcBad o = false := by
  rcases plainValue_eq_some h with ⟨hn, -⟩ | ⟨hz, -⟩
  · simp [State.srcBad, hn]
  · simp [State.srcBad, hz]

theorem code_ne_queue_of_plain {w : Win} {c : Opnd} {v : Word} (h : plainValue w c = some v) : c ≠ 32#6 ∧ c ≠ 33#6 := by
  rcases plainValue_eq_some h with ⟨hn, -⟩ | ⟨rfl, -⟩
  · constructor <;> bv_omega
  · decide

theorem popsBad_plain {s : State} {l : List Src} (h : ∀ o ∈ l, ∃ v, plainValue s.win o.code = some v) : s.popsBad l = false := by
  have hne : ∀ o ∈ l, o.code ≠ 32#6 ∧ o.code ≠ 33#6 := fun o ho => (h o ho).elim fun _ => code_ne_queue_of_plain
  have h32 : l.filter (·.code == 32#6) = [] := List.filter_eq_nil_iff.mpr fun o ho => by simp [(hne o ho).1]
  have h33 : l.filter (·.code == 33#6) = [] := List.filter_eq_nil_iff.mpr fun o ho => by simp [(hne o ho).2]
  simp [State.popsBad, h32, h33]

theorem regCodes_plain {w : Win} {l : List Src} (h : ∀ o ∈ l, ∃ v, plainValue w o.code = some v) :
    ∀ k ∈ regCodes l, w.live k = true ∧ w.bad.contains k = false := fun k hk => by
  obtain ⟨o, ho, hn, rfl⟩ := mem_regCodes.mp hk
  obtain ⟨v, hv⟩ := h o ho
  rcases plainValue_eq_some hv with ⟨-, hl, hb, -⟩ | ⟨hz, -⟩
  · exact ⟨hl, hb⟩
  · simp [hz] at hn

/-- Readable registers and `z` are read, whatever their roles. -/
theorem operands_plain {l : List Src} {s : State} {vs : List Word} (h : l.map (fun o => plainValue s.win o.code) = vs.map some) :
    ∃ t, operands l none s = .ok (vs, t) := by
  have hval : ∀ o ∈ l, ∃ v, plainValue s.win o.code = some v := fun o ho => by
    have hm : plainValue s.win o.code ∈ vs.map some := h ▸ List.mem_map_of_mem ho
    obtain ⟨v, -, hv⟩ := List.mem_map.mp hm
    exact ⟨v, hv.symm⟩
  have hsrc : l.any s.srcBad = false := List.any_eq_false.mpr fun o ho => by
    obtain ⟨v, hv⟩ := hval o ho
    simp [srcBad_plain hv]
  have hlive : ((regCodes l).any fun k => !s.win.live k) = false := List.any_eq_false.mpr fun k hk => by
    simp [(regCodes_plain hval k hk).1]
  have hbad : ((regCodes l).any fun k => s.win.bad.contains k) = false := List.any_eq_false.mpr fun k hk => by
    rw [(regCodes_plain hval k hk).2]; decide
  obtain ⟨u, hr⟩ := readList_plain h
  refine ⟨u.setWin (killAll u.win l), ?_⟩
  rw [operands_eq, hsrc, popsBad_plain hval, hlive, hbad]
  exact (Run.bind_ok hr).trans (Run.onWin_bind ..)

/-- A source of the address roles that an instruction reads can be looked at before: a register gives the value that is read then. -/
theorem peekReg_addr {l : List Src} {dst : Option (Put × Opnd)} {s t : State} {vs : List Word} (ha : ∀ o ∈ l, o.use = .addr)
    (h : operands l dst s = .ok (vs, t)) {i : Nat} {o : Src} (hi : l[i]? = some o) :
    peekReg o s = .ok (if o.code.toNat < 32 then some (arg vs i) else none, s) := by
  have hv : plainValue s.win o.code = some (arg vs i) := by
    have hi' := congrArg (·[i]?) (operands_addr ha h)
    simp only [List.getElem?_map, hi, Option.map_some] at hi'
    obtain ⟨v, hv, hp⟩ := Option.map_eq_some_iff.mp hi'.symm
    rw [← hp, arg, List.getD_eq_getElem?_getD, hv, Option.getD_some]
  unfold peekReg
  split
  case isTrue =>
    obtain ⟨u, hu⟩ := operands_plain (s := s) (l := [o]) (vs := [arg vs i]) (by simp [hv])
    rw [peek, hu]
    rfl
  case isFalse => rfl

end Sys2Proof.Machine
end

section
/-!
PROOFS. FCMP (R426): the comparison of encodings decides the relation of the exact values, and the instruction writes its truth
value and sets NV where R426 says.
-/
namespace Sys2Proof.Num
open Sys2Proof.Claims

/-! ## Exact values at a common exponent -/

/-- A finite value is its integer at any exponent not above its own. -/
theorem ratOf_eq_atExp (s : Bool) (m : Nat) {e lo : Int} (h : lo ≤ e) : ratOf s m e = (atExp s m e lo : ℚ) * (2 : ℚ) ^ lo := by
  have hp : (2 : ℚ) ^ e = (2 : ℚ) ^ (e - lo).toNat * (2 : ℚ) ^ lo := by
    rw [← zpow_natCast, Int.toNat_of_nonneg (by omega), ← zpow_add₀ two_ne_zero, sub_add_cancel]
  cases s <;> simp [ratOf, atExp, hp, mul_assoc]

theorem ratOf_lt_iff (s t : Bool) (m n : Nat) (e k : Int) :
    ratOf s m e < ratOf t n k ↔ atExp s m e (min e k) < atExp t n k (min e k) := by
  rw [ratOf_eq_atExp s m (min_le_left e k), ratOf_eq_atExp t n (min_le_right e k), mul_lt_mul_iff_left₀ (by positivity), Int.cast_lt]

theorem ratOf_eq_iff (s t : Bool) (m n : Nat) (e k : Int) :
    ratOf s m e = ratOf t n k ↔ atExp s m e (min e k) = atExp t n k (min e k) := by
  rw [ratOf_eq_atExp s m (min_le_left e k), ratOf_eq_atExp t n (min_le_right e k), mul_left_inj' (by positivity), Int.cast_inj]

/-- A zero has no sign at any exponent. -/
theorem atExp_signOfNonzero (s : Bool) (m : Nat) (e lo : Int) : atExp (s && !decide (m = 0)) m e lo = atExp s m e lo := by
  rcases Nat.eq_zero_or_pos m with rfl | hm
  · simp [atExp]
  · simp [hm.ne']

/-! ## The conditions of FCMP -/

variable (f : Fmt) (x y : Nat)

theorem cmp_eq_iff : (f.cmp 0 x y).1 = true ↔ ValEq (f.val x) (f.val y) := by
  unfold Fmt.cmp
  cases f.val x with
  | nan => simp [ValEq]
  | inf s => cases f.val y <;> simp [ValEq]
  | fin s m e =>
    cases f.val y with
    | nan | inf => simp [ValEq]
    | fin t n k => simp [ValEq, ratOf_eq_iff, atExp_signOfNonzero]

theorem cmp_lt_iff : (f.cmp 1 x y).1 = true ↔ ValLt (f.val x) (f.val y) := by
  unfold Fmt.cmp
  cases f.val x with
  | nan => simp [ValLt]
  | inf s => cases f.val y <;> simp [ValLt]
  | fin s m e => cases f.val y <;> simp [ValLt, ratOf_lt_iff]

/-- The other conditions follow from eq, lt and the presence of a NaN: le is either, ne is the opposite of eq. -/
theorem cmp_le : (f.cmp 2 x y).1 = ((f.cmp 1 x y).1 || (f.cmp 0 x y).1) := by
  simp only [Fmt.cmp, Bool.and_or_distrib_left]

theorem cmp_un_iff : (f.cmp 3 x y).1 = true ↔ f.val x = .nan ∨ f.val y = .nan := by
  simp [Fmt.cmp]

theorem cmp_ne (n : Nat) : (f.cmp (n + 4) x y).1 = !(f.cmp 0 x y).1 := by
  simp only [Fmt.cmp, Bool.not_and, Bool.not_not]

/-- R426: the truth value of a comparison is that of its condition on the exact values. -/
theorem cmp_iff_holds (cnd : Nat) : (f.cmp cnd x y).1 = true ↔ FcmpHolds cnd (f.val x) (f.val y) := by
  match cnd with
  | 0 => exact cmp_eq_iff f x y
  | 1 => exact cmp_lt_iff f x y
  | 2 => rw [cmp_le, Bool.or_eq_true, cmp_lt_iff, cmp_eq_iff]; rfl
  | 3 => exact cmp_un_iff f x y
  | n + 4 => rw [cmp_ne, Bool.not_eq_true', ← Bool.not_eq_true, cmp_eq_iff]; rfl

/-- R426: lt and le set NV where an operand is NaN, and nothing else sets a flag. -/
theorem cmp_flags (cnd : Nat) :
    (f.cmp cnd x y).2 = if (f.val x = .nan ∨ f.val y = .nan) ∧ (cnd = 1 ∨ cnd = 2) then nv else 0 := by
  match cnd with
  | 0 | 3 | n + 4 => simp [Fmt.cmp]
  | 1 | 2 => simp [Fmt.cmp]

end Sys2Proof.Num

namespace Sys2Proof.Machine
open Sys2Proof.Claims

@[simp] theorem swOr_zero (w : Word) : swOr w 0 = w := by simp [swOr]
theorem swOr_nv (w : Word) : swOr w Num.nv = w ||| 0x1000#64 := rfl

/-- Flags ORed in by a body are a change of the status word. -/
@[simp] theorem orFlags_bind {α : Type} (fl : Nat) (g : Unit → Run α) (s : State) :
    (orFlags fl >>= g) s = g () (withSw s fun w => swOr w fl) := Run.bind_ok rfl

/-- FCMP whose operands are read and whose destination takes the truth value retires. -/
theorem execFcmp_retires {f : FcmpF} {s s1 s3 : State} {l : List Word} (hr : s.Running)
    (ho : operands [⟨f.b, f.kb, .exec⟩, ⟨f.c, f.kc, .exec⟩] (some (.exec, f.a)) s.begun = .ok (l, s1))
    (hw : let r := (Num.fmtOf f.ty.toNat).cmp f.cnd.toNat (low f.ty l 0) (low f.ty l 1)
      writeDst f.a (BitVec.ofNat 64 r.1.toNat) (withSw s1 fun w => swOr w r.2) = .ok ((), s3)) :
    execFcmp f s = .next (s.retire s3) :=
  run_retires hr _ ((Run.bind_ok ho).trans ((orFlags_bind ..).trans hw))

end Sys2Proof.Machine

namespace Sys2Proof.Claims
open Sys2Proof.Machine

/-- Settles O19: the truth value that FCMP writes is that of its condition, and the flags that it ORs in are those of R426. -/
theorem fcmpResult : Obligations.FcmpResult := by
  intro f s s1 s3 l v sw _ hr ho x y hv1 hv0 hnv hno hw
  have hval : v = BitVec.ofNat 64 ((Num.fmtOf f.ty.toNat).cmp f.cnd.toNat (low f.ty l 0) (low f.ty l 1)).1.toNat := by
    by_cases h : FcmpHolds f.cnd.toNat x y
    · rw [hv1 h, (Num.cmp_iff_holds ..).mpr h]; rfl
    · rw [hv0 h, Bool.eq_false_iff.mpr (mt (Num.cmp_iff_holds ..).mp h)]; rfl
  have hsw : sw = swOr s1.win.ctl.sw ((Num.fmtOf f.ty.toNat).cmp f.cnd.toNat (low f.ty l 0) (low f.ty l 1)).2 := by
    have hcnd : f.cnd.toNat = 1 ∨ f.cnd.toNat = 2 ↔ f.cnd = 1#3 ∨ f.cnd = 2#3 := by simp [← BitVec.toNat_inj]
    rw [Num.cmp_flags]
    split
    case isTrue h => rw [hnv h.1 (hcnd.mp h.2), swOr_nv]
    case isFalse h => rw [hno (mt (And.imp_right hcnd.mpr) h), swOr_zero]
  exact execFcmp_retires hr ho (by rw [hsw, hval] at hw; exact hw)

end Sys2Proof.Claims
end

section
/-!
PROOFS. Handles (R22, R432–R434): the fields of a handle and its check, the handle that a shape gives for a position, and the
instructions HSELF and HQRY.
-/
namespace Sys2Proof.Machine
open Sys2Proof.Claims

/-! ## The fields of a handle -/

/-- A word is made of its four fields. -/
theorem toNat_eq_fields (w : Word) :
    w.toNat = bits w 15 0 + bits w 31 16 * 2 ^ 16 + bits w 47 32 * 2 ^ 32 + bits w 63 48 * 2 ^ 48 := by
  simp only [bits, Nat.shiftRight_eq_div_pow]
  omega

/-- The check covers the low 48 bits alone. -/
theorem handleCheck_congr {g h : Word} (hl : bits g 47 0 = bits h 47 0) : handleCheck g = handleCheck h := by
  have hf : bits g 15 0 = bits h 15 0 ∧ bits g 31 16 = bits h 31 16 ∧ bits g 47 32 = bits h 47 32 := by
    simp only [bits, Nat.shiftRight_eq_div_pow] at hl ⊢
    omega
  obtain ⟨hv, hm, hg⟩ := hf
  simp only [handleCheck, hv, hm, hg]

theorem handleCheck_lt (h : Word) : handleCheck h < 2 ^ 16 :=
  Nat.xor_lt_two_pow (Nat.mod_lt _ (by decide)) (Nat.lt_of_le_of_lt (Nat.shiftRight_le _ _) (Nat.mod_lt _ (by decide)))

/-- A handle without its check. -/
def handleBody (vcn mod gen : Nat) : Word := BitVec.ofNat 64 (vcn % 65536 + mod % 65536 * 2 ^ 16 + gen % 65536 * 2 ^ 32)

theorem toNat_handleBody (vcn mod gen : Nat) :
    (handleBody vcn mod gen).toNat = vcn % 2 ^ 16 + mod % 2 ^ 16 * 2 ^ 16 + gen % 2 ^ 16 * 2 ^ 32 := by
  simp only [handleBody, BitVec.toNat_ofNat]
  omega

theorem toNat_mkHandle (vcn mod gen : Nat) :
    (mkHandle vcn mod gen).toNat = (handleBody vcn mod gen).toNat + handleCheck (handleBody vcn mod gen) * 2 ^ 48 := by
  have hb := toNat_handleBody vcn mod gen
  have hk := handleCheck_lt (handleBody vcn mod gen)
  have hlt : (handleBody vcn mod gen).toNat + handleCheck (handleBody vcn mod gen) * 2 ^ 48 < 2 ^ 64 := by omega
  exact (BitVec.toNat_ofNat ..).trans (Nat.mod_eq_of_lt hlt)

theorem handleCheck_mkHandle (vcn mod gen : Nat) : handleCheck (mkHandle vcn mod gen) = handleCheck (handleBody vcn mod gen) := by
  have hb := toNat_handleBody vcn mod gen
  refine handleCheck_congr ?_
  simp only [bits, Nat.shiftRight_eq_div_pow, toNat_mkHandle]
  omega

theorem mkHandle_fields (vcn mod gen : Nat) :
    bits (mkHandle vcn mod gen) 15 0 = vcn % 2 ^ 16 ∧ bits (mkHandle vcn mod gen) 31 16 = mod % 2 ^ 16 ∧
      bits (mkHandle vcn mod gen) 47 32 = gen % 2 ^ 16 ∧
      bits (mkHandle vcn mod gen) 63 48 = handleCheck (mkHandle vcn mod gen) := by
  have hb := toNat_handleBody vcn mod gen
  have hk := handleCheck_lt (handleBody vcn mod gen)
  rw [handleCheck_mkHandle]
  simp only [bits, Nat.shiftRight_eq_div_pow, toNat_mkHandle]
  omega

/-- The fields of a handle with the right check name no other word. -/
theorem eq_mkHandle {r : Word} {vcn mod gen : Nat} (hv : bits r 15 0 = vcn % 2 ^ 16) (hm : bits r 31 16 = mod % 2 ^ 16)
    (hg : bits r 47 32 = gen % 2 ^ 16) (hc : bits r 63 48 = handleCheck r) : r = mkHandle vcn mod gen := by
  obtain ⟨hv', hm', hg', hc'⟩ := mkHandle_fields vcn mod gen
  have hk : handleCheck r = handleCheck (mkHandle vcn mod gen) := by simp only [handleCheck, hv, hm, hg, hv', hm', hg']
  apply BitVec.eq_of_toNat_eq
  rw [toNat_eq_fields r, toNat_eq_fields (mkHandle vcn mod gen), hv, hm, hg, hc, hk, hv', hm', hg', hc']

/-- R22, R24: a handle whose check is not that of its fields is refused. -/
theorem handleOk_of_check_ne {m : Module} {s : Nat} {h : Word} (hc : bits h 63 48 ≠ handleCheck h) : m.handleOk s h = false := by
  simp [Module.handleOk, hc]

/-! ## The handle of a position (R434) -/

/-- The VCN of position (i, j) under a shape. -/
def shapeVcn (lo hi : Word) (i j : Int) : Int :=
  (bits lo 31 16 : Int) + i * signedOf 16 (bits hi 15 0) + j * signedOf 16 (bits hi 31 16)

/-- A VCN inside the partition that is not vacant. -/
def Module.NamesCore (m : Module) (cid : Nat) (v : Int) : Prop :=
  0 ≤ v ∧ v < (128 * m.nOf (siteOf cid) : Nat) ∧ m.coreOfVcn (siteOf cid) v.toNat ≠ none

/-- A shape that is valid, has extents, and one row where it is a line or a ring. -/
def SoundShape (lo : Word) : Prop :=
  bit lo 15 = true ∧ (bits lo 47 32 : Int) ≠ 0 ∧ (bits lo 63 48 : Int) ≠ 0 ∧ (bits lo 1 0 ≤ 1 → (bits lo 63 48 : Int) = 1)

/-- A shape whose positions go around: a ring or a torus. -/
def goesAround (lo : Word) : Bool := bits lo 1 0 = 1 || bits lo 1 0 = 3

theorem goesAround_iff {lo : Word} : goesAround lo = true ↔ bits lo 1 0 = 1 ∨ bits lo 1 0 = 3 := by simp [goesAround]

/-- A position inside the extents of a shape. -/
abbrev Inside (lo : Word) (i j : Int) : Prop := 0 ≤ i ∧ i < (bits lo 47 32 : Int) ∧ 0 ≤ j ∧ j < (bits lo 63 48 : Int)

/-- The coordinates of a position. -/
def posI (p : Word) : Int := signedOf 32 (bits p 31 0)
def posJ (p : Word) : Int := signedOf 32 (bits p 63 32)

/-- The handle of a VCN with the own module and the current epoch, and 0 where it names no core. -/
def Module.vcnHandle (m : Module) (cid : Nat) (v : Int) : Word :=
  if v < 0 || (128 * m.nOf (siteOf cid) : Nat) ≤ v then 0
  else if (m.coreOfVcn (siteOf cid) v.toNat).isNone then 0
  else mkHandle v.toNat m.modnum.toNat (m.site (siteOf cid)).epoch

section
variable {m : Module} {cid : Nat}

theorem vcnHandle_of_names {v : Int} (h : m.NamesCore cid v) :
    m.vcnHandle cid v = mkHandle v.toNat m.modnum.toNat (m.site (siteOf cid)).epoch := by
  obtain ⟨hlo, hhi, hc⟩ := h
  have hr : ¬ ((v < 0 || (128 * m.nOf (siteOf cid) : Nat) ≤ v) = true) := by
    simpa only [Bool.or_eq_true, decide_eq_true_eq, not_or, not_lt, not_le] using ⟨hlo, hhi⟩
  rw [Module.vcnHandle, if_neg hr, if_neg (by simpa using hc)]

theorem vcnHandle_of_not_names {v : Int} (h : ¬ m.NamesCore cid v) : m.vcnHandle cid v = 0 := by
  unfold Module.vcnHandle
  split
  case isTrue => rfl
  case isFalse hr =>
    simp only [Bool.or_eq_true, decide_eq_true_eq, not_or, not_lt, not_le] at hr
    refine if_pos ?_
    by_contra hc
    exact h ⟨hr.1, hr.2, by simpa using hc⟩

variable {lo hi p : Word}

/-- The test that R434 makes of a shape. -/
theorem soundShape_iff : SoundShape lo ↔ (!bit lo 15 || (bits lo 47 32 : Int) = 0 || (bits lo 63 48 : Int) = 0 ||
    (bits lo 1 0 ≤ 1 && (bits lo 63 48 : Int) ≠ 1) : Bool) = false := by
  simp [SoundShape, and_assoc]

theorem outside_iff (i j : Int) :
    (i < 0 || (bits lo 47 32 : Int) ≤ i || j < 0 || (bits lo 63 48 : Int) ≤ j : Bool) = true ↔ ¬ Inside lo i j := by
  simp only [Bool.or_eq_true, decide_eq_true_eq]
  omega

theorem shapeHandle_unsound (h : ¬ SoundShape lo) : m.shapeHandle cid lo hi p = 0 :=
  if_pos (by rwa [soundShape_iff, Bool.not_eq_false] at h)

/-- A sound shape gives the handle of the VCN of a position inside it, once the position is reduced where the shape goes around. -/
theorem shapeHandle_sound (h : SoundShape lo) :
    let i := if goesAround lo then posI p % (bits lo 47 32 : Int) else posI p
    let j := if goesAround lo then posJ p % (bits lo 63 48 : Int) else posJ p
    m.shapeHandle cid lo hi p = if Inside lo i j then m.vcnHandle cid (shapeVcn lo hi i j) else 0 := by
  intro i j
  rw [soundShape_iff, ← Bool.not_eq_true] at h
  exact (if_neg h).trans ((if_congr (outside_iff i j) rfl rfl).trans (ite_not ..))

theorem shapeHandle_around (h : SoundShape lo) (ha : bits lo 1 0 = 1 ∨ bits lo 1 0 = 3) :
    m.shapeHandle cid lo hi p =
      m.vcnHandle cid (shapeVcn lo hi (posI p % (bits lo 47 32 : Int)) (posJ p % (bits lo 63 48 : Int))) := by
  rw [shapeHandle_sound h, if_pos (goesAround_iff.mpr ha), if_pos (goesAround_iff.mpr ha)]
  obtain ⟨-, hdx, hdy, -⟩ := h
  exact if_pos ⟨Int.emod_nonneg _ hdx, Int.emod_lt_of_pos _ (by omega), Int.emod_nonneg _ hdy, Int.emod_lt_of_pos _ (by omega)⟩

theorem shapeHandle_straight (h : SoundShape lo) (ha : ¬ (bits lo 1 0 = 1 ∨ bits lo 1 0 = 3)) :
    m.shapeHandle cid lo hi p =
      if Inside lo (posI p) (posJ p) then m.vcnHandle cid (shapeVcn lo hi (posI p) (posJ p)) else 0 := by
  rw [shapeHandle_sound h, if_neg (mt goesAround_iff.mp ha), if_neg (mt goesAround_iff.mp ha)]

end

/-- A word that is the handle of the VCN v where v names a core, and 0 where it names none, is what the model writes. -/
theorem eq_vcnHandle {m : Module} {cid : Nat} {v : Int} {r : Word}
    (hn : m.NamesCore cid v → bits r 15 0 = v.toNat % 2 ^ 16 ∧ bits r 31 16 = m.modnum.toNat ∧
      bits r 47 32 = (m.site (siteOf cid)).epoch % 2 ^ 16 ∧ bits r 63 48 = handleCheck r)
    (h0 : ¬ m.NamesCore cid v → r = 0#64) : r = m.vcnHandle cid v := by
  by_cases h : m.NamesCore cid v
  · obtain ⟨hv, hm, hg, hc⟩ := hn h
    rw [vcnHandle_of_names h]
    exact eq_mkHandle hv (hm.trans (Nat.mod_eq_of_lt m.modnum.isLt).symm) hg hc
  · rw [vcnHandle_of_not_names h, h0 h]
    rfl

/-- The SHAPE register that a word names. -/
def shapeAt (s : State) (k : Word) : Word × Word := Tab.get (0#64, 0#64) (s.m.site (siteOf s.cid)).shapes (bits k 3 0)

/-- R434 names one word for a shape and a position: the one that HQRY writes. -/
theorem eq_shapeHandle_of_shapeGives {s : State} {k p r : Word} (h : ShapeGives s k p r) :
    r = s.m.shapeHandle s.cid (shapeAt s k).1 (shapeAt s k).2 p := by
  obtain ⟨hunsound, haround, hinside, houtside⟩ := h
  by_cases hs : SoundShape (shapeAt s k).1
  · by_cases ha : bits (shapeAt s k).1 1 0 = 1 ∨ bits (shapeAt s k).1 1 0 = 3
    · obtain ⟨hn, h0⟩ := haround hs ha
      exact (eq_vcnHandle hn h0).trans (shapeHandle_around hs ha).symm
    · rw [shapeHandle_straight hs ha]
      by_cases hin : Inside (shapeAt s k).1 (posI p) (posJ p)
      · obtain ⟨hn, h0⟩ := hinside hs ha hin
        rw [if_pos hin]
        exact eq_vcnHandle hn h0
      · rw [if_neg hin]
        exact houtside hs ha hin
  · exact (hunsound hs).trans (shapeHandle_unsound hs).symm

/-! ## The instructions -/

theorem execHself_retires {f : Dest} {s s1 s2 : State} (hr : Reads s [] (some (.reg, f.a)) [] s1)
    (hw : writeDst f.a (s1.m.selfHandle s1.cid) s1 = .ok ((), s2)) : execHself f s = .next (s.retire s2) :=
  run_retires hr.1 _ ((Run.bind_ok hr.2).trans ((Run.get_bind ..).trans hw))

section
variable {f : Bin} {s s1 s2 : State} {l : List Word} (hr : Reads s [⟨f.b, f.kb, .addr⟩, ⟨f.c, f.kc, .addr⟩] (some (.reg, f.a)) l s1)
include hr

/-- The early look at the shape number finds the value that is read later, or nothing where C is `z`. -/
theorem hqry_peek : peekReg ⟨f.c, f.kc, .addr⟩ s.begun = .ok (if f.c.toNat < 32 then some (arg l 1) else none, s.begun) :=
  peekReg_addr (by simp) hr.2 rfl

theorem execHqry_faults (hk : bits (arg l 1) 63 4 ≠ 0) : execHqry f s = .next (s.faulted { cause := .badopnd }) := by
  refine run_faults hr.1 _ ((Run.bind_ok (hqry_peek hr)).trans ?_)
  by_cases hc : f.c.toNat < 32
  · simp [hc, hk]
  · simp [hc, Run.bind_ok hr.2, hk]

theorem execHqry_retires (hk : bits (arg l 1) 63 4 = 0)
    (hw : writeDst f.a (s1.m.shapeHandle s1.cid (shapeAt s1 (arg l 1)).1 (shapeAt s1 (arg l 1)).2 (arg l 0)) s1 = .ok ((), s2)) :
    execHqry f s = .next (s.retire s2) := by
  refine run_retires hr.1 _ ((Run.bind_ok (hqry_peek hr)).trans ?_)
  have hearly : (if f.c.toNat < 32 then some (arg l 1) else none).any (fun k => bits k 63 4 ≠ 0) = false := by
    split <;> simp [hk]
  simp only [hearly, Run.stopIf_false, Run.bind_ok hr.2, hk, ne_eq, not_true_eq_false, decide_false, Run.get_bind]
  exact hw

end

end Sys2Proof.Machine

namespace Sys2Proof.Claims
open Sys2Proof.Machine

/-- Settles O42: HSELF and HQRY write what the model's handle functions give, and R434 and R22 determine those words field by field. -/
theorem handleInstructions : Obligations.HandleInstructions := by
  refine ⟨fun f s s1 s2 hr hw => execHself_retires hr hw, fun f s s1 l hr => ⟨execHqry_faults hr, fun hk r s2 hg hw => ?_⟩,
    fun vcn mod gen hv hm hg => ?_⟩
  · rw [eq_shapeHandle_of_shapeGives hg] at hw
    exact execHqry_retires hr hk hw
  · obtain ⟨fv, fm, fg, fc⟩ := mkHandle_fields vcn mod gen
    refine ⟨fv.trans (Nat.mod_eq_of_lt hv), fm.trans (Nat.mod_eq_of_lt hm), fg.trans (Nat.mod_eq_of_lt hg), fc, fun m s g hl hne => ?_⟩
    exact handleOk_of_check_ne fun h => hne (by rw [h, handleCheck_congr hl, fc])

end Sys2Proof.Claims
end

section
/-!
PROOFS. Lanes of the vector unit (R486): reading a lane of a result that was laid down lane by lane, the flags of such a result, and the
lanes of an integer, float, logic or comparison form.
-/
namespace Sys2Proof.Machine
open Sys2Proof.Claims

/-! ## Reading lanes -/

theorem laneAt_lt (w x i : Nat) : laneAt w x i < 2 ^ w := Nat.mod_lt _ (Nat.two_pow_pos w)

@[simp] theorem laneAt_mod (w x i : Nat) : laneAt w x i % 2 ^ w = laneAt w x i := Nat.mod_eq_of_lt (laneAt_lt w x i)

/-- The lowest lane and the lanes above it. -/
theorem laneAt_cons_zero {w v : Nat} (hv : v < 2 ^ w) (r : Nat) : laneAt w (v + 2 ^ w * r) 0 = v := by
  simp [laneAt, Nat.mod_eq_of_lt hv]

theorem laneAt_cons_succ {w v : Nat} (hv : v < 2 ^ w) (r i : Nat) : laneAt w (v + 2 ^ w * r) (i + 1) = laneAt w r i := by
  rw [laneAt, laneAt, Nat.mul_succ, Nat.add_comm (w * i), Nat.pow_add, ← Nat.div_div_eq_div_mul,
    Nat.add_mul_div_left _ _ (Nat.two_pow_pos w), Nat.div_eq_of_lt hv, Nat.zero_add]

/-- A number is its lowest lane and what stands above it. -/
theorem eq_lane_cons (w x : Nat) : x = laneAt w x 0 + 2 ^ w * (x / 2 ^ w) := by
  simp [laneAt, Nat.mod_add_div]

theorem laneAt_succ (w x i : Nat) : laneAt w x (i + 1) = laneAt w (x / 2 ^ w) i := by
  conv_lhs => rw [eq_lane_cons w x]
  exact laneAt_cons_succ (laneAt_lt ..) _ _

/-- Lane n replaced: every other lane stays. -/
theorem laneAt_replace {w c : Nat} (hc : c < 2 ^ w) (n i x : Nat) :
    laneAt w (x - laneAt w x n * 2 ^ (w * n) + c * 2 ^ (w * n)) i = if i = n then c else laneAt w x i := by
  induction n generalizing i x with
  | zero =>
    have hx : x - laneAt w x 0 * 2 ^ (w * 0) + c * 2 ^ (w * 0) = c + 2 ^ w * (x / 2 ^ w) := by
      have := eq_lane_cons w x
      simp only [Nat.mul_zero, Nat.pow_zero, Nat.mul_one]
      omega
    rw [hx]
    cases i with
    | zero => simp [laneAt_cons_zero hc]
    | succ i => simp [laneAt_cons_succ hc, laneAt_succ]
  | succ n ih =>
    have hx : x - laneAt w x (n + 1) * 2 ^ (w * (n + 1)) + c * 2 ^ (w * (n + 1)) =
        laneAt w x 0 + 2 ^ w * (x / 2 ^ w - laneAt w (x / 2 ^ w) n * 2 ^ (w * n) + c * 2 ^ (w * n)) := by
      have hle : laneAt w (x / 2 ^ w) n * 2 ^ (w * n) ≤ x / 2 ^ w :=
        (Nat.mul_le_mul_right _ (Nat.mod_le _ _)).trans (Nat.div_mul_le_self _ _)
      have hp : ∀ v, v * 2 ^ (w * (n + 1)) = 2 ^ w * (v * 2 ^ (w * n)) := fun v => by rw [Nat.mul_succ, Nat.pow_add]; ring
      have := eq_lane_cons w x
      have := Nat.mul_le_mul_left (2 ^ w) hle
      rw [hp, hp, laneAt_succ, Nat.mul_add, Nat.mul_sub]
      omega
    rw [hx]
    cases i with
    | zero => simp [laneAt_cons_zero (laneAt_lt w x 0)]
    | succ i => simp [laneAt_cons_succ (laneAt_lt w x 0), ih, laneAt_succ w x i]

/-! ## Results laid down lane by lane -/

theorem packLanes_cons (w : Nat) (g : Nat → Nat × Nat) (a : Nat) (l : List Nat) :
    packLanes w g (a :: l) = ((g a).1 % 2 ^ w + 2 ^ w * (packLanes w g l).1, (g a).2 ||| (packLanes w g l).2) := rfl

theorem laneAt_packLanes {w n : Nat} (g : Nat → Nat × Nat) (a : Nat) {i : Nat} (hi : i < n) :
    laneAt w (packLanes w g (upFrom a n)).1 i = (g (a + i)).1 % 2 ^ w := by
  induction n generalizing a i with
  | zero => cases hi
  | succ n ih =>
    rw [upFrom, packLanes_cons]
    cases i with
    | zero => exact laneAt_cons_zero (Nat.mod_lt _ (Nat.two_pow_pos w)) _
    | succ i =>
      rw [laneAt_cons_succ (Nat.mod_lt _ (Nat.two_pow_pos w)), ih _ (Nat.lt_of_succ_lt_succ hi), Nat.succ_add_eq_add_succ]

theorem packLanes_lt (w : Nat) (g : Nat → Nat × Nat) (a n : Nat) : (packLanes w g (upFrom a n)).1 < 2 ^ (w * n) := by
  induction n generalizing a with
  | zero => exact Nat.one_pos
  | succ n ih =>
    have hlow := Nat.mod_lt (g a).1 (Nat.two_pow_pos w)
    have hhigh := Nat.mul_le_mul_left (2 ^ w) (Nat.succ_le_of_lt (ih (a + 1)))
    rw [Nat.mul_succ] at hhigh
    rw [upFrom, packLanes_cons, Nat.mul_succ, Nat.add_comm (w * n), Nat.pow_add]
    dsimp only
    omega

theorem foldl_or (g : Nat → Nat) (l : List Nat) (a : Nat) :
    l.foldl (fun a i => a ||| g i) a = a ||| l.foldl (fun a i => a ||| g i) 0 := by
  induction l generalizing a with
  | nil => simp
  | cons i l ih => rw [List.foldl_cons, List.foldl_cons, ih (a ||| g i), ih (0 ||| g i), Nat.zero_or, Nat.or_assoc]

/-- What a form lays down in lane i: the result g where the lane is active, z with no flags elsewhere. -/
def maskedLane (o : VOp) (z : Nat → Nat) (g : Nat → Nat × Nat) (i : Nat) : Nat × Nat :=
  if Nat.testBit o.m i then g i else (z i, 0)

/-- The flags of such a result are those of its active lanes. -/
theorem packLanes_masked_flags (w : Nat) (o : VOp) (z : Nat → Nat) (g : Nat → Nat × Nat) (n : Nat) :
    (packLanes w (maskedLane o z g) (upFrom 0 n)).2 = flagsOf o n g := by
  unfold flagsOf
  induction upFrom 0 n with
  | nil => rfl
  | cons i l ih =>
    rw [packLanes_cons, ih, List.filter_cons, maskedLane]
    by_cases h : Nat.testBit o.m i
    · rw [if_pos h, if_pos h, List.foldl_cons, foldl_or _ _ (0 ||| _), Nat.zero_or]
    · rw [if_neg h, if_neg h, Nat.zero_or]

theorem flagsOf_congr {o : VOp} {n : Nat} {g g' : Nat → Nat × Nat} (h : ∀ i, (g i).2 = (g' i).2) : flagsOf o n g = flagsOf o n g' := by
  simp only [flagsOf, h]

/-- Lanes that set no flag. -/
theorem flagsOf_pure (o : VOp) (n : Nat) (v : Nat → Nat) : flagsOf o n (fun i => (v i, 0)) = 0 := by
  unfold flagsOf
  induction (upFrom 0 n).filter fun i => Nat.testBit o.m i with
  | nil => rfl
  | cons i l ih => rw [List.foldl_cons, Nat.or_zero, ih]

/-- The result of a form of R490 on n lanes of width w: an inactive lane keeps its old value or is zero. -/
def eachLane (o : VOp) (f : VecF) (n w : Nat) (g : Nat → Nat × Nat) : Nat × Nat :=
  packLanes w (maskedLane o (fun i => if f.zero then 0 else laneAt w o.old.toNat i) g) (upFrom 0 n)

section
variable (o : VOp) (f : VecF) {n : Nat} (w : Nat) (g : Nat → Nat × Nat)

theorem eachLane_lane {i : Nat} (hi : i < n) : laneAt w (eachLane o f n w g).1 i = laneOf o f w i ((g i).1 % 2 ^ w) := by
  rw [eachLane, laneAt_packLanes _ _ hi, Nat.zero_add, maskedLane, laneOf]
  split
  · rfl
  · split <;> simp

theorem eachLane_flags : (eachLane o f n w g).2 = flagsOf o n g := packLanes_masked_flags ..

theorem eachLane_lt : (eachLane o f n w g).1 < 2 ^ (w * n) := packLanes_lt ..

/-- A form that sets no flag and whose results fit their lanes. -/
theorem eachLane_pure {i : Nat} (v : Nat → Nat) (hi : i < n) (hv : v i < 2 ^ w) :
    (eachLane o f n w fun i => (v i, 0)).2 = 0 ∧ laneAt w (eachLane o f n w fun i => (v i, 0)).1 i = laneOf o f w i (v i) :=
  ⟨by rw [eachLane_flags, flagsOf_pure], by rw [eachLane_lane _ _ _ _ hi, Nat.mod_eq_of_lt hv]⟩

end

/-! ## One lane -/

theorem truncTo_lt (w : Nat) (x : Int) : truncTo w x < 2 ^ w := by
  have hp : (0 : Int) < (2 ^ w : Nat) := Int.natCast_pos.mpr (Nat.two_pow_pos w)
  have := Int.emod_lt_of_pos x hp
  have := Int.emod_nonneg x hp.ne'
  unfold truncTo
  omega

theorem isInt_of_le {ty : Nat} (h : ty ≤ 7) : Num.isInt ty = true := decide_eq_true h
theorem isInt_of_lt {ty : Nat} (h : 7 < ty) : Num.isInt ty = false := decide_eq_false (Nat.not_le.mpr h)

theorem intMin_le_intMax (t : Nat) : Num.intMin t ≤ Num.intMax t := by
  have h1 := Nat.two_pow_pos (Num.widthOf t - 1)
  have h2 := Nat.two_pow_pos (Num.widthOf t)
  unfold Num.intMin Num.intMax
  split <;> omega

/-- R138: the model's clamp is the nearest value of the type. -/
theorem clamp_eq (t : Nat) (v : Int) : Num.clamp t v = max (Num.intMin t) (min (Num.intMax t) v) := by
  have := intMin_le_intMax t
  unfold Num.clamp
  split
  · omega
  · split <;> omega

theorem intOut_eq (t : Nat) (sat : Bool) (v : Int) : Num.intOut t sat v = laneNarrow t sat v := by
  rw [Num.intOut, laneNarrow, clamp_eq]

theorem laneNarrow_lt (t : Nat) (sat : Bool) (v : Int) : laneNarrow t sat v < 2 ^ Num.widthOf t := truncTo_lt ..

/-- The arithmetic forms on integers: the exact result, narrowed. -/
theorem laneArith_int {ty : Nat} (hty : ty ≤ 7) (vop mode h : Nat) (sat : Bool) (b c d : Nat) :
    laneArith vop ty mode h sat b c d = (laneNarrow ty sat (laneExact vop (Num.intVal ty b) (Num.intVal ty c) (Num.intVal ty d)), 0) := by
  rw [laneArith, if_pos (isInt_of_le hty), ← intOut_eq]
  match vop with
  | 0 | 1 | 2 | 3 | 4 | n + 7 => rfl
  | 5 => rw [laneExact, ← max_def]; rfl
  | 6 =>
    have habs : ((Num.intVal ty b).natAbs : Int) = if Num.intVal ty b < 0 then -Num.intVal ty b else Num.intVal ty b := by
      split <;> omega
    rw [laneExact, ← habs]; rfl

theorem fmtOf_width {ty : Nat} (h8 : 8 ≤ ty) (h11 : ty ≤ 11) : (Num.fmtOf ty).w = Num.widthOf ty := by
  interval_cases ty <;> rfl

theorem fmtOf_width_pos (ty : Nat) : 0 < (Num.fmtOf ty).w := by
  unfold Num.fmtOf
  split <;> decide

/-- Changing the top bit of a number is adding it, modulo the width. -/
theorem xor_top_eq_add (w x : Nat) : (x % 2 ^ (w + 1)) ^^^ 2 ^ w = (x + 2 ^ w) % 2 ^ (w + 1) := by
  refine Nat.eq_of_testBit_eq fun i => ?_
  rw [Nat.testBit_xor, Nat.testBit_mod_two_pow, Nat.testBit_mod_two_pow, Nat.testBit_two_pow, Nat.add_comm x]
  rcases Nat.lt_trichotomy i w with h | rfl | h
  · simp [Nat.testBit_two_pow_add_gt h, h.ne']
  · simp [Nat.testBit_two_pow_add_eq]
  · simp [h.ne, show ¬ i < w + 1 by omega]

/-- The float forms: one rounding of the exact result; VABS and VNEG change the sign bit alone. -/
theorem laneArith_float {o : VOp} {f : VecF} (h8 : 8 ≤ f.ty.toNat) (h11 : f.ty.toNat ≤ 11) (vop i : Nat) :
    laneArith vop f.ty.toNat (effMode f.rm.toNat o.sw) (o.h i) f.sat (laneAt (Num.widthOf f.ty.toNat) o.b i)
      (laneAt (Num.widthOf f.ty.toNat) o.c i) (laneAt (Num.widthOf f.ty.toNat) o.d i) = floatLane o f vop i := by
  rw [laneArith, isInt_of_lt h8, ← fmtOf_width h8 h11]
  match vop with
  | 0 | 1 | 2 | 3 | 4 | 5 | 6 => rfl
  | n + 7 =>
    obtain ⟨w, hw⟩ : ∃ w, (Num.fmtOf f.ty.toNat).w = w + 1 := ⟨_, (Nat.succ_pred_eq_of_pos (fmtOf_width_pos _)).symm⟩
    simp only [floatLane, hw, Nat.add_sub_cancel, ← xor_top_eq_add]
    rfl

/-- The bitwise forms and the shifts. -/
theorem laneBits_eq {vop : Nat} (h8 : 8 ≤ vop) (h13 : vop ≤ 13) (w x y : Nat) : laneBits vop w x y = laneLogic vop w x y := by
  have hsar : truncTo w (signedOf w x / 2 ^ (y % w)) = truncTo w (signedOf w x / ((2 ^ (y % w) : Nat) : Int)) := by
    rw [Nat.cast_pow, Nat.cast_ofNat]
  interval_cases vop
  · rfl
  · rfl
  · rfl
  · exact congrArg (· % 2 ^ w) (Nat.shiftLeft_eq x (y % w))
  · exact Nat.shiftRight_eq_div_pow x (y % w)
  · exact hsar

theorem laneLogic_lt {vop w x y : Nat} (hx : x < 2 ^ w) (hy : y < 2 ^ w) : laneLogic vop w x y < 2 ^ w := by
  unfold laneLogic
  split
  · exact Nat.and_lt_two_pow x hy
  · exact Nat.or_lt_two_pow hx hy
  · exact Nat.xor_lt_two_pow hx hy
  · exact Nat.mod_lt _ (Nat.two_pow_pos w)
  · exact (Nat.div_le_self ..).trans_lt hx
  · exact truncTo_lt ..

/-- A comparison of integers sets no flag. -/
theorem laneCmp_int {ty : Nat} (hty : ty ≤ 7) (cnd b c : Nat) :
    laneCmp ty cnd b c = (laneHolds cnd (Num.intVal ty b) (Num.intVal ty c), 0) := by
  rw [laneCmp, if_pos (isInt_of_le hty)]
  match cnd with
  | 0 | 1 | 2 | n + 3 => rfl

theorem laneCmp_float {ty : Nat} (hty : 8 ≤ ty) (cnd b c : Nat) : laneCmp ty cnd b c = (Num.fmtOf ty).cmp cnd b c := by
  rw [laneCmp, isInt_of_lt hty]
  rfl

/-! ## The lanewise forms -/

theorem compute_arith (o : VOp) (f : VecF) {vop : Nat} (h : vop ≤ 7) :
    o.compute vop f = eachLane o f (lanesOf f.ty.toNat) (Num.widthOf f.ty.toNat) fun i =>
      laneArith vop f.ty.toNat (effMode f.rm.toNat o.sw) (o.h i) f.sat (laneAt (Num.widthOf f.ty.toNat) o.b i)
        (laneAt (Num.widthOf f.ty.toNat) o.c i) (laneAt (Num.widthOf f.ty.toNat) o.d i) := by
  interval_cases vop <;> rfl

theorem compute_logic (o : VOp) (f : VecF) {vop : Nat} (h8 : 8 ≤ vop) (h13 : vop ≤ 13) :
    o.compute vop f = eachLane o f (lanesOf f.ty.toNat) (Num.widthOf f.ty.toNat) fun i =>
      (laneLogic vop (Num.widthOf f.ty.toNat) (laneAt (Num.widthOf f.ty.toNat) o.b i) (laneAt (Num.widthOf f.ty.toNat) o.c i), 0) := by
  simp only [← laneBits_eq h8 h13]
  interval_cases vop <;> rfl

theorem compute_cmp (o : VOp) (f : VecF) :
    o.compute 14 f = packLanes 1 (maskedLane o (fun _ => 0) fun i =>
      let r := laneCmp f.ty.toNat f.rm.toNat (laneAt (Num.widthOf f.ty.toNat) o.b i) (laneAt (Num.widthOf f.ty.toNat) o.c i)
      (r.1.toNat, r.2)) (upFrom 0 (lanesOf f.ty.toNat)) := rfl

section
variable (o : VOp) (f : VecF) {i : Nat} (hi : i < lanesOf f.ty.toNat)
include hi

theorem compute_float_lane {vop : Nat} (hv : vop ≤ 7) (h8 : 8 ≤ f.ty.toNat) (h11 : f.ty.toNat ≤ 11) :
    (o.compute vop f).2 = flagsOf o (lanesOf f.ty.toNat) (floatLane o f vop) ∧
      laneAt (Num.widthOf f.ty.toNat) (o.compute vop f).1 i =
        laneOf o f (Num.widthOf f.ty.toNat) i ((floatLane o f vop i).1 % 2 ^ Num.widthOf f.ty.toNat) := by
  simp only [compute_arith o f hv, laneArith_float h8 h11]
  exact ⟨eachLane_flags .., eachLane_lane _ _ _ _ hi⟩

theorem compute_int_lane {vop : Nat} (hv : vop ≤ 7) (hty : f.ty.toNat ≤ 7) :
    let w := Num.widthOf f.ty.toNat
    (o.compute vop f).2 = 0 ∧ laneAt w (o.compute vop f).1 i =
      laneOf o f w i (laneNarrow f.ty.toNat f.sat (laneExact vop (Num.intVal f.ty.toNat (laneAt w o.b i))
        (Num.intVal f.ty.toNat (laneAt w o.c i)) (Num.intVal f.ty.toNat (laneAt w o.d i)))) := by
  simp only [compute_arith o f hv, laneArith_int hty]
  exact eachLane_pure _ _ _ _ hi (laneNarrow_lt ..)

theorem compute_logic_lane {vop : Nat} (h8 : 8 ≤ vop) (h13 : vop ≤ 13) :
    let w := Num.widthOf f.ty.toNat
    (o.compute vop f).2 = 0 ∧
      laneAt w (o.compute vop f).1 i = laneOf o f w i (laneLogic vop w (laneAt w o.b i) (laneAt w o.c i)) := by
  rw [compute_logic o f h8 h13]
  exact eachLane_pure _ _ _ _ hi (laneLogic_lt (laneAt_lt ..) (laneAt_lt ..))

theorem compute_select_lane :
    let w := Num.widthOf f.ty.toNat
    (o.compute 15 f).2 = 0 ∧
      laneAt w (o.compute 15 f).1 i = laneOf o f w i (if Nat.testBit o.d i then laneAt w o.b i else laneAt w o.c i) :=
  eachLane_pure o f _ (fun i => if Nat.testBit o.d i then laneAt _ o.b i else laneAt _ o.c i) hi
    (by split <;> exact laneAt_lt ..)

theorem compute_permute_lane :
    let w := Num.widthOf f.ty.toNat
    (o.compute 19 f).2 = 0 ∧
      laneAt w (o.compute 19 f).1 i = laneOf o f w i (laneAt w o.b (laneAt w o.c i % lanesOf f.ty.toNat)) :=
  eachLane_pure o f _ (fun i => laneAt _ o.b (laneAt _ o.c i % lanesOf f.ty.toNat)) hi (laneAt_lt ..)

/-- A comparison's lane is its truth value where the lane is active, and 0 elsewhere. -/
theorem compute_cmp_lane :
    laneAt 1 (o.compute 14 f).1 i = if Nat.testBit o.m i ∧ (laneCmp f.ty.toNat f.rm.toNat (laneAt (Num.widthOf f.ty.toNat) o.b i)
      (laneAt (Num.widthOf f.ty.toNat) o.c i)).1 = true then 1 else 0 := by
  rw [compute_cmp, laneAt_packLanes _ _ hi, Nat.zero_add, maskedLane]
  by_cases hm : Nat.testBit o.m i
  · cases hc : (laneCmp f.ty.toNat f.rm.toNat (laneAt (Num.widthOf f.ty.toNat) o.b i) (laneAt (Num.widthOf f.ty.toNat) o.c i)).1 <;>
      simp [hm, hc]
  · simp [hm]

end

theorem compute_cmp_lt (o : VOp) (f : VecF) : (o.compute 14 f).1 < 2 ^ lanesOf f.ty.toNat := by
  rw [compute_cmp]
  exact (packLanes_lt ..).trans_eq (by rw [Nat.one_mul])

theorem compute_cmp_flags (o : VOp) (f : VecF) (v : Nat → Nat) :
    (o.compute 14 f).2 = flagsOf o (lanesOf f.ty.toNat) fun i => (v i, (laneCmp f.ty.toNat f.rm.toNat
      (laneAt (Num.widthOf f.ty.toNat) o.b i) (laneAt (Num.widthOf f.ty.toNat) o.c i)).2) := by
  rw [compute_cmp, packLanes_masked_flags]
  exact flagsOf_congr fun _ => rfl

section
variable (o : VOp) (f : VecF) {i : Nat} (hi : i < lanesOf f.ty.toNat)
include hi

theorem compute_cmp_float_lane (h8 : 8 ≤ f.ty.toNat) :
    let w := Num.widthOf f.ty.toNat
    let cmp (j : Nat) : Bool × Nat := (Num.fmtOf f.ty.toNat).cmp f.rm.toNat (laneAt w o.b j) (laneAt w o.c j)
    (o.compute 14 f).2 = flagsOf o (lanesOf f.ty.toNat) (fun j => (0, (cmp j).2)) ∧
      laneAt 1 (o.compute 14 f).1 i = if Nat.testBit o.m i ∧ (cmp i).1 = true then 1 else 0 := by
  simp only [← laneCmp_float h8]
  exact ⟨compute_cmp_flags o f _, compute_cmp_lane o f hi⟩

theorem compute_cmp_int_lane (h7 : f.ty.toNat ≤ 7) :
    let x := Num.intVal f.ty.toNat (laneAt (Num.widthOf f.ty.toNat) o.b i)
    let y := Num.intVal f.ty.toNat (laneAt (Num.widthOf f.ty.toNat) o.c i)
    (o.compute 14 f).2 = 0 ∧
      laneAt 1 (o.compute 14 f).1 i = if Nat.testBit o.m i ∧ laneHolds f.rm.toNat x y = true then 1 else 0 := by
  refine ⟨?_, by rw [compute_cmp_lane o f hi, laneCmp_int h7]⟩
  rw [compute_cmp_flags o f fun _ => 0]
  simp only [laneCmp_int h7, flagsOf_pure]

end

/-- A lanewise form runs to its result. -/
theorem run_laneForm {o : VOp} {vop : Nat} {f : VecF} (hb : o.bad = false) (h : laneForm o.i = some (vop, f)) (cid : Nat) (m : Module) :
    o.run cid m = (m, .done (o.compute vop f).1 (o.compute vop f).2) := by
  unfold laneForm at h
  split at h <;> cases h
  all_goals simp only [VOp.run, hb, ‹o.i = _›]; rfl

end Sys2Proof.Machine
end

section
/-!
PROOFS. Conversions, dot products, reductions and moves of the vector unit (R493–R495, R499): VRED is the tree of R154 level by level.
-/
namespace Sys2Proof.Machine
open Sys2Proof.Claims

/-! ## Conversions and dot products -/

theorem run_vcvt {o : VOp} {f : VecF} (hb : o.bad = false) (hi : o.i = .vcvt f) (cid : Nat) (m : Module) :
    let r := eachLane o f (min (lanesOf f.ty.toNat) (lanesOf f.d.toNat)) (Num.widthOf f.ty.toNat) (convertLane o f)
    o.run cid m = (m, .done r.1 r.2) := by
  simp only [VOp.run, hb, hi]
  rfl

/-- A sum gathered from the left is the sum of the list. -/
theorem foldl_add_eq_sum (g : Nat → Int) (l : List Nat) : l.foldl (fun a i => a + g i) 0 = (l.map g).sum := by
  rw [List.sum_eq_foldl, List.foldl_map]

theorem laneDot_eq (o : VOp) (f : VecF) (j : Nat) :
    laneDot f.ty.toNat (effMode f.rm.toNat o.sw) (o.h j) f.sat o.b o.c o.d j = dotLane o f j := by
  unfold laneDot dotLane
  by_cases hty : f.ty.toNat ≤ 7
  · simp only [isInt_of_le hty, hty, if_true, foldl_add_eq_sum, intOut_eq]
    rfl
  · simp only [isInt_of_lt (Nat.lt_of_not_le hty), hty, if_false]
    rfl

theorem run_vdot {o : VOp} {f : VecF} (hb : o.bad = false) (hi : o.i = .vdot f) (cid : Nat) (m : Module) :
    o.run cid m = (m, .done (eachLane o f 16 32 (dotLane o f)).1 (eachLane o f 16 32 (dotLane o f)).2) := by
  have hdot : dotLane o f = fun j => laneDot f.ty.toNat (effMode f.rm.toNat o.sw) (o.h j) f.sat o.b o.c o.d j :=
    funext fun j => (laneDot_eq o f j).symm
  simp only [VOp.run, hb, hi, hdot]
  rfl

/-! ## The tree of a reduction -/

/-- Two neighbours of the tree joined at output position i: one that is absent gives way to the other. -/
def joined (f : Nat → Nat → Nat → Nat × Nat) (i : Nat) : Option Nat → Option Nat → Option Nat × Nat
  | some a, some b => (some (f i a b).1, (f i a b).2)
  | some a, none => (some a, 0)
  | none, z => (z, 0)

theorem redLevel_cons_cons (f : Nat → Nat → Nat → Nat × Nat) (i : Nat) (a b : Option Nat) (l : List (Option Nat)) :
    redLevel f i (a :: b :: l) =
      ((joined f i a b).1 :: (redLevel f (i + 1) l).1, (joined f i a b).2 ||| (redLevel f (i + 1) l).2) := by
  cases a <;> cases b <;> rfl

/-- One level: each position joins elements 2i and 2i + 1, and the flags are ORed. -/
theorem redLevel_map (f : Nat → Nat → Nat → Nat × Nat) (x : Nat → Option Nat) (n i : Nat) :
    redLevel f i ((upFrom (2 * i) (2 * n)).map x) =
      ((upFrom i n).map fun j => (joined f j (x (2 * j)) (x (2 * j + 1))).1,
        (upFrom i n).foldl (fun a j => a ||| (joined f j (x (2 * j)) (x (2 * j + 1))).2) 0) := by
  induction n generalizing i with
  | zero => rfl
  | succ n ih =>
    have hl : (upFrom (2 * i) (2 * (n + 1))).map x = x (2 * i) :: x (2 * i + 1) :: (upFrom (2 * (i + 1)) (2 * n)).map x := rfl
    rw [hl, redLevel_cons_cons, ih, upFrom, List.map_cons, List.foldl_cons, foldl_or _ _ (0 ||| _), Nat.zero_or]

theorem treeOf_succ (f : Nat → Nat → Nat → Nat × Nat) (n : Nat) (x : Nat → Option Nat) :
    treeOf f (n + 1) x =
      ((treeOf f n fun j => (joined f j (x (2 * j)) (x (2 * j + 1))).1).1,
        (upFrom 0 (2 ^ n)).foldl (fun a j => a ||| (joined f j (x (2 * j)) (x (2 * j + 1))).2) 0 |||
          (treeOf f n fun j => (joined f j (x (2 * j)) (x (2 * j + 1))).1).2) := by
  rfl

theorem redTree_eq_treeOf (f : Nat → Nat → Nat → Nat × Nat) (n : Nat) (x : Nat → Option Nat) :
    redTree f n ((upFrom 0 (2 ^ n)).map x) = ((treeOf f n x).1.getD 0, (treeOf f n x).2) := by
  induction n generalizing x with
  | zero => rfl
  | succ n ih =>
    have hl := redLevel_map f x (2 ^ n) 0
    rw [Nat.mul_zero, ← Nat.pow_succ'] at hl
    rw [redTree, hl, treeOf_succ]
    simp only [ih]

/-- A combination of VRED is that of R495: ROP 0–2 are the arithmetic forms add, min and max; the others are bitwise. -/
theorem laneRed_eq (o : VOp) (f : VecF) (i a b : Nat) :
    laneRed f.d.toNat f.ty.toNat (effMode f.rm.toNat o.sw) (o.h i) f.sat a b = combined o f i a b := by
  unfold laneRed combined
  generalize f.d.toNat = rop
  by_cases hty : f.ty.toNat ≤ 7
  · match rop with
    | 0 => exact (laneArith_int hty ..).trans (if_pos hty).symm
    | 1 => exact ((laneArith_int hty ..).trans (by rw [laneExact, ← min_def])).trans (if_pos hty).symm
    | 2 => exact ((laneArith_int hty ..).trans (by rw [laneExact, ← max_def])).trans (if_pos hty).symm
    | 3 | 4 | n + 5 => rfl
  · have hf := isInt_of_lt (Nat.lt_of_not_le hty)
    match rop with
    | 0 | 1 | 2 => exact (if_neg (ne_true_of_eq_false hf)).trans (if_neg hty).symm
    | 3 | 4 | n + 5 => rfl

theorem lanesOf_eq_two_pow {ty : Nat} (h : ty ≤ 11) : 2 ^ Nat.log2 (lanesOf ty) = lanesOf ty := by
  interval_cases ty <;> decide

/-- The element that a reduction takes from lane i: none where the lane is inactive. -/
def reduced (o : VOp) (f : VecF) (i : Nat) : Option Nat :=
  if Nat.testBit o.m i then some (laneAt (Num.widthOf f.ty.toNat) o.b i) else none

theorem run_vred {o : VOp} {f : VecF} (hb : o.bad = false) (hi : o.i = .vred f) (hty : f.ty.toNat ≤ 11) (cid : Nat) (m : Module) :
    let r := treeOf (combined o f) (Nat.log2 (lanesOf f.ty.toNat)) (reduced o f)
    o.run cid m = (m, .done (r.1.getD 0) r.2) := by
  have hf : combined o f = fun i => laneRed f.d.toNat f.ty.toNat (effMode f.rm.toNat o.sw) (o.h i) f.sat :=
    funext fun i => funext fun a => funext fun b => (laneRed_eq o f i a b).symm
  have hn := redTree_eq_treeOf (combined o f) (Nat.log2 (lanesOf f.ty.toNat)) (reduced o f)
  rw [lanesOf_eq_two_pow hty] at hn
  have hc : o.compute 18 f =
      redTree (combined o f) (Nat.log2 (lanesOf f.ty.toNat)) ((upFrom 0 (lanesOf f.ty.toNat)).map (reduced o f)) := by
    rw [hf]; rfl
  have hr : o.run cid m = (m, .done (o.compute 18 f).1 (o.compute 18 f).2) := by
    simp only [VOp.run, hb, hi]; rfl
  rw [hr, hc, hn]

/-! ## Moves -/

section
variable {o : VOp} {f : VMovF} (hb : o.bad = false) (cid : Nat) (m : Module)
include hb

theorem run_vmov (hi : o.i = .vmov f) : o.run cid m = (m, .done o.b 0) := by
  simp only [VOp.run, hb, hi]; rfl

theorem run_vext (hi : o.i = .vext f) : o.run cid m =
    (m, .done (if f.ty.toNat ≤ 3 then truncTo 64 (signedOf (Num.widthOf f.ty.toNat) (laneAt (Num.widthOf f.ty.toNat) o.b f.lane.toNat))
      else laneAt (Num.widthOf f.ty.toNat) o.b f.lane.toNat) 0) := by
  simp only [VOp.run, hb, hi]; rfl

/-- VBC: every lane is the low bits of the general register. -/
theorem run_vbc {i : Nat} (hn : i < lanesOf f.ty.toNat) (hi : o.i = .vbc f) :
    ∃ v, o.run cid m = (m, .done v 0) ∧ laneAt (Num.widthOf f.ty.toNat) v i = o.b % 2 ^ Num.widthOf f.ty.toNat := by
  refine ⟨o.move 1 f, by simp only [VOp.run, hb, hi]; rfl, ?_⟩
  exact (laneAt_packLanes _ _ hn).trans (Nat.mod_mod ..)

/-- VINS: lane n is replaced, and no other. -/
theorem run_vins (i : Nat) (hi : o.i = .vins f) :
    ∃ v, o.run cid m = (m, .done v 0) ∧ laneAt (Num.widthOf f.ty.toNat) v i =
      if i = f.lane.toNat then o.c % 2 ^ Num.widthOf f.ty.toNat else laneAt (Num.widthOf f.ty.toNat) o.b i :=
  ⟨o.move 3 f, by simp only [VOp.run, hb, hi]; rfl, laneAt_replace (Nat.mod_lt _ (Nat.two_pow_pos _)) ..⟩

end

end Sys2Proof.Machine
end

section
/-!
PROOFS. The memory forms of the vector unit (R497, R498): the elements in ascending order, each passed over, loaded, stored or faulting,
and the elements that one store takes (R199).
-/
namespace Sys2Proof.Machine
open Sys2Proof.Claims

/-! ## Operations on the module -/

theorem MM.bind_ok {α β : Type} {x : MM α} {f : α → MM β} {m n : Module} {a : α} (h : x m = .ok (a, n)) : (x >>= f) m = f a n := by
  show StateT.bind x f m = _
  rw [StateT.bind, h]; rfl

theorem MM.bind_error {α β : Type} {x : MM α} {f : α → MM β} {m : Module} {e : Stop} (h : x m = .error e) :
    (x >>= f) m = .error e := by
  show StateT.bind x f m = _
  rw [StateT.bind, h]; rfl

theorem MM.stopIf_eq_ok {b : Bool} (hb : b = false) (c : Cause) (a : Nat) (m : Module) : MM.stopIf b c a m = .ok ((), m) := by
  subst hb; rfl

theorem MM.stopIf_eq_error {b : Bool} (hb : b = true) (c : Cause) (a : Nat) (m : Module) :
    MM.stopIf b c a m = .error (.fault { cause := c, addr := BitVec.ofNat 64 a }) := by
  subst hb; rfl

/-! ## One access -/

section
variable (cid : Nat) (o : VOp) {w va : Nat} (k data : Nat) {m : Module}

theorem vecElem_misaligned (store : Bool) (h : va % (w / 8) ≠ 0) :
    vecElem cid o store w va k data m = .error (.fault { cause := .misalign, addr := BitVec.ofNat 64 va }) :=
  MM.bind_error (MM.stopIf_eq_error (decide_eq_true h) ..)

variable (ha : va % (w / 8) = 0)
include ha

theorem vecElem_aligned (store : Bool) : vecElem cid o store w va k data m =
    (if store then (do storeAt cid 4 va (leBytes (w / 8 * k) data) (swMode o.sw) true; return 0)
      else (do return leNat (← loadAt cid 4 va (w / 8) (swMode o.sw) true) : MM Nat)) m :=
  MM.bind_ok (MM.stopIf_eq_ok (decide_eq_false (not_not.mpr ha)) ..)

theorem vecElem_loads {bs : List Byte} {n : Module} (h : loadAt cid 4 va (w / 8) (swMode o.sw) true m = .ok (bs, n)) :
    vecElem cid o false w va k data m = .ok (leNat bs, n) :=
  (vecElem_aligned cid o k data ha false).trans (MM.bind_ok h)

theorem vecElem_load_stops {e : Stop} (h : loadAt cid 4 va (w / 8) (swMode o.sw) true m = .error e) :
    vecElem cid o false w va k data m = .error e :=
  (vecElem_aligned cid o k data ha false).trans (MM.bind_error h)

theorem vecElem_stores {n : Module} (h : storeAt cid 4 va (leBytes (w / 8 * k) data) (swMode o.sw) true m = .ok ((), n)) :
    vecElem cid o true w va k data m = .ok (0, n) :=
  (vecElem_aligned cid o k data ha true).trans (MM.bind_ok h)

theorem vecElem_store_stops {e : Stop} (h : storeAt cid 4 va (leBytes (w / 8 * k) data) (swMode o.sw) true m = .error e) :
    vecElem cid o true w va k data m = .error e :=
  (vecElem_aligned cid o k data ha true).trans (MM.bind_error h)

end

/-! ## The elements that remain -/

/-- Elements that one access of a form takes from i on. -/
def VOp.taken (o : VOp) (form : Nat) (f : VMemF) (i : Nat) : Nat := if form == 1 || form == 3 then o.piece form f i else 1

/-- The access of element i and of those that go with it. -/
def VOp.access (o : VOp) (cid form : Nat) (f : VMemF) (i : Nat) : MM Nat :=
  vecElem cid o (form == 1 || form == 3) (vmWidth f) (o.elem form f i) (o.taken form f i)
    (o.d / 2 ^ (vmWidth f * i) % 2 ^ (vmWidth f * o.taken form f i))

section
variable (cid form : Nat) (f : VMemF) (o : VOp) (m : Module)

theorem vecMem_passes {skip i : Nat} (l : List Nat) (h : skip ≠ 0 ∨ Nat.testBit o.m i = false) :
    vecMem cid form f o m skip (i :: l) = vecMem cid form f { o with pos := i + 1 } m (skip - 1) l := by
  have hc : (decide (skip ≠ 0) || !Nat.testBit o.m i) = true := by simpa using h
  exact if_pos hc

variable {m} {i : Nat} (l : List Nat) (h : Nat.testBit o.m i = true)
include h

theorem vecMem_goes_on {v : Nat} {n : Module} (hv : o.access cid form f i m = .ok (v, n)) :
    vecMem cid form f o m 0 (i :: l) =
      vecMem cid form f { o with pos := i + 1, got := o.got + v * 2 ^ (vmWidth f * i) } n (o.taken form f i - 1) l := by
  unfold VOp.access VOp.taken at hv
  rw [vecMem, if_neg (by simp [h])]
  dsimp only
  rw [hv]
  rfl

theorem vecMem_ends {e : FInfo} (hv : o.access cid form f i m = .error (.fault e)) :
    vecMem cid form f o m 0 (i :: l) = (m, .fault e) := by
  unfold VOp.access VOp.taken at hv
  rw [vecMem, if_neg (by simp [h])]
  dsimp only
  rw [hv]

end

/-- Elements stored with an earlier one are passed over. -/
theorem vecMem_skip (cid form : Nat) (f : VMemF) (o : VOp) (m : Module) {k n : Nat} (i : Nat) (hk : k ≤ n) :
    vecMem cid form f { o with pos := i } m k (upFrom i n) =
      vecMem cid form f { o with pos := i + k } m 0 (upFrom (i + k) (n - k)) := by
  induction k generalizing i n with
  | zero => rfl
  | succ k ih =>
    obtain ⟨n, rfl⟩ : ∃ n', n = n' + 1 := ⟨n - 1, by omega⟩
    rw [Nat.add_sub_add_right, show i + (k + 1) = i + 1 + k by omega]
    exact (vecMem_passes _ _ _ _ _ _ (.inl k.succ_ne_zero)).trans (ih (i + 1) (Nat.le_of_succ_le_succ hk))

section
variable {o : VOp} {form : Nat} {f : VMemF} {cid i : Nat}

theorem taken_store (h : form = 1 ∨ form = 3) : o.taken form f i = o.piece form f i := if_pos (by simpa using h)
theorem taken_load (h : ¬ (form = 1 ∨ form = 3)) : o.taken form f i = 1 := if_neg (by simpa using h)

theorem access_store (h : form = 1 ∨ form = 3) : o.access cid form f i = vecElem cid o true (vmWidth f) (o.elem form f i)
    (o.piece form f i) (o.d / 2 ^ (vmWidth f * i) % 2 ^ (vmWidth f * o.piece form f i)) := by
  rw [VOp.access, taken_store h, show (form == 1 || form == 3) = true by simpa using h]

theorem access_load (h : ¬ (form = 1 ∨ form = 3)) : o.access cid form f i = vecElem cid o false (vmWidth f) (o.elem form f i)
    1 (o.d / 2 ^ (vmWidth f * i) % 2 ^ (vmWidth f * 1)) := by
  rw [VOp.access, taken_load h, show (form == 1 || form == 3) = false by simpa using h]

end

/-! ## The elements of one store -/

/-- What a leading stretch of a, a+1, … has in common. -/
theorem holds_of_lt_takeWhile {p : Nat → Bool} {n a j : Nat} (h : j < ((upFrom a n).takeWhile p).length) : p (a + j) = true := by
  induction n generalizing a j with
  | zero => cases h
  | succ n ih =>
    rw [upFrom, List.takeWhile_cons] at h
    split at h
    next hp =>
      cases j with
      | zero => exact hp
      | succ j => rw [← Nat.succ_add_eq_add_succ]; exact ih (Nat.lt_of_succ_lt_succ h)
    next => cases h

theorem elem_eq (o : VOp) (form : Nat) (f : VMemF) (i : Nat) : o.elem form f i = elemAddr o form f i := by
  match form with
  | 0 | 1 | 2 | 3 | n + 4 => rfl

section
variable {o : VOp} {form : Nat} {f : VMemF} {i j : Nat}

/-- The elements of one store after the first: in the register, active, side by side, and in one aligned 8-byte piece. -/
theorem piece_later (h0 : j ≠ 0) (hj : j < o.piece form f i) :
    vmWidth f * (i + j + 1) ≤ 512 ∧ Nat.testBit o.m (i + j) = true ∧
      o.elem form f (i + j) = o.elem form f i + vmWidth f / 8 * j ∧ (o.elem form f i + vmWidth f / 8 * j) / 8 = o.elem form f i / 8 := by
  obtain ⟨j, rfl⟩ := Nat.exists_eq_succ_of_ne_zero h0
  have h := holds_of_lt_takeWhile (Nat.lt_of_succ_lt_succ (hj.trans_eq (Nat.add_comm _ _)))
  simpa [Nat.add_comm 1 j, and_assoc] using h

theorem piece_pos : 0 < o.piece form f i := Nat.lt_of_lt_of_le Nat.one_pos (Nat.le_add_right ..)

theorem vmWidth_pos (f : VMemF) : 0 < vmWidth f := by
  unfold vmWidth Num.widthOf
  split
  · decide
  · split <;> decide

theorem piece_within (hi : i < 512 / vmWidth f) : i + o.piece form f i ≤ 512 / vmWidth f := by
  obtain ⟨j, hj⟩ := Nat.exists_eq_succ_of_ne_zero (piece_pos (o := o) (form := form) (f := f) (i := i)).ne'
  rw [hj]
  by_cases h0 : j = 0
  · subst h0; exact hi
  · obtain ⟨hle, -⟩ := piece_later h0 (hj ▸ Nat.lt_succ_self j)
    exact (Nat.le_div_iff_mul_le (vmWidth_pos f)).mpr (by rwa [Nat.mul_comm])

theorem piece_all (hi : Nat.testBit o.m i = true) (hj : j < o.piece form f i) :
    Nat.testBit o.m (i + j) = true ∧ o.elem form f (i + j) = o.elem form f i + vmWidth f / 8 * j ∧
      (o.elem form f i + vmWidth f / 8 * j) / 8 = o.elem form f i / 8 := by
  by_cases h0 : j = 0
  · subst h0; exact ⟨hi, rfl, rfl⟩
  · exact (piece_later h0 hj).2

end

/-! ## Runs of the memory forms -/

theorem upFrom_sub {i n : Nat} (h : i < n) : upFrom i (n - i) = i :: upFrom (i + 1) (n - (i + 1)) := by
  obtain ⟨k, hk⟩ : ∃ k, n - i = k + 1 := ⟨n - i - 1, by omega⟩
  rw [hk, upFrom, show n - (i + 1) = k by omega]

section
variable {o : VOp} {form : Nat} {f : VMemF} (hb : o.bad = false) (hf : memForm o.i = some (form, f)) (cid : Nat) (m : Module)
include hb hf

/-- A memory form runs over the elements from its position on. -/
theorem run_memForm : o.run cid m = vecMem cid form f o m 0 (upFrom o.pos (512 / vmWidth f - o.pos)) := by
  unfold memForm at hf
  split at hf <;> cases hf
  all_goals simp only [VOp.run, hb, ‹o.i = _›]; rfl

theorem run_at (p got : Nat) : VOp.run { o with pos := p, got := got } cid m =
    vecMem cid form f { o with pos := p, got := got } m 0 (upFrom p (512 / vmWidth f - p)) :=
  run_memForm (o := { o with pos := p, got := got }) hb hf cid m

theorem run_finished (hi : 512 / vmWidth f ≤ o.pos) : o.run cid m = (m, .done o.got 0) := by
  rw [run_memForm hb hf, Nat.sub_eq_zero_of_le hi]
  rfl

variable (hi : o.pos < 512 / vmWidth f)
include hi

theorem run_inactive (h : Nat.testBit o.m o.pos = false) : o.run cid m = VOp.run { o with pos := o.pos + 1 } cid m := by
  rw [run_memForm hb hf, upFrom_sub hi, vecMem_passes _ _ _ _ _ _ (.inr h)]
  exact (run_at hb hf cid m (o.pos + 1) o.got).symm

variable {m} (h : Nat.testBit o.m o.pos = true)
include h

/-- An access that succeeds: the run goes on behind the elements that it took. -/
theorem run_goes_on {v : Nat} {n : Module} (hv : o.access cid form f o.pos m = .ok (v, n)) :
    o.run cid m =
      VOp.run { o with pos := o.pos + o.taken form f o.pos, got := o.got + v * 2 ^ (vmWidth f * o.pos) } cid n := by
  have hpos : 0 < o.taken form f o.pos := by
    by_cases hs : form = 1 ∨ form = 3
    · exact taken_store hs ▸ piece_pos
    · exact taken_load hs ▸ Nat.one_pos
  have hend : o.pos + o.taken form f o.pos ≤ 512 / vmWidth f := by
    by_cases hs : form = 1 ∨ form = 3
    · exact taken_store hs ▸ piece_within hi
    · exact taken_load hs ▸ hi
  rw [run_memForm hb hf, upFrom_sub hi, vecMem_goes_on _ _ _ _ _ h hv, run_at hb hf,
    vecMem_skip cid form f { o with got := o.got + v * 2 ^ (vmWidth f * o.pos) } n _ (by omega)]
  rw [show o.pos + 1 + (o.taken form f o.pos - 1) = o.pos + o.taken form f o.pos by omega,
    show 512 / vmWidth f - (o.pos + 1) - (o.taken form f o.pos - 1) = 512 / vmWidth f - (o.pos + o.taken form f o.pos) by omega]

/-- A load takes one element, whose bits join those loaded before. -/
theorem run_loads (hs : ¬ (form = 1 ∨ form = 3)) {v : Nat} {n : Module}
    (hv : vecElem cid o false (vmWidth f) (o.elem form f o.pos) 1 (o.d / 2 ^ (vmWidth f * o.pos) % 2 ^ (vmWidth f * 1)) m = .ok (v, n)) :
    o.run cid m = VOp.run { o with pos := o.pos + 1, got := o.got + v * 2 ^ (vmWidth f * o.pos) } cid n := by
  rw [run_goes_on hb hf cid hi h (access_load hs ▸ hv), taken_load hs]

/-- A store takes the elements of its piece, and nothing is loaded. -/
theorem run_stores (hs : form = 1 ∨ form = 3) {n : Module} (hv : vecElem cid o true (vmWidth f) (o.elem form f o.pos)
      (o.piece form f o.pos) (o.d / 2 ^ (vmWidth f * o.pos) % 2 ^ (vmWidth f * o.piece form f o.pos)) m = .ok (0, n)) :
    o.run cid m = VOp.run { o with pos := o.pos + o.piece form f o.pos } cid n := by
  rw [run_goes_on hb hf cid hi h (access_store hs ▸ hv), taken_store hs, Nat.zero_mul, Nat.add_zero]

theorem run_ends {e : FInfo} (hv : o.access cid form f o.pos m = .error (.fault e)) : o.run cid m = (m, .fault e) := by
  rw [run_memForm hb hf, upFrom_sub hi, vecMem_ends _ _ _ _ _ h hv]

end

end Sys2Proof.Machine

namespace Sys2Proof.Claims
open Sys2Proof.Machine

/-- Settles O48: a compute form lays its lanes down one by one, VRED is the tree of R154 level by level, a move replaces lanes, and a
memory form goes through its elements in ascending order. -/
theorem vectorLanes : Obligations.VectorLanes := by
  refine ⟨fun o cid m vop f i hb hform hty hi => ?lanewise, fun o cid m f i hb hf hi => ?convert, fun o cid m f j hb hf hj => ?dot,
    fun o cid m f hb hf hty => run_vred hb hf hty cid m, fun o cid m f i hb hi => ?move, fun o cid m form f hb hf => ?memory⟩
  case lanewise =>
    refine ⟨_, _, run_laneForm hb hform cid m, fun hv h8 => compute_float_lane o f hi hv h8 hty, ?_, ?_,
      fun hv h7 => compute_int_lane o f hi hv h7, fun h8 h13 => compute_logic_lane o f hi h8 h13, ?_, ?_, ?_⟩ <;> rintro rfl
    · exact compute_cmp_lt o f
    · exact compute_cmp_float_lane o f hi
    · exact compute_cmp_int_lane o f hi
    · exact compute_select_lane o f hi
    · exact compute_permute_lane o f hi
  case convert =>
    exact ⟨_, _, run_vcvt hb hf cid m, eachLane_lt .., eachLane_flags .., eachLane_lane _ _ _ _ hi⟩
  case dot =>
    exact ⟨_, _, run_vdot hb hf cid m, eachLane_flags .., eachLane_lane _ _ _ _ hj⟩
  case move =>
    exact ⟨run_vmov hb cid m, run_vbc hb cid m hi, run_vext hb cid m, fun hf _ => run_vins hb cid m i hf⟩
  case memory =>
    simp only [← elem_eq]
    refine ⟨run_finished hb hf cid m, run_inactive hb hf cid m, fun hi ha hva => ?_, fun hi ha hva hs bs n hl => ?_,
      fun hi ha hva hs x hl => ?_, fun hi ha hva hs => ⟨fun j hj => piece_all ha hj, fun n hl => ?_, fun x hl => ?_⟩⟩
    · exact run_ends hb hf cid hi ha (vecElem_misaligned _ _ _ _ _ hva)
    · exact run_loads hb hf cid hi ha hs (vecElem_loads cid o _ _ hva hl)
    · exact run_ends hb hf cid hi ha (access_load hs ▸ vecElem_load_stops cid o _ _ hva hl)
    · exact run_stores hb hf cid hi ha hs (vecElem_stores cid o _ _ hva hl)
    · exact run_ends hb hf cid hi ha (access_store hs ▸ vecElem_store_stops cid o _ _ hva hl)

end Sys2Proof.Claims
end

section
/-!
PROOFS. Open groups (R77): an instruction ends in a commit, which leaves a group open only where an entry waits for its consumer, or at the
commit point, where no group is open; an event that is due happens with no group open.
-/
namespace Sys2Proof.Machine

theorem State.groupOk_of_none {s : State} (h : s.open_ = none) : s.GroupOk := fun g hg => by simp [h] at hg

theorem State.groupOk_congr {s t : State} (h : t.open_ = s.open_) (hs : s.GroupOk) : t.GroupOk := fun g hg => hs g (h ▸ hg)

/-- A commit leaves the group open only while an entry of one of its queues waits (R77). -/
theorem State.commit_groupOk (s : State) (key : Nat) (pc : Word) (ss : Bool) (a : After) : (s.commit key pc ss a).GroupOk := by
  cases ho : s.open_ with
  | none =>
    refine State.groupOk_of_none ?_
    simp only [State.commit, ho]
  | some g =>
    by_cases hq : (g.ld.isEmpty && g.sd.isEmpty) = true
    · refine State.groupOk_of_none ?_
      simp only [State.commit, ho, hq, if_true]
      cases a <;> cases g.brk <;> cases ss <;> rfl
    · intro g' hg'
      simp only [State.commit, ho, if_neg hq, Option.some.injEq] at hg'
      subst hg'
      simpa [or_iff_not_imp_left] using hq

/-- An outcome whose next state, if there is one, keeps the rule of R77 for open groups. -/
def GroupsOk (o : Out) : Prop := ∀ t, o = .next t → t.GroupOk

theorem groupsOk_next {t : State} (h : t.GroupOk) : GroupsOk (.next t) := fun _ ht => Host.Outcome.next.inj ht ▸ h

theorem groupsOk_rollback (s : State) (m : Module) : GroupsOk (.next (s.rollback m)) := groupsOk_next (State.groupOk_of_none rfl)

/-- An instruction ends in a commit or at the commit point (R76, R80). -/
theorem runWith_groupsOk (vec last : Bool) (body : Word → Run After) (s : State) (key : Nat) : GroupsOk (runWith vec body s key last) := by
  unfold runWith
  extract_lets s1 vec'
  split
  extract_lets base s2 pc pc0 g late wait
  have hwait : ∀ m, GroupsOk (wait m) := fun m => groupsOk_rollback _ _
  split
  · exact hwait _
  split
  · split
    · exact groupsOk_rollback _ _
    · exact hwait _
  split
  · exact groupsOk_rollback _ _
  · exact hwait _
  · exact hwait _
  · cases late
    · exact groupsOk_next (State.commit_groupOk _ _ _ _ _)
    · exact groupsOk_rollback _ _

theorem runInstr_groupsOk (vec last : Bool) (body : Word → Run After) (s : State) : GroupsOk (runInstr vec body s last) := by
  unfold runInstr
  split
  · rintro _ ⟨⟩
  · split
    · rintro _ ⟨⟩
    · exact runWith_groupsOk _ _ _ _ _

theorem event_groupsOk (f : Module → Option Module) {s : State} (hs : s.GroupOk) : GroupsOk (event f s) := by
  unfold event
  split
  · exact groupsOk_next (State.groupOk_of_none rfl)
  · exact groupsOk_next hs

theorem runCsr_groupsOk (i : Instr) {s : State} (hs : s.GroupOk) : GroupsOk (runCsr i s) := by
  unfold runCsr
  split
  case h_4 => exact groupsOk_next hs
  all_goals exact runInstr_groupsOk _ _ _ _

theorem refocus_groupsOk (s : State) {o : Out} (h : GroupsOk o) : GroupsOk (refocus s o) := by
  cases o with
  | next t => exact groupsOk_next (State.groupOk_congr rfl (h t rfl))
  | fault r => rintro _ ⟨⟩
  | refused r => rintro _ ⟨⟩

theorem csrEvent_groupsOk (n cid ctx : Nat) {s : State} (hs : s.GroupOk) : GroupsOk (csrEvent n cid ctx s) := by
  unfold csrEvent
  extract_lets t
  split
  · exact groupsOk_next hs
  split
  · split
    · exact refocus_groupsOk s (runCsr_groupsOk _ (State.groupOk_of_none rfl))
    · exact groupsOk_next hs
  · exact groupsOk_next hs

/-- Instructions run by `runInstr`, whose arms come first, and events keep the rule. -/
theorem exec_groupsOk (i : Instr) {s : State} (hs : s.GroupOk) : GroupsOk (exec i s) := by
  have hctx : ∀ f cid ctx, GroupsOk (ctxEvent f cid ctx s) := fun _ _ _ => event_groupsOk _ hs
  have hvec : ∀ fault cid, GroupsOk (vecEvent fault cid s) := fun _ _ => event_groupsOk _ hs
  have hreq : ∀ kind a p, GroupsOk (requestEvent kind a p s) := fun _ _ _ => event_groupsOk _ hs
  have htok : ∀ sig key body act f, GroupsOk (tokenEvent sig key body act f s) := fun _ _ _ _ _ => event_groupsOk _ hs
  cases i <;> dsimp only [exec]
  case cStashWrite | cCprWrite | cSwWrite => exact csrEvent_groupsOk _ _ _ hs
  case budgetExpiry | forcedSuspension | handlerBudgetExpiry | lateFaultDelivery => exact hctx _ _ _
  case vectorRetirement | vectorLateFault => exact hvec _ _
  case readRequest | checkRequest | atomicRequest => exact hreq _ _ _
  case tokenLinkEnable | tokenPartitionKey | tokenReadmit | tokenClearCoreStop | tokenSetRetired | tokenMcExpose =>
    exact htok _ _ _ _ _
  case writeRequest late k =>
    cases late
    · exact hreq _ _ _
    · exact event_groupsOk (fun m => (m.late[k]?).bind fun w => if m.lateDue k w then some (m.lateTurn k w) else none) hs
  iterate 195 exact runInstr_groupsOk _ _ _ _
  all_goals exact event_groupsOk _ hs

theorem turn_groupsOk {s : State} (hs : s.GroupOk) : GroupsOk s.turn := by
  unfold State.turn
  split
  · exact groupsOk_next (State.groupOk_congr rfl hs)
  split
  · exact groupsOk_next (State.groupOk_congr rfl hs)
  split
  · exact groupsOk_next (State.groupOk_congr rfl hs)
  split
  · exact exec_groupsOk _ (State.groupOk_congr rfl hs)
  · exact runInstr_groupsOk _ _ _ _

@[simp] theorem State.rotated_open (turn : State → Out) (s : State) : (s.rotated turn).open_ = s.open_ := by
  unfold State.rotated
  extract_lets order
  split <;> rfl

theorem step_groupsOk {s : State} (hs : s.GroupOk) : GroupsOk (step s) := by
  unfold step
  split
  · exact turn_groupsOk hs
  next ho =>
    have hnone : s.open_ = none := by simpa using ho
    extract_lets s1
    split
    · exact turn_groupsOk (State.groupOk_of_none (by simp [s1, hnone]))
    · split
      · exact exec_groupsOk _ (State.groupOk_of_none hnone)
      · exact groupsOk_next (State.groupOk_of_none hnone)
    · exact turn_groupsOk (State.groupOk_of_none (by simp [s1, hnone]))
    all_goals exact groupsOk_next (State.groupOk_of_none hnone)

end Sys2Proof.Machine

namespace Sys2Proof.Claims
open Sys2Proof.Machine

/-- Settles O9: a commit leaves a group open only while an entry waits, and nothing else opens one. -/
theorem stepKeepsGroups : Obligations.StepKeepsGroups := fun _ t hs h => step_groupsOk hs t h

end Sys2Proof.Claims
end

section
/-!
PROOFS. Fields of encodings (R107, R108, R125–R131): what each field of a head and a tail reads in the code that an instruction is laid
out as, so that reading the fields of a form gives the form back.
-/
namespace Sys2Proof

/-! ## Heads and whole tails -/

theorem ofNat_eq_iff {w n : Nat} (v : BitVec w) : BitVec.ofNat w n = v ↔ n % 2 ^ w = v.toNat := by
  rw [← BitVec.toNat_inj, BitVec.toNat_ofNat]

theorem bit_ofNat_eq_iff {w n i : Nat} (h : i < w) (k : Bool) : bit (BitVec.ofNat w n) i = k ↔ n / 2 ^ i % 2 = k.toNat := by
  rw [bit, BitVec.getLsbD_ofNat, decide_eq_true h, Bool.true_and, Nat.testBit_eq_decide_div_mod_eq]
  cases k <;> simp

section
variable (op tl : Nat) (a : Opnd) (ka x : Bool) (tail : Nat)

@[simp] theorem mkCode_op (ho : op < 64) (ht : tl < 4) : (mkCode op tl a ka x tail).op = op := by
  have := ka.toNat_le; have := x.toNat_le; have := a.isLt
  simp only [Code.op, mkCode, mkHead, bits, BitVec.toNat_ofNat, Nat.shiftRight_eq_div_pow]
  omega

@[simp] theorem mkCode_tl (ht : tl < 4) : (mkCode op tl a ka x tail).tl = tl := Laws.tl_mkHead _ _ _ _ _ ht

@[simp] theorem mkCode_x : (mkCode op tl a ka x tail).x = x.toNat := by
  have := ka.toNat_le; have := x.toNat_le; have := a.isLt
  simp only [Code.x, mkCode, mkHead, bits, BitVec.toNat_ofNat, Nat.shiftRight_eq_div_pow]
  omega

@[simp] theorem mkCode_a : (mkCode op tl a ka x tail).a = a := by
  have := ka.toNat_le; have := x.toNat_le; have := a.isLt
  simp only [Code.a, mkCode, mkHead, bits, BitVec.toNat_ofNat, Nat.shiftRight_eq_div_pow, ofNat_eq_iff]
  omega

@[simp] theorem mkCode_ka : (mkCode op tl a ka x tail).ka = ka := by
  have := ka.toNat_le; have := x.toNat_le; have := a.isLt
  simp only [Code.ka, mkCode, mkHead, bit_ofNat_eq_iff (show 1 < 16 by decide)]
  omega

@[simp] theorem mkCode_xb : (mkCode op tl a ka x tail).xb = x := by
  have := ka.toNat_le; have := x.toNat_le; have := a.isLt
  simp only [Code.xb, mkCode, mkHead, bit_ofNat_eq_iff (show 0 < 16 by decide)]
  omega

theorem mkCode_fld (w lo : Nat) : (mkCode op tl a ka x tail).fld w lo = BitVec.ofNat w (tail % 2 ^ 64 / 2 ^ lo) := by
  simp only [Code.fld, mkCode, BitVec.toNat_ofNat, Nat.shiftRight_eq_div_pow]

theorem mkCode_flag (lo : Nat) : (mkCode op tl a ka x tail).flag lo = bit (BitVec.ofNat 64 tail) lo := rfl

theorem mkCode_bits (hi lo : Nat) :
    bits (mkCode op tl a ka x tail).tail hi lo = tail % 2 ^ 64 / 2 ^ lo % 2 ^ (hi + 1 - lo) := by
  simp only [mkCode, bits, BitVec.toNat_ofNat, Nat.shiftRight_eq_div_pow]

end

/-! ## Tails with the fields of T2 below an immediate -/

/-- The layout of T2, T4 and T8 forms with an immediate above the 16 bits of R108. -/
def layout (op tl : Nat) (a : Opnd) (ka x : Bool) (b c : Opnd) (kb kc : Bool) (f imm : Nat) : Code :=
  mkCode op tl a ka x (imm * 65536 + t2 b c kb kc f)

@[simp] theorem mkT2_eq_layout (op : Nat) (a : Opnd) (ka x : Bool) (b c : Opnd) (kb kc : Bool) (f : Nat) :
    mkT2 op a ka x b c kb kc f = layout op 1 a ka x b c kb kc f 0 := by simp [mkT2, layout]
@[simp] theorem mkT4_eq_layout (op : Nat) (a : Opnd) (ka x : Bool) (b c : Opnd) (kb kc : Bool) (f imm : Nat) :
    mkT4 op a ka x b c kb kc f imm = layout op 2 a ka x b c kb kc f imm := rfl
@[simp] theorem mkT8_eq_layout (op : Nat) (a : Opnd) (ka x : Bool) (b c : Opnd) (kb kc : Bool) (f imm : Nat) :
    mkT8 op a ka x b c kb kc f imm = layout op 3 a ka x b c kb kc f imm := rfl

section
variable (op tl : Nat) (a : Opnd) (ka x : Bool) (b c : Opnd) (kb kc : Bool) {f imm : Nat}

@[simp] theorem layout_op (ho : op < 64) (ht : tl < 4) : (layout op tl a ka x b c kb kc f imm).op = op := mkCode_op _ _ _ _ _ _ ho ht
@[simp] theorem layout_tl (ht : tl < 4) : (layout op tl a ka x b c kb kc f imm).tl = tl := mkCode_tl _ _ _ _ _ _ ht
@[simp] theorem layout_x : (layout op tl a ka x b c kb kc f imm).x = x.toNat := mkCode_x ..
@[simp] theorem layout_a : (layout op tl a ka x b c kb kc f imm).a = a := mkCode_a ..
@[simp] theorem layout_ka : (layout op tl a ka x b c kb kc f imm).ka = ka := mkCode_ka ..
@[simp] theorem layout_xb : (layout op tl a ka x b c kb kc f imm).xb = x := mkCode_xb ..

@[simp] theorem layout_minor (hf : f < 4) : (layout op tl a ka x b c kb kc f imm).minor = f := by
  rw [Code.minor, layout, mkCode_bits, t2]
  omega

@[simp] theorem layout_fld_minor (hf : f < 4) : (layout op tl a ka x b c kb kc f imm).fld 2 0 = BitVec.ofNat 2 f := by
  rw [layout, mkCode_fld, ofNat_eq_iff, t2, BitVec.toNat_ofNat]
  omega

@[simp] theorem layout_low_bit : bit (layout op tl a ka x b c kb kc f imm).tail 0 = decide (f % 2 = 1) := by
  rw [layout, mkCode, bit_ofNat_eq_iff (by decide), t2]
  have := Nat.mod_two_eq_zero_or_one f
  rcases this with h | h <;> simp [h] <;> omega

@[simp] theorem layout_b (hf : f < 4) : (layout op tl a ka x b c kb kc f imm).b = b := by
  have := kb.toNat_le; have := kc.toNat_le
  rw [Code.b, layout, mkCode_fld, ofNat_eq_iff, t2]
  omega

@[simp] theorem layout_c (hf : f < 4) : (layout op tl a ka x b c kb kc f imm).c = c := by
  have := kb.toNat_le; have := kc.toNat_le
  rw [Code.c, layout, mkCode_fld, ofNat_eq_iff, t2]
  omega

@[simp] theorem layout_kb (hf : f < 4) : (layout op tl a ka x b c kb kc f imm).kb = kb := by
  have := kb.toNat_le; have := kc.toNat_le
  rw [Code.kb, layout, mkCode_flag, bit_ofNat_eq_iff (by decide), t2]
  omega

@[simp] theorem layout_kc (hf : f < 4) : (layout op tl a ka x b c kb kc f imm).kc = kc := by
  have := kb.toNat_le; have := kc.toNat_le
  rw [Code.kc, layout, mkCode_flag, bit_ofNat_eq_iff (by decide), t2]
  omega

/-- The tail without its T2 half is the immediate. -/
theorem layout_tail_div (hf : f < 4) (hi : imm < 2 ^ 48) : (imm * 65536 + t2 b c kb kc f) % 2 ^ 64 / 2 ^ 16 = imm := by
  have := Laws.t2_lt b c kb kc hf
  omega

/-- A field above the T2 half is a field of the immediate. -/
@[simp] theorem layout_fld (hf : f < 4) (hi : imm < 2 ^ 48) {w lo : Nat} (hl : 16 ≤ lo) :
    (layout op tl a ka x b c kb kc f imm).fld w lo = BitVec.ofNat w (imm / 2 ^ (lo - 16)) := by
  obtain ⟨k, rfl⟩ := Nat.exists_eq_add_of_le hl
  rw [layout, mkCode_fld, Nat.pow_add, ← Nat.div_div_eq_div_mul, layout_tail_div b c kb kc hf hi, Nat.add_sub_cancel_left]

@[simp] theorem layout_flag (hf : f < 4) (hi : imm < 2 ^ 48) {lo : Nat} (hl : 16 ≤ lo) (hlo : lo < 64) :
    (layout op tl a ka x b c kb kc f imm).flag lo = decide (imm / 2 ^ (lo - 16) % 2 = 1) := by
  obtain ⟨k, rfl⟩ := Nat.exists_eq_add_of_le hl
  have ht := layout_tail_div b c kb kc hf hi
  have hm : (imm * 65536 + t2 b c kb kc f) % 2 ^ 64 = imm * 65536 + t2 b c kb kc f :=
    Nat.mod_eq_of_lt (by have := Laws.t2_lt b c kb kc hf; omega)
  rw [hm] at ht
  rw [layout, mkCode_flag, bit, BitVec.getLsbD_ofNat, decide_eq_true hlo, Bool.true_and, Nat.testBit_eq_decide_div_mod_eq,
    Nat.pow_add, ← Nat.div_div_eq_div_mul, ht, Nat.add_sub_cancel_left]

end

/-! ## Engine commands -/

section
variable (op : Nat) (a : Opnd) (x : Bool) (g : EngSig) (p q h : Opnd) (kp kq kh : Bool) {mods : Nat}

@[simp] theorem mkEng_op (ho : op < 64) : (mkEng op a x g p kp q kq h kh mods).op = op := mkCode_op _ _ _ _ _ _ ho (by decide)
@[simp] theorem mkEng_tl : (mkEng op a x g p kp q kq h kh mods).tl = 3 := mkCode_tl _ _ _ _ _ _ (by decide)
@[simp] theorem mkEng_x : (mkEng op a x g p kp q kq h kh mods).x = x.toNat := mkCode_x ..
@[simp] theorem mkEng_a : (mkEng op a x g p kp q kq h kh mods).a = a := mkCode_a ..

@[simp] theorem mkEng_sig : (mkEng op a x g p kp q kq h kh mods).sig = g := by
  obtain ⟨wsem, wthr, ssem, sinc⟩ := g
  simp only [Code.sig, mkEng, mkCode_fld, ofNat_eq_iff, EngSig.mk.injEq]
  omega

@[simp] theorem mkEng_p : (mkEng op a x g p kp q kq h kh mods).fld 6 36 = p := by
  have := kp.toNat_le
  rw [mkEng, mkCode_fld, ofNat_eq_iff]
  omega
@[simp] theorem mkEng_kp : (mkEng op a x g p kp q kq h kh mods).flag 42 = kp := by
  have := kp.toNat_le
  rw [mkEng, mkCode_flag, bit_ofNat_eq_iff (by decide)]
  omega
@[simp] theorem mkEng_q : (mkEng op a x g p kp q kq h kh mods).fld 6 43 = q := by
  have := kp.toNat_le; have := kq.toNat_le
  rw [mkEng, mkCode_fld, ofNat_eq_iff]
  omega
@[simp] theorem mkEng_kq : (mkEng op a x g p kp q kq h kh mods).flag 49 = kq := by
  have := kp.toNat_le; have := kq.toNat_le
  rw [mkEng, mkCode_flag, bit_ofNat_eq_iff (by decide)]
  omega
@[simp] theorem mkEng_h : (mkEng op a x g p kp q kq h kh mods).fld 6 50 = h := by
  have := kp.toNat_le; have := kq.toNat_le; have := kh.toNat_le
  rw [mkEng, mkCode_fld, ofNat_eq_iff]
  omega
@[simp] theorem mkEng_kh : (mkEng op a x g p kp q kq h kh mods).flag 56 = kh := by
  have := kp.toNat_le; have := kq.toNat_le; have := kh.toNat_le
  rw [mkEng, mkCode_flag, bit_ofNat_eq_iff (by decide)]
  omega

/-- MODS is the tail from bit 57 up. -/
theorem mkEng_tail_div (hm : mods < 128) : (mkEng op a x g p kp q kq h kh mods).tail.toNat / 2 ^ 57 = mods := by
  have := kp.toNat_le; have := kq.toNat_le; have := kh.toNat_le
  simp only [mkEng, mkCode, BitVec.toNat_ofNat]
  omega

@[simp] theorem mkEng_mods (hm : mods < 128) : (mkEng op a x g p kp q kq h kh mods).mods = mods := by
  rw [Code.mods, bits, Nat.shiftRight_eq_div_pow, mkEng_tail_div op a x g p q h kp kq kh hm]
  exact Nat.mod_eq_of_lt hm
@[simp] theorem mkEng_fld (hm : mods < 128) {w lo : Nat} (hl : 57 ≤ lo) :
    (mkEng op a x g p kp q kq h kh mods).fld w lo = BitVec.ofNat w (mods / 2 ^ (lo - 57)) := by
  obtain ⟨k, rfl⟩ := Nat.exists_eq_add_of_le hl
  rw [Nat.add_sub_cancel_left, Code.fld, Nat.shiftRight_eq_div_pow, Nat.pow_add, ← Nat.div_div_eq_div_mul, mkEng_tail_div op a x g p q h kp kq kh hm]
@[simp] theorem mkEng_low_mod (hm : mods < 128) : (mkEng op a x g p kp q kq h kh mods).flag 57 = decide (mods % 2 = 1) := by
  rw [Code.flag, bit, ← BitVec.testBit_toNat, Nat.testBit_eq_decide_div_mod_eq, mkEng_tail_div op a x g p q h kp kq kh hm]

end

/-! ## Conditions (R403) -/

@[simp] theorem layout_cond (op tl : Nat) (a : Opnd) (ka : Bool) (b c : Opnd) (kb kc : Bool) (cnd : Cond) (imm : Nat) :
    (layout op tl a ka cnd.x b c kb kc cnd.f imm).cond = cnd := by
  rw [Code.cond, layout_minor _ _ _ _ _ _ _ _ _ (Laws.cond_f_lt cnd), layout_xb]
  cases cnd <;> rfl

/-! ## Forms -/

@[simp] theorem layout_vop (op tl : Nat) (a : Opnd) (ka x : Bool) (b c : Opnd) (kb kc : Bool) {f imm : Nat} (hf : f < 4) (hi : imm < 2 ^ 48) :
    (layout op tl a ka x b c kb kc f imm).vop = imm % 32 := by
  have := layout_tail_div b c kb kc hf hi
  rw [Code.vop, layout, mkCode_bits]
  omega

theorem decide_odd_eq_iff (n : Nat) (k : Bool) : decide (n % 2 = 1) = k ↔ n % 2 = k.toNat := by
  cases k <;> simp

@[simp] theorem decide_toNat_odd (k : Bool) : decide (k.toNat % 2 = 1) = k := by cases k <;> rfl

@[simp] theorem encNone_reads (op x : Nat) (ho : op < 64) (hx : x < 2) :
    (encNone op x).op = op ∧ (encNone op x).tl = 0 ∧ (encNone op x).x = x := by
  have : x = 0 ∨ x = 1 := by omega
  rcases this with rfl | rfl <;> simp [encNone, ho]

@[simp] theorem encAlu3_reads (op f : Nat) (s : Alu3) (ho : op < 64) (hf : f < 4) :
    (encAlu3 op f s).op = op ∧ (encAlu3 op f s).tl = 1 ∧ (encAlu3 op f s).minor = f ∧ (encAlu3 op f s).x = s.half.toNat ∧
      getAlu3 (encAlu3 op f s) = s := by
  obtain ⟨a, b, c, kb, kc, half⟩ := s
  simp (disch := omega) [getAlu3, encAlu3]

@[simp] theorem encAluI16_reads (op f : Nat) (s : AluI16) (ho : op < 64) (hf : f < 4) :
    (encAluI16 op f s).op = op ∧ (encAluI16 op f s).tl = 2 ∧ (encAluI16 op f s).minor = f ∧ (encAluI16 op f s).x = s.half.toNat ∧
      getAluI16 (encAluI16 op f s) = s := by
  obtain ⟨a, b, kb, half, imm⟩ := s
  simp (disch := omega) [getAluI16, encAluI16]

@[simp] theorem encAluI48_reads (op f : Nat) (s : AluI48) (ho : op < 64) (hf : f < 4) :
    (encAluI48 op f s).op = op ∧ (encAluI48 op f s).tl = 3 ∧ (encAluI48 op f s).minor = f ∧ (encAluI48 op f s).x = s.half.toNat ∧
      getAluI48 (encAluI48 op f s) = s := by
  obtain ⟨a, b, kb, half, imm⟩ := s
  simp (disch := omega) [getAluI48, encAluI48]

@[simp] theorem encShiftI_reads (op f : Nat) (s : ShiftI) (ho : op < 64) (hf : f < 4) :
    (encShiftI op f s).op = op ∧ (encShiftI op f s).tl = 2 ∧ (encShiftI op f s).minor = f ∧ (encShiftI op f s).x = s.half.toNat ∧
      getShiftI (encShiftI op f s) = s := by
  obtain ⟨a, b, kb, half, n⟩ := s
  simp (disch := omega) [getShiftI, encShiftI]

@[simp] theorem encUn_reads (op f : Nat) (s : Un) (ho : op < 64) (hf : f < 4) :
    (encUn op f s).op = op ∧ (encUn op f s).tl = 1 ∧ (encUn op f s).minor = f ∧ (encUn op f s).x = 0 ∧
      getUn (encUn op f s) = s := by
  obtain ⟨a, b, kb⟩ := s
  simp (disch := omega) [getUn, encUn]

@[simp] theorem encSrc1_reads (op f : Nat) (s : Src1) (ho : op < 64) (hf : f < 4) :
    (encSrc1 op f s).op = op ∧ (encSrc1 op f s).tl = 1 ∧ (encSrc1 op f s).minor = f ∧ (encSrc1 op f s).x = 0 ∧
      getSrc1 (encSrc1 op f s) = s := by
  obtain ⟨b, kb⟩ := s
  simp (disch := omega) [getSrc1, encSrc1]

@[simp] theorem encBin_reads (op f : Nat) (s : Bin) (ho : op < 64) (hf : f < 4) :
    (encBin op f s).op = op ∧ (encBin op f s).tl = 1 ∧ (encBin op f s).minor = f ∧ (encBin op f s).x = 0 ∧
      getBin (encBin op f s) = s := by
  obtain ⟨a, b, c, kb, kc⟩ := s
  simp (disch := omega) [getBin, encBin]

@[simp] theorem encRangeOp_reads (op f : Nat) (s : RangeOp) (ho : op < 64) (hf : f < 4) :
    (encRangeOp op f s).op = op ∧ (encRangeOp op f s).tl = 1 ∧ (encRangeOp op f s).minor = f ∧ (encRangeOp op f s).x = 0 ∧
      getRangeOp (encRangeOp op f s) = s := by
  obtain ⟨b, c, kb, kc⟩ := s
  simp (disch := omega) [getRangeOp, encRangeOp]

@[simp] theorem encSet3_reads (op : Nat) (s : Set3) (ho : op < 64) :
    (encSet3 op s).op = op ∧ (encSet3 op s).tl = 1 ∧ (encSet3 op s).minor = s.cond.f ∧ (encSet3 op s).x = s.cond.x.toNat ∧
      getSet3 (encSet3 op s) = s := by
  obtain ⟨a, b, c, kb, kc, cond⟩ := s
  have := Laws.cond_f_lt cond
  simp (disch := omega) [getSet3, encSet3]

@[simp] theorem encSetI16_reads (op : Nat) (s : SetI16) (ho : op < 64) :
    (encSetI16 op s).op = op ∧ (encSetI16 op s).tl = 2 ∧ (encSetI16 op s).minor = s.cond.f ∧ (encSetI16 op s).x = s.cond.x.toNat ∧
      getSetI16 (encSetI16 op s) = s := by
  obtain ⟨a, b, kb, cond, imm⟩ := s
  have := Laws.cond_f_lt cond
  simp (disch := omega) [getSetI16, encSetI16]

@[simp] theorem encSetI48_reads (op : Nat) (s : SetI48) (ho : op < 64) :
    (encSetI48 op s).op = op ∧ (encSetI48 op s).tl = 3 ∧ (encSetI48 op s).minor = s.cond.f ∧ (encSetI48 op s).x = s.cond.x.toNat ∧
      getSetI48 (encSetI48 op s) = s := by
  obtain ⟨a, b, kb, cond, imm⟩ := s
  have := Laws.cond_f_lt cond
  simp (disch := omega) [getSetI48, encSetI48]

@[simp] theorem encCsel_reads (op : Nat) (s : Csel) (ho : op < 64) :
    (encCsel op s).op = op ∧ (encCsel op s).tl = 2 ∧ (encCsel op s).minor = s.onZero.toNat ∧ (encCsel op s).x = 0 ∧
      getCsel (encCsel op s) = s := by
  obtain ⟨a, b, c, d, kb, kc, kd, onZero⟩ := s
  have := kd.toNat_le; have := onZero.toNat_le
  simp (disch := omega) [getCsel, encCsel, ofNat_eq_iff, decide_odd_eq_iff]
  omega

@[simp] theorem encExtr_reads (op f : Nat) (s : Extr) (ho : op < 64) (hf : f < 4) :
    (encExtr op f s).op = op ∧ (encExtr op f s).tl = 2 ∧ (encExtr op f s).minor = f ∧ (encExtr op f s).x = 0 ∧
      getExtr (encExtr op f s) = s := by
  obtain ⟨a, b, kb, pos, wid⟩ := s
  simp (disch := omega) [getExtr, encExtr, ofNat_eq_iff]
  omega

@[simp] theorem encInsr_reads (op : Nat) (s : Insr) (ho : op < 64) :
    (encInsr op s).op = op ∧ (encInsr op s).tl = 2 ∧ (encInsr op s).minor = 2 ∧ (encInsr op s).x = 0 ∧
      getInsr (encInsr op s) = s := by
  obtain ⟨a, b, c, kb, kc, pos, wid⟩ := s
  simp (disch := omega) [getInsr, encInsr, ofNat_eq_iff]
  omega

@[simp] theorem encLdi16_reads (op f : Nat) (s : Ldi16) (ho : op < 64) (hf : f < 4) :
    (encLdi16 op f s).op = op ∧ (encLdi16 op f s).tl = 2 ∧ (encLdi16 op f s).minor = f ∧ (encLdi16 op f s).x = s.half.toNat ∧
      getLdi16 (encLdi16 op f s) = s := by
  obtain ⟨a, half, imm⟩ := s
  simp (disch := omega) [getLdi16, encLdi16]

@[simp] theorem encLdi48_reads (op f : Nat) (s : Ldi48) (ho : op < 64) (hf : f < 4) :
    (encLdi48 op f s).op = op ∧ (encLdi48 op f s).tl = 3 ∧ (encLdi48 op f s).minor = f ∧ (encLdi48 op f s).x = s.half.toNat ∧
      getLdi48 (encLdi48 op f s) = s := by
  obtain ⟨a, half, imm⟩ := s
  simp (disch := omega) [getLdi48, encLdi48]

@[simp] theorem encRel16_reads (op x : Nat) (s : Rel16) (ho : op < 64) :
    (encRel16 op x s).op = op ∧ (encRel16 op x s).tl = 2 ∧ (encRel16 op x s).minor = 0 ∧ (encRel16 op x s).x = (x == 1).toNat ∧
      getRel16 (encRel16 op x s) = s := by
  obtain ⟨a, slot, ldisp⟩ := s
  simp (disch := omega) [getRel16, encRel16, ofNat_eq_iff]
  omega

@[simp] theorem encRel48_reads (op x : Nat) (s : Rel48) (ho : op < 64) :
    (encRel48 op x s).op = op ∧ (encRel48 op x s).tl = 3 ∧ (encRel48 op x s).minor = 0 ∧ (encRel48 op x s).x = (x == 1).toNat ∧
      getRel48 (encRel48 op x s) = s := by
  obtain ⟨a, slot, ldisp⟩ := s
  simp (disch := omega) [getRel48, encRel48, ofNat_eq_iff]
  omega

@[simp] theorem encBr16_reads (op x : Nat) (s : Br16) (ho : op < 64) :
    (encBr16 op x s).op = op ∧ (encBr16 op x s).tl = 2 ∧ (encBr16 op x s).minor = 0 ∧ (encBr16 op x s).x = (x == 1).toNat ∧
      getBr16 (encBr16 op x s) = s := by
  obtain ⟨slot, ldisp⟩ := s
  simp (disch := omega) [getBr16, encBr16, ofNat_eq_iff]
  omega

@[simp] theorem encBr48_reads (op x : Nat) (s : Br48) (ho : op < 64) :
    (encBr48 op x s).op = op ∧ (encBr48 op x s).tl = 3 ∧ (encBr48 op x s).minor = 0 ∧ (encBr48 op x s).x = (x == 1).toNat ∧
      getBr48 (encBr48 op x s) = s := by
  obtain ⟨slot, ldisp⟩ := s
  simp (disch := omega) [getBr48, encBr48, ofNat_eq_iff]
  omega

@[simp] theorem encBc16_reads (op : Nat) (s : Bc16) (ho : op < 64) :
    (encBc16 op s).op = op ∧ (encBc16 op s).tl = 2 ∧ (encBc16 op s).minor = s.cond.f ∧ (encBc16 op s).x = s.cond.x.toNat ∧
      getBc16 (encBc16 op s) = s := by
  obtain ⟨b, c, kb, kc, cond, slot, ldisp⟩ := s
  have := Laws.cond_f_lt cond
  simp (disch := omega) [getBc16, encBc16, ofNat_eq_iff]
  omega

@[simp] theorem encBc48_reads (op : Nat) (s : Bc48) (ho : op < 64) :
    (encBc48 op s).op = op ∧ (encBc48 op s).tl = 3 ∧ (encBc48 op s).minor = s.cond.f ∧ (encBc48 op s).x = s.cond.x.toNat ∧
      getBc48 (encBc48 op s) = s := by
  obtain ⟨b, c, kb, kc, cond, slot, ldisp⟩ := s
  have := Laws.cond_f_lt cond
  simp (disch := omega) [getBc48, encBc48, ofNat_eq_iff]
  omega

@[simp] theorem encSkipF_reads (op : Nat) (s : SkipF) (ho : op < 64) :
    (encSkipF op s).op = op ∧ (encSkipF op s).tl = 2 ∧ (encSkipF op s).minor = s.cond.f ∧ (encSkipF op s).x = s.cond.x.toNat ∧
      getSkipF (encSkipF op s) = s := by
  obtain ⟨b, c, kb, kc, cond, n⟩ := s
  have := Laws.cond_f_lt cond
  simp (disch := omega) [getSkipF, encSkipF]

@[simp] theorem encLdX_reads (op : Nat) (s : LdX) (ho : op < 64) :
    (encLdX op s).op = op ∧ (encLdX op s).tl = 1 ∧ (encLdX op s).minor = s.size.toNat ∧ (encLdX op s).x = s.sx.toNat ∧
      getLdX (encLdX op s) = s := by
  obtain ⟨a, b, c, kb, kc, size, sx⟩ := s
  simp (disch := omega) [getLdX, encLdX]

@[simp] theorem encLdD_reads (op : Nat) (s : LdD) (ho : op < 64) :
    (encLdD op s).op = op ∧ (encLdD op s).tl = 2 ∧ (encLdD op s).minor = s.size.toNat ∧ (encLdD op s).x = s.sx.toNat ∧
      getLdD (encLdD op s) = s := by
  obtain ⟨a, b, kb, size, sx, disp⟩ := s
  simp (disch := omega) [getLdD, encLdD]

@[simp] theorem encStX_reads (op : Nat) (s : StX) (ho : op < 64) :
    (encStX op s).op = op ∧ (encStX op s).tl = 1 ∧ (encStX op s).minor = s.size.toNat ∧ (encStX op s).x = 0 ∧
      getStX (encStX op s) = s := by
  obtain ⟨a, ka, b, c, kb, kc, size⟩ := s
  simp (disch := omega) [getStX, encStX]

@[simp] theorem encStD_reads (op : Nat) (s : StD) (ho : op < 64) :
    (encStD op s).op = op ∧ (encStD op s).tl = 2 ∧ (encStD op s).minor = s.size.toNat ∧ (encStD op s).x = 0 ∧
      getStD (encStD op s) = s := by
  obtain ⟨a, ka, b, kb, size, disp⟩ := s
  simp (disch := omega) [getStD, encStD]

@[simp] theorem encLdrsX_reads (op : Nat) (s : LdrsX) (ho : op < 64) :
    (encLdrsX op s).op = op ∧ (encLdrsX op s).tl = 1 ∧ (encLdrsX op s).minor = s.dw.toNat ∧ (encLdrsX op s).x = 0 ∧
      getLdrsX (encLdrsX op s) = s := by
  obtain ⟨a, b, c, kb, kc, dw⟩ := s
  have := dw.toNat_le
  simp (disch := omega) [getLdrsX, encLdrsX]

@[simp] theorem encLdrsD_reads (op : Nat) (s : LdrsD) (ho : op < 64) :
    (encLdrsD op s).op = op ∧ (encLdrsD op s).tl = 2 ∧ (encLdrsD op s).minor = s.dw.toNat ∧ (encLdrsD op s).x = 0 ∧
      getLdrsD (encLdrsD op s) = s := by
  obtain ⟨a, b, kb, dw, disp⟩ := s
  have := dw.toNat_le
  simp (disch := omega) [getLdrsD, encLdrsD]

@[simp] theorem encStcF_reads (op : Nat) (s : StcF) (ho : op < 64) :
    (encStcF op s).op = op ∧ (encStcF op s).tl = 1 ∧ (encStcF op s).minor = 2 + s.dw.toNat ∧ (encStcF op s).x = 0 ∧
      getStcF (encStcF op s) = s := by
  obtain ⟨a, b, c, kb, kc, dw⟩ := s
  have := dw.toNat_le
  simp (disch := omega) [getStcF, encStcF]

@[simp] theorem encBankMask_reads (op f : Nat) (s : BankMask) (ho : op < 64) (hf : f < 4) :
    (encBankMask op f s).op = op ∧ (encBankMask op f s).tl = 2 ∧ (encBankMask op f s).minor = f ∧ (encBankMask op f s).x = 0 ∧
      getBankMask (encBankMask op f s) = s := by
  obtain ⟨mask⟩ := s
  simp (disch := omega) [getBankMask, encBankMask]

@[simp] theorem encFenceF_reads (op : Nat) (s : FenceF) (ho : op < 64) :
    (encFenceF op s).op = op ∧ (encFenceF op s).tl = 2 ∧ (encFenceF op s).minor = s.order.toNat ∧ (encFenceF op s).x = 0 ∧
      getFenceF (encFenceF op s) = s := by
  obtain ⟨order, scope⟩ := s
  simp (disch := omega) [getFenceF, encFenceF]

@[simp] theorem encAtomF_reads (op : Nat) (s : AtomF) (ho : op < 64) :
    (encAtomF op s).op = op ∧ (encAtomF op s).tl = 2 ∧ (encAtomF op s).minor = 2 + s.dw.toNat ∧ (encAtomF op s).x = 0 ∧
      getAtomF (encAtomF op s) = s := by
  obtain ⟨a, b, c, d, kb, kc, kd, dw, opc, o, scope⟩ := s
  have := kd.toNat_le; have := dw.toNat_le; have := o.toNat_le
  simp (disch := omega) [getAtomF, encAtomF, ofNat_eq_iff, decide_odd_eq_iff]
  omega

@[simp] theorem encRedF_reads (op : Nat) (s : RedF) (ho : op < 64) :
    (encRedF op s).op = op ∧ (encRedF op s).tl = 2 ∧ (encRedF op s).minor = 2 + s.dw.toNat ∧ (encRedF op s).x = 0 ∧
      getRedF (encRedF op s) = s := by
  obtain ⟨a, ka, b, kb, dw, opc, o, scope⟩ := s
  have := dw.toNat_le; have := o.toNat_le
  simp only [getRedF, encRedF]
  generalize opZ = z
  simp (disch := omega) [ofNat_eq_iff, decide_odd_eq_iff]
  omega

@[simp] theorem encRedxF_reads (op : Nat) (s : RedxF) (ho : op < 64) :
    (encRedxF op s).op = op ∧ (encRedxF op s).tl = 2 ∧ (encRedxF op s).minor = s.fmt.toNat ∧ (encRedxF op s).x = 0 ∧
      getRedxF (encRedxF op s) = s := by
  obtain ⟨a, ka, b, kb, fmt, scope⟩ := s
  simp (disch := omega) [getRedxF, encRedxF]

@[simp] theorem encXreadF_reads (op : Nat) (s : XreadF) (ho : op < 64) :
    (encXreadF op s).op = op ∧ (encXreadF op s).tl = 2 ∧ (encXreadF op s).minor = 3 ∧ (encXreadF op s).x = 0 ∧
      getXreadF (encXreadF op s) = s := by
  obtain ⟨a, b, kb, rm, ty, scope⟩ := s
  simp (disch := omega) [getXreadF, encXreadF, ofNat_eq_iff]
  omega

@[simp] theorem encBarF_reads (op f : Nat) (s : BarF) (ho : op < 64) (hf : f < 4) :
    (encBarF op f s).op = op ∧ (encBarF op f s).tl = 2 ∧ (encBarF op f s).minor = f ∧ (encBarF op f s).x = 0 ∧
      getBarF (encBarF op f s) = s := by
  obtain ⟨a, b, c, kb, kc, scope⟩ := s
  simp (disch := omega) [getBarF, encBarF]

@[simp] theorem encBarvF_reads (op : Nat) (s : BarvF) (ho : op < 64) :
    (encBarvF op s).op = op ∧ (encBarvF op s).tl = 2 ∧ (encBarvF op s).minor = 0 ∧ (encBarvF op s).x = 1 ∧
      getBarvF (encBarvF op s) = s := by
  obtain ⟨a, b, kb, scope⟩ := s
  simp (disch := omega) [getBarvF, encBarvF]

@[simp] theorem encSemF_reads (op f : Nat) (s : SemF) (ho : op < 64) (hf : f < 4) :
    (encSemF op f s).op = op ∧ (encSemF op f s).tl = 2 ∧ (encSemF op f s).minor = f ∧ (encSemF op f s).x = 0 ∧
      getSemF (encSemF op f s) = s := by
  obtain ⟨c, kc, n⟩ := s
  simp (disch := omega) [getSemF, encSemF]

@[simp] theorem encJobF_reads (op f : Nat) (s : JobF) (ho : op < 64) (hf : f < 4) :
    (encJobF op f s).op = op ∧ (encJobF op f s).tl = 1 ∧ (encJobF op f s).minor = f ∧ (encJobF op f s).x = s.cp.toNat ∧
      getJobF (encJobF op f s) = s := by
  obtain ⟨a, b, kb, cp⟩ := s
  simp (disch := omega) [getJobF, encJobF]

@[simp] theorem encSpawnF_reads (op : Nat) (s : SpawnF) (ho : op < 64) :
    (encSpawnF op s).op = op ∧ (encSpawnF op s).tl = 2 ∧ (encSpawnF op s).minor = 0 ∧ (encSpawnF op s).x = 0 ∧
      getSpawnF (encSpawnF op s) = s := by
  obtain ⟨a, b, c, kb, kc, dom⟩ := s
  simp (disch := omega) [getSpawnF, encSpawnF]

@[simp] theorem encSendF_reads (op f : Nat) (s : SendF) (ho : op < 64) (hf : f < 4) :
    (encSendF op f s).op = op ∧ (encSendF op f s).tl = 2 ∧ (encSendF op f s).minor = f ∧ (encSendF op f s).x = 0 ∧
      getSendF (encSendF op f s) = s := by
  obtain ⟨b, c, kb, kc, len, ord⟩ := s
  have := ord.toNat_le
  simp (disch := omega) [getSendF, encSendF, ofNat_eq_iff, decide_odd_eq_iff]
  omega

@[simp] theorem encSendxF_reads (op : Nat) (s : SendxF) (ho : op < 64) :
    (encSendxF op s).op = op ∧ (encSendxF op s).tl = 3 ∧ (encSendxF op s).minor = 0 ∧ (encSendxF op s).x = 1 ∧
      getSendxF (encSendxF op s) = s := by
  obtain ⟨b, c, kb, kc, len, ord, xf, par⟩ := s
  have := ord.toNat_le
  simp (disch := omega) [getSendxF, encSendxF, ofNat_eq_iff, decide_odd_eq_iff]
  omega

@[simp] theorem encScloseF_reads (op : Nat) (s : ScloseF) (ho : op < 64) :
    (encScloseF op s).op = op ∧ (encScloseF op s).tl = 1 ∧ (encScloseF op s).minor = 1 ∧ (encScloseF op s).x = 0 ∧
      getScloseF (encScloseF op s) = s := by
  obtain ⟨a, c, kc⟩ := s
  simp (disch := omega) [getScloseF, encScloseF]

@[simp] theorem encSbindF_reads (op : Nat) (s : SbindF) (ho : op < 64) :
    (encSbindF op s).op = op ∧ (encSbindF op s).tl = 2 ∧ (encSbindF op s).minor = 2 ∧ (encSbindF op s).x = 0 ∧
      getSbindF (encSbindF op s) = s := by
  obtain ⟨a, b, c, kb, kc, n⟩ := s
  simp (disch := omega) [getSbindF, encSbindF]

@[simp] theorem encDest_reads (op f : Nat) (s : Dest) (ho : op < 64) (hf : f < 4) :
    (encDest op f s).op = op ∧ (encDest op f s).tl = 1 ∧ (encDest op f s).minor = f ∧ (encDest op f s).x = 0 ∧
      getDest (encDest op f s) = s := by
  obtain ⟨a⟩ := s
  simp (disch := omega) [getDest, encDest]

@[simp] theorem encMxPQ_reads (op : Nat) (s : MxPQ) (ho : op < 64) :
    (encMxPQ op s).op = op ∧ (encMxPQ op s).tl = 3 ∧ (encMxPQ op s).x = 0 ∧
      getMxPQ (encMxPQ op s) = s := by
  obtain ⟨a, sig, p, kp, q, kq⟩ := s
  simp (disch := omega) [getMxPQ, encMxPQ]

@[simp] theorem encMxDrn_reads (op : Nat) (s : MxDrn) (ho : op < 64) :
    (encMxDrn op s).op = op ∧ (encMxDrn op s).tl = 3 ∧ (encMxDrn op s).x = 0 ∧
      getMxDrn (encMxDrn op s) = s := by
  obtain ⟨a, sig, p, kp, q, kq, h, kh⟩ := s
  simp (disch := omega) [getMxDrn, encMxDrn]

@[simp] theorem encMxN_reads (op f : Nat) (s : MxN) (ho : op < 64) (hf : f < 4) :
    (encMxN op f s).op = op ∧ (encMxN op f s).tl = 3 ∧ (encMxN op f s).x = 0 ∧ (encMxN op f s).mods % 4 = f ∧
      getMxN (encMxN op f s) = s := by
  obtain ⟨a, sig, n⟩ := s
  simp (disch := omega) [getMxN, encMxN, ofNat_eq_iff]
  omega

@[simp] theorem encMxZero_reads (op : Nat) (s : MxZero) (ho : op < 64) :
    (encMxZero op s).op = op ∧ (encMxZero op s).tl = 3 ∧ (encMxZero op s).x = 0 ∧ (encMxZero op s).mods % 4 = 1 ∧
      getMxZero (encMxZero op s) = s := by
  obtain ⟨a, sig, q, kq⟩ := s
  simp (disch := omega) [getMxZero, encMxZero]

@[simp] theorem encCpF_reads (op x : Nat) (s : CpF) (ho : op < 64) :
    (encCpF op x s).op = op ∧ (encCpF op x s).tl = 3 ∧ (encCpF op x s).x = (x == 1).toNat ∧
      getCpF (encCpF op x s) = s := by
  obtain ⟨a, sig, p, kp, q, kq, h, kh, dsc, sq⟩ := s
  have := dsc.toNat_le
  simp (disch := omega) [getCpF, encCpF, ofNat_eq_iff]
  omega

@[simp] theorem encDtldF_reads (op : Nat) (s : DtldF) (ho : op < 64) :
    (encDtldF op s).op = op ∧ (encDtldF op s).tl = 3 ∧ (encDtldF op s).x = 1 ∧
      getDtldF (encDtldF op s) = s := by
  obtain ⟨a, sig, q, kq, h, kh, sq⟩ := s
  simp (disch := omega) [getDtldF, encDtldF]

@[simp] theorem encFp2_reads (op f : Nat) (s : Fp2) (ho : op < 64) (hf : f < 4) :
    (encFp2 op f s).op = op ∧ (encFp2 op f s).tl = 2 ∧ (encFp2 op f s).minor = f ∧ (encFp2 op f s).x = 0 ∧
      getFp2 (encFp2 op f s) = s := by
  obtain ⟨a, b, c, kb, kc, ty, rm⟩ := s
  simp only [getFp2, encFp2]
  generalize opZ = z
  simp (disch := omega) [ofNat_eq_iff]
  omega

@[simp] theorem encFp1_reads (op f : Nat) (s : Fp1) (ho : op < 64) (hf : f < 4) :
    (encFp1 op f s).op = op ∧ (encFp1 op f s).tl = 2 ∧ (encFp1 op f s).minor = f ∧ (encFp1 op f s).x = 0 ∧
      getFp1 (encFp1 op f s) = s := by
  obtain ⟨a, b, kb, ty, rm⟩ := s
  simp only [getFp1, encFp1]
  generalize opZ = z
  simp (disch := omega) [ofNat_eq_iff]
  omega

@[simp] theorem encFp3_reads (op : Nat) (s : Fp3) (ho : op < 64) :
    (encFp3 op s).op = op ∧ (encFp3 op s).tl = 2 ∧ (encFp3 op s).minor = 0 ∧ (encFp3 op s).x = 0 ∧
      getFp3 (encFp3 op s) = s := by
  obtain ⟨a, b, c, d, kb, kc, kd, ty, rm⟩ := s
  have := kd.toNat_le
  simp (disch := omega) [getFp3, encFp3, ofNat_eq_iff, decide_odd_eq_iff]
  omega

@[simp] theorem encFcmpF_reads (op : Nat) (s : FcmpF) (ho : op < 64) :
    (encFcmpF op s).op = op ∧ (encFcmpF op s).tl = 2 ∧ (encFcmpF op s).minor = 0 ∧ (encFcmpF op s).x = 0 ∧
      getFcmpF (encFcmpF op s) = s := by
  obtain ⟨a, b, c, kb, kc, ty, cnd⟩ := s
  simp (disch := omega) [getFcmpF, encFcmpF, ofNat_eq_iff]
  omega

@[simp] theorem encFcvtF_reads (op : Nat) (s : FcvtF) (ho : op < 64) :
    (encFcvtF op s).op = op ∧ (encFcvtF op s).tl = 2 ∧ (encFcvtF op s).minor = 1 ∧ (encFcvtF op s).x = 0 ∧
      getFcvtF (encFcvtF op s) = s := by
  obtain ⟨a, b, kb, src, rm, sat, dst⟩ := s
  have := sat.toNat_le
  simp (disch := omega) [getFcvtF, encFcvtF, ofNat_eq_iff, decide_odd_eq_iff]
  omega

@[simp] theorem encVecF_reads (op vop : Nat) (s : VecF) (ho : op < 64) (hv : vop < 32) :
    (encVecF op vop s).op = op ∧ (encVecF op vop s).tl = 3 ∧ (encVecF op vop s).vop = vop ∧
      getVecF (encVecF op vop s) = s := by
  obtain ⟨a, b, kb, c, kc, d, kd, m, km, ty, rm, sat, zero⟩ := s
  have := kd.toNat_le; have := km.toNat_le; have := sat.toNat_le; have := zero.toNat_le
  simp (disch := omega) [getVecF, encVecF, ofNat_eq_iff, decide_odd_eq_iff]
  omega

@[simp] theorem encVMemF_reads (op f x : Nat) (s : VMemF) (ho : op < 64) (hf : f < 4) :
    (encVMemF op f x s).op = op ∧ (encVMemF op f x s).tl = 3 ∧ (encVMemF op f x s).minor = f ∧ (encVMemF op f x s).x = (x == 1).toNat ∧
      getVMemF (encVMemF op f x s) = s := by
  obtain ⟨a, ka, b, kb, c, kc, disp, ty, m, km⟩ := s
  have := km.toNat_le
  simp (disch := omega) [getVMemF, encVMemF, ofNat_eq_iff, decide_odd_eq_iff]
  omega

@[simp] theorem encVMovF_reads (op f : Nat) (s : VMovF) (ho : op < 64) (hf : f < 4) :
    (encVMovF op f s).op = op ∧ (encVMovF op f s).tl = 2 ∧ (encVMovF op f s).minor = f ∧ (encVMovF op f s).x = 0 ∧
      getVMovF (encVMovF op f s) = s := by
  obtain ⟨a, b, kb, c, kc, lane, ty⟩ := s
  simp (disch := omega) [getVMovF, encVMovF, ofNat_eq_iff]
  omega

@[simp] theorem encCsrrF_reads (op : Nat) (s : CsrrF) (ho : op < 64) :
    (encCsrrF op s).op = op ∧ (encCsrrF op s).tl = 2 ∧ (encCsrrF op s).minor = 0 ∧ (encCsrrF op s).x = 0 ∧
      getCsrrF (encCsrrF op s) = s := by
  obtain ⟨a, n⟩ := s
  simp (disch := omega) [getCsrrF, encCsrrF]

@[simp] theorem encCsrwF_reads (op : Nat) (s : CsrwF) (ho : op < 64) :
    (encCsrwF op s).op = op ∧ (encCsrwF op s).tl = 2 ∧ (encCsrwF op s).minor = 1 ∧ (encCsrwF op s).x = 0 ∧
      getCsrwF (encCsrwF op s) = s := by
  obtain ⟨a, ka, n⟩ := s
  simp (disch := omega) [getCsrwF, encCsrwF]

@[simp] theorem encCsrxF_reads (op : Nat) (s : CsrxF) (ho : op < 64) :
    (encCsrxF op s).op = op ∧ (encCsrxF op s).tl = 2 ∧ (encCsrxF op s).minor = 2 ∧ (encCsrxF op s).x = 0 ∧
      getCsrxF (encCsrxF op s) = s := by
  obtain ⟨a, b, kb, n⟩ := s
  simp (disch := omega) [getCsrxF, encCsrxF]

@[simp] theorem encCodeF_reads (op f : Nat) (s : CodeF) (ho : op < 64) (hf : f < 4) :
    (encCodeF op f s).op = op ∧ (encCodeF op f s).tl = 2 ∧ (encCodeF op f s).minor = f ∧ (encCodeF op f s).x = 0 ∧
      getCodeF (encCodeF op f s) = s := by
  obtain ⟨code⟩ := s
  simp (disch := omega) [getCodeF, encCodeF]

/-! ## The row that a code names -/

/-- The code of a well-formed instruction names its own row, and its fields read back as the instruction's. -/
theorem candidate_encode {i : Instr} {c : Code} (hw : i.wf = true) (h : encode i = some c) : candidate c = some i := by
  cases i <;> cases h
  case redx f =>
    have hf : f.fmt.toNat ≤ 2 := by simpa [Instr.wf, wfRedx] using (Bool.and_eq_true_iff.mp hw).2
    simp [candidate, hf]
  case ldrsIndex f => simp [candidate, f.dw.toNat_le]
  case stc f => simp [candidate, show ¬ 2 + f.dw.toNat ≤ 1 by omega]
  all_goals simp [candidate]

theorem decode_encode {i : Instr} {c : Code} (hw : i.wf = true) (h : encode i = some c) : decode c = some i := by
  simp [decode, candidate_encode hw h, hw, h]

/-- What decodes is well-formed and encodes to the code it was read from (R132). -/
theorem decode_eq_some_iff {i : Instr} {c : Code} : decode c = some i ↔ i.wf = true ∧ encode i = some c := by
  refine ⟨fun h => ?_, fun h => decode_encode h.1 h.2⟩
  unfold decode at h
  split at h
  · split at h
    next hc => cases h; simpa using hc
    next => cases h
  · cases h

end Sys2Proof

namespace Sys2Proof.Machine

/-- A code that is no instruction raises ILLOP where it is fetched (R132). -/
theorem State.fetched_reserved {s : State} {c : Code} {m : Module} (hc : codeAt s.cid s.ctx s.win.ctl.pc s.super s.m = .ok (c, m))
    (hd : decode c = none) : s.fetched = .stop (.fault { cause := .illop }) := by
  simp only [State.fetched, hc, hd]

end Sys2Proof.Machine

namespace Sys2Proof.Claims
open Sys2Proof.Machine

/-- Settles O2: the code of a well-formed instruction names its row, and each field reads back. -/
theorem decodeAfterEncode : Obligations.DecodeAfterEncode := fun _ _ hw h => decode_encode hw h

/-- Settles O3: `decode` accepts a row only where its encoding is the code read. -/
theorem decodeRefusesReserved : Obligations.DecodeRefusesReserved :=
  ⟨fun _ _ h => decode_eq_some_iff.mp h, fun _ _ _ hc hd => State.fetched_reserved hc hd⟩

/-- Settles O1: each example is well-formed and encodes to its words. -/
theorem decodeWordExamples : Obligations.DecodeWordExamples := fun e he =>
  have h : ∀ e ∈ wordExamples, e.2.2.wf = true ∧ encode e.2.2 = some ⟨e.1, e.2.1⟩ := by decide
  decode_encode (h e he).1 (h e he).2

end Sys2Proof.Claims
end

section
/-!
PROOFS. Replaced fields: which bits of a word a field's replacement changes (R2).
-/
namespace Sys2Proof

/-- A replaced field as quotient and remainder: the part above it, the field, the part below it. -/
theorem setBits_eq {n : Nat} (x : BitVec n) (hi lo v : Nat) :
    setBits x hi lo v = BitVec.ofNat n (2 ^ lo * (2 ^ (hi + 1 - lo) * (x.toNat / 2 ^ lo / 2 ^ (hi + 1 - lo)) + v % 2 ^ (hi + 1 - lo))
      + x.toNat % 2 ^ lo) := by
  unfold setBits
  dsimp only
  generalize hi + 1 - lo = w
  rw [Nat.shiftRight_eq_div_pow, Nat.shiftLeft_eq, Nat.shiftLeft_eq]
  congr 1
  generalize hq : x.toNat / 2 ^ lo = q
  have h1 := Nat.div_add_mod x.toNat (2 ^ lo)
  have h2 := Nat.div_add_mod q (2 ^ w)
  rw [hq] at h1
  generalize x.toNat % 2 ^ lo = r at *
  generalize v % 2 ^ w = u
  rw [← h1]
  have h3 : 2 ^ lo * q = 2 ^ lo * (2 ^ w * (q / 2 ^ w)) + 2 ^ lo * (q % 2 ^ w) := by rw [← Nat.mul_add, h2]
  rw [Nat.mul_add, h3, Nat.mul_comm (q % 2 ^ w), Nat.mul_comm u]
  omega

theorem bit_setBits {n : Nat} (x : BitVec n) (hi lo v : Nat) {j : Nat} (hj : j < n) :
    bit (setBits x hi lo v) j = if lo ≤ j ∧ j ≤ hi then v.testBit (j - lo) else bit x j := by
  have hx : bit x j = x.toNat.testBit j := rfl
  have hlow : x.toNat % 2 ^ lo < 2 ^ lo := Nat.mod_lt _ (by positivity)
  have hv : v % 2 ^ (hi + 1 - lo) < 2 ^ (hi + 1 - lo) := Nat.mod_lt _ (by positivity)
  rw [setBits_eq, bit, BitVec.getLsbD_ofNat, Nat.testBit_two_pow_mul_add _ hlow, hx, Nat.testBit_two_pow_mul_add _ hv]
  simp only [hj, decide_true, Bool.true_and, Nat.testBit_mod_two_pow, Nat.testBit_div_two_pow]
  split
  · rw [if_neg (by omega)]; simp [*]
  · split
    · rw [if_pos (by omega)]; simp [*]
    · rw [if_neg (by omega)]; congr 1; omega

/-- A bit set or cleared. -/
theorem bit_setBits_one {n : Nat} (x : BitVec n) (k v : Nat) {j : Nat} (hj : j < n) :
    bit (setBits x k k v) j = if j = k then v.testBit 0 else bit x j := by
  rw [bit_setBits x k k v hj]
  by_cases h : j = k
  · rw [if_pos ⟨h.ge, h.le⟩, if_pos h, h, Nat.sub_self]
  · rw [if_neg (by omega), if_neg h]

end Sys2Proof
end

section
/-!
PROOFS. Reads and writes of operands (R69, R71, R77, R81–R83): what a read of registers leaves, what the last-use hints and a written
destination change in the window, and the queue entries and link words.
-/
namespace Sys2Proof.Machine
open Sys2Proof.Claims

/-! ## Liveness -/

@[simp] theorem Win.gr_killG (w : Win) (k j : Nat) : (w.killG k).gr j = w.gr j := rfl
theorem Win.live_killG (w : Win) (k : Nat) {j : Nat} (hj : j < 32) : (w.killG k).live j = (w.live j && !(k == j)) := by
  simp only [Win.live, Win.killG, bit_setBits_one _ _ _ hj, Nat.zero_testBit]
  by_cases h : j = k
  · simp [h]
  · simp [h, Ne.symm h]

/-- The last-use hints change the liveness of registers and nothing else. -/
theorem killAll_eq (w : Win) (l : List Src) : killAll w l = { w with ctl := { w.ctl with liveg := (killAll w l).ctl.liveg } } := by
  induction l generalizing w with
  | nil => rfl
  | cons o l ih =>
    rw [killAll, ih]
    split <;> rfl

theorem live_killAll (w : Win) (l : List Src) {j : Nat} (hj : j < 32) :
    (killAll w l).live j = (w.live j && !(l.any fun o => o.k && o.code.toNat == j)) := by
  induction l generalizing w with
  | nil => simp [killAll]
  | cons o l ih =>
    rw [killAll, ih, List.any_cons]
    split
    next h =>
      obtain ⟨hk, -⟩ := (Bool.and_eq_true _ _).mp h
      simp [w.live_killG o.code.toNat hj, hk, Bool.and_assoc]
    next h =>
      have : (o.k && o.code.toNat == j) = false := by
        simp only [Bool.and_eq_true, decide_eq_true_eq, not_and] at h
        simpa using fun hk => by have := h hk; omega
      simp [this]

/-! ## Reads -/

/-- A read of registers and `z` may touch register banks and count a corrected error; registers, liveness and control words stay. -/
structure ReadOnly (s t : State) : Prop where
  put : ∀ w, t.setWin w = s.setWin w
  g : t.win.g = s.win.g
  v : t.win.v = s.win.v
  bad : t.win.bad = s.win.bad
  ctl : t.win.ctl = s.win.ctl

theorem ReadOnly.refl (s : State) : ReadOnly s s := ⟨fun _ => rfl, rfl, rfl, rfl, rfl⟩
theorem ReadOnly.trans {s t u : State} (h : ReadOnly s t) (k : ReadOnly t u) : ReadOnly s u :=
  ⟨fun w => (k.put w).trans (h.put w), k.g.trans h.g, k.v.trans h.v, k.bad.trans h.bad, k.ctl.trans h.ctl⟩
theorem ReadOnly.plainValue {s t : State} (h : ReadOnly s t) (c : Opnd) : plainValue t.win c = plainValue s.win c := by
  unfold Claims.plainValue Win.live Win.gr
  rw [h.ctl, h.g, h.bad]

theorem ReadOnly.found (s : State) (b : Nat) (ks : List Nat) : ReadOnly s (s.setWin ((s.win.touchBank s.m.time b).found ks)) := by
  have h : ∀ w : Win, (w.found ks).g = w.g ∧ (w.found ks).v = w.v ∧ (w.found ks).bad = w.bad ∧ (w.found ks).ctl = w.ctl := fun w => by
    unfold Win.found
    dsimp only
    split <;> exact ⟨rfl, rfl, rfl, rfl⟩
  obtain ⟨hg, hv, hb, hc⟩ := h (s.win.touchBank s.m.time b)
  exact ⟨fun w => State.setWin_setWin .., by rw [State.win_setWin, hg]; rfl, by rw [State.win_setWin, hv]; rfl,
    by rw [State.win_setWin, hb]; rfl, by rw [State.win_setWin, hc]; rfl⟩

theorem readSrc_readOnly {s : State} {o : Src} {v : Word} (h : plainValue s.win o.code = some v) :
    ∃ t, readSrc o s = .ok (v, t) ∧ ReadOnly s t := by
  rcases plainValue_eq_some h with ⟨hn, -, -, rfl⟩ | ⟨hz, rfl⟩
  · exact ⟨_, by rw [readSrc, Run.get_bind, if_pos hn, Run.onWin_bind, Run.pure_run], ReadOnly.found s _ _⟩
  · exact ⟨s, by simp [readSrc, hz], ReadOnly.refl s⟩

theorem readList_readOnly {l : List Src} {s : State} {vs : List Word} (h : l.map (fun o => plainValue s.win o.code) = vs.map some) :
    ∃ t, readList l s = .ok (vs, t) ∧ ReadOnly s t := by
  induction l generalizing s vs with
  | nil =>
    obtain rfl : vs = [] := by simpa using h.symm
    exact ⟨s, rfl, ReadOnly.refl s⟩
  | cons o l ih =>
    cases vs with
    | nil => simp at h
    | cons v vs =>
      obtain ⟨ho, hl⟩ := List.cons.inj h
      obtain ⟨t, hr, ht⟩ := readSrc_readOnly ho
      obtain ⟨u, hu, htu⟩ := ih (s := t) (by simpa only [ht.plainValue] using hl)
      exact ⟨u, by rw [readList, Run.bind_ok hr, Run.bind_ok hu, Run.pure_run], ht.trans htu⟩

theorem dstBad_plain {s : State} {u : Put} {a : Opnd} (h : PlainCode a) : s.dstBad u a = false := by
  rcases h with h | rfl
  · simp [State.dstBad, h]
  · simp [State.dstBad]

/-- Sources that have plain values, before a destination that can take one, pass every check and are read; then the last-use hints
are applied. -/
theorem operands_readOnly {s : State} {l : List Src} {dst : Option (Put × Opnd)} {vs : List Word}
    (hd : ∀ d, dst = some d → PlainCode d.2) (h : l.map (fun o => plainValue s.win o.code) = vs.map some) :
    ∃ t, ReadOnly s t ∧ operands l dst s = .ok (vs, s.setWin (killAll t.win l)) := by
  have hval : ∀ o ∈ l, ∃ v, plainValue s.win o.code = some v := fun o ho => by
    have hm : plainValue s.win o.code ∈ vs.map some := h ▸ List.mem_map_of_mem ho
    obtain ⟨v, -, hv⟩ := List.mem_map.mp hm
    exact ⟨v, hv.symm⟩
  have hdst : dst.any (fun d => s.dstBad d.1 d.2) = false := by
    cases dst with
    | none => rfl
    | some d => exact dstBad_plain (hd d rfl)
  obtain ⟨t, ht, hst⟩ := readList_readOnly h
  refine ⟨t, hst, ?_⟩
  obtain ⟨u, hu⟩ := operands_plain h
  rw [operands_eq] at hu ⊢
  rw [hdst]
  rw [Option.any_none] at hu
  split at hu
  · cases hu
  split at hu
  · cases hu
  split at hu
  · cases hu
  rename_i h1 h2 h3
  rw [if_neg h1, if_neg h2, if_neg h3, Run.bind_ok ht, Run.onWin_bind, Run.pure_run, hst.put]

/-! ## Destinations -/

theorem Win.gr_setG_same (w : Win) (time k : Nat) (v : Word) : (w.setG time k v).gr k = v := by simp [Win.gr, Win.setG]
theorem Win.gr_setG_other (w : Win) (time : Nat) (v : Word) {k j : Nat} (h : j ≠ k) : (w.setG time k v).gr j = w.gr j :=
  Tab.get_put_other _ _ _ _ _ h
theorem Win.live_setG (w : Win) (time k : Nat) (v : Word) {j : Nat} (hj : j < 32) :
    (w.setG time k v).live j = if j = k then true else w.live j := by
  show bit (setBits w.ctl.liveg k k 1) j = _
  rw [bit_setBits_one _ _ _ hj]
  rfl

theorem writeDst_reg {s : State} {a : Opnd} (h : a.toNat < 32) (v : Word) :
    writeDst a v s = .ok ((), s.setWin (s.win.setG s.m.time a.toNat v)) := by
  rw [writeDst, Run.get_bind, if_pos h]; rfl
theorem writeDst_z (s : State) (v : Word) : writeDst 41#6 v s = .ok ((), s) := by simp [writeDst]

/-! ## Links (R71) -/

theorem sendLink_eq (right : Bool) (v : Word) (s : State) :
    sendLink right v s = if 4 ≤ onward s right then .error .stall else .ok ((), linkSent s right v) := by
  cases right
  · by_cases h : 4 ≤ (s.m.core (leftOf s.cid)).ports.nbr.length + (s.m.core (leftOf s.cid)).ports.flyR.length <;>
      simp [sendLink, h, onward, linkSent]
  · by_cases h : 4 ≤ (s.m.core (rightOf s.cid)).ports.nbl.length + (s.m.core (rightOf s.cid)).ports.flyL.length <;>
      simp [sendLink, h, onward, linkSent]

theorem popLink_eq (left k : Bool) (s : State) :
    popLink left k s = match linkWords left s.core.ports with
      | [] => .error .stall
      | v :: vs => if k then (sendLink left v >>= fun _ => pure v : Run Word) (popped s left vs) else .ok (v, popped s left vs) := by
  rw [popLink, Run.get_bind]
  show (match linkWords left s.core.ports with | [] => _ | v :: vs => _ : Run Word) s = _
  cases linkWords left s.core.ports with
  | nil => rfl
  | cons v vs => cases k <;> simp [popped]

end Sys2Proof.Machine
end

section
/-!
PROOFS. The integer results (R397, R405, R413–R423, R444, R448, R464, R473): what the model computes is the exact result modulo 2^64.
-/
namespace Sys2Proof

theorem trunc64_eq_ofInt (x : Int) : trunc64 x = BitVec.ofInt 64 x := by
  rw [← BitVec.toNat_inj, trunc64, truncTo, BitVec.toNat_ofNat, BitVec.toNat_ofInt]
  omega
@[simp] theorem trunc64_natCast (n : Nat) : trunc64 (n : Int) = BitVec.ofNat 64 n := by rw [trunc64_eq_ofInt, BitVec.ofInt_natCast]
@[simp] theorem trunc64_toInt (b : Word) : trunc64 b.toInt = b := by rw [trunc64_eq_ofInt, BitVec.ofInt_toInt]

theorem upFrom_eq_map (a n : Nat) : upFrom a n = (List.range n).map (a + ·) := by
  induction n generalizing a with
  | zero => rfl
  | succ n ih =>
    rw [upFrom, ih, List.range_succ_eq_map, List.map_cons, List.map_map]
    simp [Function.comp_def, Nat.add_assoc, Nat.add_comm 1]

theorem upFrom_zero (n : Nat) : upFrom 0 n = List.range n := by simp [upFrom_eq_map]

end Sys2Proof

namespace Sys2Proof.Machine
open Sys2Proof.Claims

/-- A word is 0 where its signed value is. -/
theorem toInt_eq_zero_iff (c : Word) : c.toInt = 0 ↔ c = 0#64 := by rw [← BitVec.toInt_inj]; rfl

theorem add_eq_sum (b c : Word) : b + c = sum b c := by
  rw [sum, trunc64_eq_ofInt, BitVec.ofInt_add, BitVec.ofInt_toInt, BitVec.ofInt_toInt]

theorem sub_eq_difference (b c : Word) : b - c = difference b c := by
  rw [difference, trunc64_eq_ofInt, Int.sub_eq_add_neg, BitVec.ofInt_add, BitVec.ofInt_neg, BitVec.ofInt_toInt, BitVec.ofInt_toInt,
    BitVec.sub_eq_add_neg]

theorem mulLow_eq_product (b c : Word) : mulLow b c = product b c := by
  rw [product, trunc64_eq_ofInt, BitVec.ofInt_mul, BitVec.ofInt_toInt, BitVec.ofInt_toInt]; rfl

theorem mulHighU_eq_productHighU (b c : Word) : mulHighU b c = productHighU b c := (trunc64_natCast _).symm

theorem divS_eq_quotient (b c : Word) : divS b c = quotient b c := by
  unfold divS quotient quotOf
  rw [apply_ite trunc64]
  simp only [toInt_eq_zero_iff]
  rfl

theorem divU_eq_quotientU (b c : Word) : divU b c = quotientU b c := by
  unfold divU quotientU quotOf
  have h : (c.toNat : Int) = 0 ↔ c = 0#64 := by rw [← BitVec.toNat_inj]; simp
  simp only [h]
  split
  · rfl
  · exact (trunc64_natCast _).symm

theorem remS_eq_remainder (b c : Word) : remS b c = remainder b c := by
  unfold remS remainder remOf
  simp only [toInt_eq_zero_iff]
  split
  · exact (trunc64_toInt b).symm
  · rw [Int.tmod_def, Int.mul_comm]

theorem remU_eq_remainderU (b c : Word) : remU b c = remainderU b c := by
  unfold remU remainderU remOf
  have h : (c.toNat : Int) = 0 ↔ c = 0#64 := by rw [← BitVec.toNat_inj]; simp
  simp only [h]
  split
  · simp
  · rw [Int.mul_comm, ← Int.tmod_def]
    exact (trunc64_natCast _).symm

theorem minS_eq_least (b c : Word) : minS b c = least b c := by
  unfold minS least
  split
  · rw [min_eq_left ‹_›, trunc64_toInt]
  · rw [min_eq_right (by omega), trunc64_toInt]

theorem maxS_eq_greatest (b c : Word) : maxS b c = greatest b c := by
  unfold maxS greatest
  split
  · rw [max_eq_right ‹_›, trunc64_toInt]
  · rw [max_eq_left (by omega), trunc64_toInt]

theorem minU_eq_leastU (b c : Word) : minU b c = leastU b c := by
  unfold minU leastU
  split
  · rw [min_eq_left (by omega)]; simp
  · rw [min_eq_right (by omega)]; simp

theorem maxU_eq_greatestU (b c : Word) : maxU b c = greatestU b c := by
  unfold maxU greatestU
  split
  · rw [max_eq_right (by omega)]; simp
  · rw [max_eq_left (by omega)]; simp

theorem shlN_eq_shiftLeft (b : Word) (n : Nat) : shlN b n = shiftLeft b n := by
  unfold shlN shiftLeft
  rw [← trunc64_natCast, Nat.cast_mul]

theorem sarN_eq_shiftSigned (b : Word) (n : Nat) : sarN b n = shiftSigned b n := by
  unfold sarN shiftSigned
  rw [Nat.cast_pow]; rfl

theorem shrN_eq_shiftRight (b : Word) (n : Nat) : shrN b n = shiftRight b n := (trunc64_natCast _).symm

theorem rotN_eq_rotateLeft (b : Word) (n : Nat) : rotN b n = rotateLeft b n := (trunc64_natCast _).symm

theorem csel_eq (onZero : Bool) (x y d : Word) : (if (d == 0#64) == onZero then x else y)
    = if (onZero = false ∧ d ≠ 0#64) ∨ (onZero = true ∧ d = 0#64) then x else y := by
  cases onZero <;> simp

theorem holds_eq_condOf (c : Cond) (x y : Word) : holds c x y = condOf c x y := by
  cases c <;> simp [holds, condOf, ← BitVec.toNat_inj]
  rw [Bool.eq_iff_iff]; simp [BitVec.toNat_inj]

theorem setVal_eq_flagOf (c : Cond) (x y : Word) : setVal c x y = flagOf (condOf c x y) := by
  rw [setVal, holds_eq_condOf, flagOf]

theorem extrSN_eq (b : Word) (pos w : Nat) : extrSN b pos (w + 1) = trunc64 (fieldSigned b pos (w + 1)) := by
  unfold extrSN fieldSigned signedOf field
  dsimp only
  congr 1
  have : 2 ^ (w + 1) = 2 * 2 ^ w := by ring
  rw [Nat.add_sub_cancel, this]
  congr 1
  rw [eq_iff_iff]
  omega

theorem insrN_eq (b c : Word) (pos w : Nat) : insrN b c pos (w + 1) = trunc64 (inserted b c pos (w + 1)) := by
  unfold insrN setBits inserted field
  dsimp only
  rw [show pos + (w + 1) - 1 + 1 - pos = w + 1 by omega, Nat.shiftRight_eq_div_pow, Nat.shiftLeft_eq, Nat.shiftLeft_eq,
    ← trunc64_natCast]
  congr 1
  have h : b.toNat / 2 ^ pos % 2 ^ (w + 1) * 2 ^ pos ≤ b.toNat :=
    (Nat.mul_le_mul_right _ (Nat.mod_le ..)).trans (Nat.div_mul_le_self ..)
  omega

/-! ## Bit counts and byte order (R405) -/

theorem filter_range_lt (L n : Nat) : ((List.range n).filter fun k => decide (L < k)).length = n - (L + 1) := by
  induction n with
  | zero => simp
  | succ n ih =>
    rw [List.range_succ, List.filter_append, List.length_append, ih]
    by_cases h : L < n <;> simp [h] <;> omega

theorem clzN_eq_zerosAbove (b : Word) : clzN b = zerosAbove b := by
  unfold clzN zerosAbove
  rw [upFrom_zero]
  split
  next h => subst h; rfl
  next h =>
    have hb : b.toNat ≠ 0 := fun h0 => h (BitVec.toNat_inj.mp h0)
    have hp : ∀ k, decide (b.toNat / 2 ^ k = 0) = decide (b.toNat.log2 < k) := fun k => by
      rw [decide_eq_decide, Nat.div_eq_zero_iff, Nat.log2_lt hb]
      simp
    simp only [hp, filter_range_lt]
    have := (Nat.log2_lt hb).mpr b.isLt
    congr 1
    omega

theorem ctzFrom_eq (x n : Nat) : ctzFrom x n = ((List.range n).filter fun k => decide (x % 2 ^ (k + 1) = 0)).length := by
  induction n generalizing x with
  | zero => rfl
  | succ n ih =>
    rw [ctzFrom, List.range_succ_eq_map, List.filter_cons, List.filter_map, ih]
    have hp : ∀ k : Nat, x % 2 ^ (k + 1 + 1) = 0 ↔ x % 2 = 0 ∧ x / 2 % 2 ^ (k + 1) = 0 := fun k => by
      rw [Nat.pow_succ', Nat.mod_mul]
      omega
    by_cases h : x % 2 = 1
    · simp [h, hp, Function.comp_def]
    · have h0 : x % 2 = 0 := by omega
      simp [h0, hp, Function.comp_def, Nat.add_comm 1]

theorem onesFrom_eq (x n : Nat) : onesFrom x n = ((List.range n).map fun k => x / 2 ^ k % 2).sum := by
  induction n generalizing x with
  | zero => rfl
  | succ n ih =>
    rw [onesFrom, List.range_succ_eq_map, List.map_cons, List.sum_cons, ih]
    simp [Function.comp_def, Nat.div_div_eq_div_mul, Nat.pow_succ']

theorem leBytes_eq_map (n x : Nat) : leBytes n x = (List.range n).map fun k => BitVec.ofNat 8 (x / 256 ^ k) := by
  induction n generalizing x with
  | zero => rfl
  | succ n ih =>
    rw [leBytes, ih, List.range_succ_eq_map, List.map_cons, List.map_map]
    simp [Function.comp_def, Nat.div_div_eq_div_mul, Nat.pow_succ']

theorem ctzN_eq_zerosBelow (b : Word) : ctzN b = zerosBelow b := by rw [ctzN, ctzFrom_eq, zerosBelow, upFrom_zero]

theorem popcN_eq_onesIn (b : Word) : popcN b = onesIn b := by rw [popcN, onesFrom_eq, onesIn, upFrom_zero]; rfl

theorem leNat_map_range (f : Nat → Byte) (n : Nat) :
    leNat ((List.range n).map f) = ((List.range n).map fun k => (f k).toNat * 256 ^ k).sum := by
  induction n generalizing f with
  | zero => rfl
  | succ n ih =>
    rw [List.range_succ_eq_map, List.map_cons, List.map_map, leNat, ih, List.map_cons, List.map_map, List.sum_cons, ← List.sum_map_mul_left]
    simp [Function.comp_def, Nat.pow_succ', Nat.mul_left_comm]

theorem bswpN_eq_bytesSwapped (b : Word) : bswpN b = bytesSwapped b := by
  have h : (leBytes 8 b.toNat).reverse = (List.range 8).map fun k => BitVec.ofNat 8 (b.toNat / 256 ^ (7 - k)) := by
    rw [leBytes_eq_map, ← List.map_reverse]; rfl
  rw [bswpN, h, leNat_map_range, bytesSwapped, upFrom_zero]
  rfl
end Sys2Proof.Machine
end

section
/-!
PROOFS. Integer instructions: each reads the sources of its row, computes the row's value and writes the row's destination.
-/
namespace Sys2Proof.Claims
open Sys2Proof.Machine

/-- The body of a row: its operands, then its value to its destination. -/
def Row.body (r : Row) : Run Unit := do
  let l ← operands r.srcs (some r.dst)
  writeDst r.dst.2 (r.val l)

end Sys2Proof.Claims

namespace Sys2Proof.Machine
open Sys2Proof.Claims

theorem alu3_row (f : Alu3) {g h : Word → Word → Word} (e : ∀ b c, g b c = h b c) (s : State) :
    run (alu3 f g) s = run (reg3 f h).body s := by rw [funext₂ e]; rfl
theorem aluI16_row (f : AluI16) {g h : Word → Word → Word} (e : ∀ b c, g b c = h b c) (s : State) :
    run (aluI16 f g) s = run (imm16 f h).body s := by rw [funext₂ e]; rfl
theorem aluI48_row (f : AluI48) {g h : Word → Word → Word} (e : ∀ b c, g b c = h b c) (s : State) :
    run (aluI48 f g) s = run (imm48 f h).body s := by rw [funext₂ e]; rfl
theorem shiftI_row (f : ShiftI) {g h : Word → Nat → Word} (e : ∀ b n, g b n = h b n) (s : State) :
    run (shiftI f g) s = run (count6 f h).body s := by rw [funext₂ e]; rfl
theorem unary_row (f : Un) {g h : Word → Word} (e : ∀ b, g b = h b) (s : State) :
    run (unary f g) s = run (one f h).body s := by rw [funext e]; rfl
theorem byReg_eq_mod64 {g h : Word → Nat → Word} (e : ∀ b n, g b n = h b n) (b c : Word) : byReg g b c = mod64 h b c := e _ _

theorem arithRow_means {i : Instr} {r : Row} (h : arithRow i = some r) (s : State) : exec i s = run r.body s := by
  unfold arithRow at h
  split at h <;> cases h
  · exact alu3_row _ add_eq_sum s
  · exact aluI16_row _ add_eq_sum s
  · exact aluI48_row _ add_eq_sum s
  · exact alu3_row _ sub_eq_difference s
  · exact aluI16_row _ sub_eq_difference s
  · exact aluI48_row _ sub_eq_difference s
  · exact alu3_row _ mulLow_eq_product s
  · exact aluI16_row _ mulLow_eq_product s
  · exact aluI48_row _ mulLow_eq_product s
  · exact alu3_row _ (fun _ _ => rfl) s
  · exact aluI16_row _ (fun _ _ => rfl) s
  · exact aluI48_row _ (fun _ _ => rfl) s
  · exact alu3_row _ mulHighU_eq_productHighU s
  · exact aluI16_row _ mulHighU_eq_productHighU s
  · exact aluI48_row _ mulHighU_eq_productHighU s
  · exact alu3_row _ divS_eq_quotient s
  · exact aluI16_row _ divS_eq_quotient s
  · exact aluI48_row _ divS_eq_quotient s
  · exact alu3_row _ divU_eq_quotientU s
  · exact aluI16_row _ divU_eq_quotientU s
  · exact aluI48_row _ divU_eq_quotientU s
  · exact alu3_row _ remS_eq_remainder s
  · exact aluI16_row _ remS_eq_remainder s
  · exact aluI48_row _ remS_eq_remainder s
  · exact alu3_row _ remU_eq_remainderU s
  · exact aluI16_row _ remU_eq_remainderU s
  · exact aluI48_row _ remU_eq_remainderU s
  · exact alu3_row _ minS_eq_least s
  · exact aluI16_row _ minS_eq_least s
  · exact aluI48_row _ minS_eq_least s
  · exact alu3_row _ maxS_eq_greatest s
  · exact aluI16_row _ maxS_eq_greatest s
  · exact aluI48_row _ maxS_eq_greatest s
  · exact alu3_row _ minU_eq_leastU s
  · exact aluI16_row _ minU_eq_leastU s
  · exact aluI48_row _ minU_eq_leastU s
  · exact alu3_row _ maxU_eq_greatestU s
  · exact aluI16_row _ maxU_eq_greatestU s
  · exact aluI48_row _ maxU_eq_greatestU s

theorem logicRow_means {i : Instr} {r : Row} (h : logicRow i = some r) (s : State) : exec i s = run r.body s := by
  unfold logicRow at h
  split at h <;> cases h
  · exact alu3_row _ (fun _ _ => rfl) s
  · exact aluI16_row _ (fun _ _ => rfl) s
  · exact aluI48_row _ (fun _ _ => rfl) s
  · exact alu3_row _ (fun _ _ => rfl) s
  · exact aluI16_row _ (fun _ _ => rfl) s
  · exact aluI48_row _ (fun _ _ => rfl) s
  · exact alu3_row _ (fun _ _ => rfl) s
  · exact aluI16_row _ (fun _ _ => rfl) s
  · exact aluI48_row _ (fun _ _ => rfl) s
  · exact alu3_row _ (fun _ _ => rfl) s
  · exact aluI16_row _ (fun _ _ => rfl) s
  · exact aluI48_row _ (fun _ _ => rfl) s
  · exact alu3_row _ (byReg_eq_mod64 shlN_eq_shiftLeft) s
  · exact shiftI_row _ shlN_eq_shiftLeft s
  · exact alu3_row _ (byReg_eq_mod64 shrN_eq_shiftRight) s
  · exact shiftI_row _ shrN_eq_shiftRight s
  · exact alu3_row _ (byReg_eq_mod64 sarN_eq_shiftSigned) s
  · exact shiftI_row _ sarN_eq_shiftSigned s
  · exact alu3_row _ (byReg_eq_mod64 rotN_eq_rotateLeft) s
  · exact shiftI_row _ rotN_eq_rotateLeft s

theorem countRow_means {i : Instr} {r : Row} (h : countRow i = some r) (s : State) : exec i s = run r.body s := by
  unfold countRow at h
  split at h <;> cases h
  · exact unary_row _ clzN_eq_zerosAbove s
  · exact unary_row _ ctzN_eq_zerosBelow s
  · exact unary_row _ popcN_eq_onesIn s
  · exact unary_row _ bswpN_eq_bytesSwapped s

/-- A body whose value is that of the row. -/
theorem row_means (r : Row) {g : List Word → Word} (e : ∀ l, g l = r.val l) (s : State) :
    run (do let l ← operands r.srcs (some r.dst); writeDst r.dst.2 (g l)) s = run r.body s := by rw [funext e]; rfl

theorem moveRow_means {i : Instr} {r : Row} (h : moveRow i = some r) (s : State) : exec i s = run r.body s := by
  unfold moveRow at h
  split at h <;> cases h
  · exact row_means ⟨[_, _], _, _⟩ (fun l => setVal_eq_flagOf ..) s
  · exact row_means ⟨[_], _, _⟩ (fun l => setVal_eq_flagOf ..) s
  · exact row_means ⟨[_], _, _⟩ (fun l => setVal_eq_flagOf ..) s
  · exact row_means ⟨[_, _, _], _, _⟩ (fun l => csel_eq ..) s
  · exact row_means ⟨[_], _, _⟩ (fun l => (trunc64_natCast _).symm) s
  · exact row_means ⟨[_], _, _⟩ (fun l => extrSN_eq ..) s
  · exact row_means ⟨[_, _], _, _⟩ (fun l => insrN_eq ..) s
  · rfl
  · rfl
  · rfl
  · rfl

theorem intRow_means {i : Instr} {r : Row} (h : intRow i = some r) (s : State) : exec i s = run r.body s := by
  simp only [intRow, Option.or_eq_some_iff] at h
  rcases h with h | ⟨-, h | ⟨-, h | ⟨-, h⟩⟩⟩
  · exact arithRow_means h s
  · exact logicRow_means h s
  · exact countRow_means h s
  · exact moveRow_means h s

theorem completes_of_means {i : Instr} {r : Row} (h : ∀ s, exec i s = run r.body s) : Completes i r := fun s s1 s2 l hr ho hw =>
  (h s).trans (run_retires hr _ ((Run.bind_ok ho).trans hw))

end Sys2Proof.Machine
end

section
/-!
PROOFS. Operands and integer instructions settled (R69–R83, R397–R473).
-/
namespace Sys2Proof.Machine
open Sys2Proof.Claims

/-! ## Faults of operands (R81, R83) -/

theorem srcBad_of_high {s : State} {o : Src} (h : 42 ≤ o.code.toNat) : s.srcBad o = true := by
  have h1 : ¬ o.code.toNat < 32 := by omega
  have h2 : o.code.toNat ≠ 41 := by omega
  cases hu : o.use
  case addr => simp [State.srcBad, h1, h2, hu]
  case data =>
    have h3 : o.code.toNat ≠ 33 := by omega
    simp [State.srcBad, h1, h2, hu, h3]
  case exec =>
    have h3 : o.code.toNat ≠ 32 ∧ o.code.toNat ≠ 34 ∧ o.code.toNat ≠ 35 ∧ ¬ o.code.toNat ≤ 39 := by omega
    simp [State.srcBad, h1, h2, hu, h3]

theorem dstBad_of_high {s : State} {u : Put} {a : Opnd} (h : 42 ≤ a.toNat) : s.dstBad u a = true := by
  have h1 : ¬ a.toNat < 32 := by omega
  have h2 : a.toNat ≠ 32 ∧ a.toNat ≠ 33 ∧ a.toNat ≠ 34 ∧ a.toNat ≠ 35 ∧ a.toNat ≠ 40 ∧ a.toNat ≠ 41 := by omega
  cases u <;> simp [State.dstBad, h1, h2]

theorem srcBad_of_addr {s : State} {o : Src} (ha : o.use = .addr) (hp : ¬ PlainCode o.code) : s.srcBad o = true := by
  have h1 : ¬ o.code.toNat < 32 := fun h => hp (.inl h)
  have h2 : o.code.toNat ≠ 41 := fun h => hp (.inr (BitVec.toNat_inj.mp h))
  simp [State.srcBad, h1, h2, ha]

theorem operands_badopnd {s : State} {l : List Src} {dst : Option (Put × Opnd)}
    (h : (∃ o ∈ l, s.srcBad o = true) ∨ ∃ d, dst = some d ∧ s.dstBad d.1 d.2 = true) :
    operands l dst s = .error (.fault { cause := .badopnd }) := by
  rw [operands_eq, if_pos]
  rcases h with ⟨o, ho, hb⟩ | ⟨d, rfl, hb⟩
  · simp [List.any_eq_true.mpr ⟨o, ho, hb⟩]
  · simp [hb]

theorem popsBad_of_codes {s : State} {l : List Src} (h : ∀ o ∈ l, PlainCode o.code) : s.popsBad l = false := by
  have hne : ∀ o ∈ l, o.code ≠ 32#6 ∧ o.code ≠ 33#6 := fun o ho => by
    rcases h o ho with hn | hz
    · constructor <;> bv_omega
    · rw [hz]; decide
  have h32 : l.filter (·.code == 32#6) = [] := List.filter_eq_nil_iff.mpr fun o ho => by simp [(hne o ho).1]
  have h33 : l.filter (·.code == 33#6) = [] := List.filter_eq_nil_iff.mpr fun o ho => by simp [(hne o ho).2]
  simp [State.popsBad, h32, h33]

/-- Among registers and `z` a dead register is found first. -/
theorem operands_deadreg {s : State} {l : List Src} {dst : Option (Put × Opnd)} {o : Src} (hl : ∀ x ∈ l, PlainCode x.code)
    (hd : ∀ d, dst = some d → PlainCode d.2) (ho : o ∈ l) (hn : o.code.toNat < 32) (hdead : s.win.live o.code.toNat = false) :
    operands l dst s = .error (.fault { cause := .deadreg }) := by
  have hsrc : l.any s.srcBad = false := List.any_eq_false.mpr fun x hx => by
    rcases hl x hx with h | h <;> simp [State.srcBad, h]
  have hdst : dst.any (fun d => s.dstBad d.1 d.2) = false := by
    cases dst with
    | none => rfl
    | some d => exact dstBad_plain (hd d rfl)
  rw [operands_eq, hsrc, popsBad_of_codes hl, hdst, if_neg (by decide), if_pos]
  exact List.any_eq_true.mpr ⟨_, mem_regCodes.mpr ⟨o, ho, hn, rfl⟩, by simp [hdead]⟩

/-! ## Destinations in the registers -/

/-- A value written to a register or `z` changes the window alone, and there that register alone. -/
theorem writeDst_plain {s : State} {w : Win} {a : Opnd} {v : Word} (h : PlainCode a) :
    ∃ w', writeDst a v (s.setWin w) = .ok ((), s.setWin w') ∧
      (w'.ctl.pc = w.ctl.pc ∧ w'.ctl.sw = w.ctl.sw ∧ w'.ctl.livev = w.ctl.livev) ∧ w'.v = w.v ∧
      (a.toNat < 32 → w'.gr a.toNat = v ∧ w'.live a.toNat = true) ∧
      ∀ k, k < 32 → k ≠ a.toNat → w'.gr k = w.gr k ∧ w'.live k = w.live k := by
  rcases h with hn | rfl
  · exact ⟨w.setG (s.setWin w).m.time a.toNat v, by rw [writeDst_reg hn, State.setWin_setWin, State.win_setWin], ⟨rfl, rfl, rfl⟩, rfl,
      fun _ => ⟨Win.gr_setG_same .., by rw [Win.live_setG _ _ _ _ hn, if_pos rfl]⟩,
      fun k hlt hne => ⟨Win.gr_setG_other _ _ _ hne, by rw [Win.live_setG _ _ _ _ hlt, if_neg hne]⟩⟩
  · exact ⟨w, writeDst_z .., ⟨rfl, rfl, rfl⟩, rfl, fun h => absurd h (by decide), fun _ _ _ => ⟨rfl, rfl⟩⟩

/-! ## Commit of an instruction that changes its window alone -/

/-- A core after the commit of an instruction of activation `key` that has left it window w. -/
def Core.retiredWith (key : Nat) (w : Win) (c : Core) : Core :=
  { c.onAct key fun a => { a with win := some w } with spec := { c.spec with inst := c.spec.inst + 1#64 } }

/-- At a commit point without SS, an instruction that has changed only its window commits: what else differs is its cycle and the
core's count of instructions. -/
theorem State.retire_setWin {s : State} (w : Win) (hr : s.Running) (ho : s.open_ = none) (hss : swSs s.sw = false) :
    SameOutside s (s.retire (s.begun.setWin w)) ∧ (s.retire (s.begun.setWin w)).open_ = none ∧
      (s.retire (s.begun.setWin w)).win = w := by
  have hg : s.groupNow = ⟨s.m.issue s.cid s.ctx, [], [], 0, 0, none⟩ := by simp [State.groupNow, ho]
  have ht : s.retire (s.begun.setWin w) =
      { s with m := (((s.m.issue s.cid s.ctx).setWin s.cid s.key w).onCore s.cid fun c =>
        { c with spec := { c.spec with inst := c.spec.inst + 1#64 } }) } := by
    have hk : State.key { s with m := s.m.issue s.cid s.ctx, open_ := some s.groupNow } = s.key := State.key_of_issue s _
    have hm : (s.begun.setWin w).m = (s.m.issue s.cid s.ctx).setWin s.cid s.key w := by
      rw [State.begun, State.setPc, State.setWin_setWin, State.setWin, hk]
    have hopen : (s.begun.setWin w).open_ = some s.groupNow := rfl
    have hrest : (s.begun.setWin w).cid = s.cid ∧ (s.begun.setWin w).ctx = s.ctx ∧ (s.begun.setWin w).agenda = s.agenda := ⟨rfl, rfl, rfl⟩
    unfold State.retire State.commit
    simp only [hopen, hg, hss, hm, hrest]
    simp [← ho, hrest]
  have hctx : (s.core.ctx s.ctx).act = some s.key := hr.ctx
  rw [ht]
  generalize hm : s.m.issue s.cid s.ctx = m
  have hcore := Module.issue_core s.m s.cid s.ctx
  have hrest : m = { s.m with time := m.time, cores := m.cores } := by
    rw [← hm]; unfold Module.issue; split <;> rfl
  have hother : ∀ c, c ≠ s.cid → m.core c = s.m.core c := fun c hc => by
    rw [← hm]; unfold Module.issue; split <;> exact Module.core_onCore_other _ _ _ _ hc
  rw [hm] at hcore
  have hf : (m.setWin s.cid s.key w).onCore s.cid (fun c => { c with spec := { c.spec with inst := c.spec.inst + 1#64 } })
      = m.onCore s.cid (Core.retiredWith s.key w) := by rw [Module.setWin, Module.onAct, Module.onCore_onCore]; rfl
  rw [hf]
  have hkey : State.key { s with m := m.onCore s.cid (Core.retiredWith s.key w) } = s.key := by
    simp only [State.key, State.core, Module.core_onCore]
    show ((m.core s.cid).ctx s.ctx).act.getD 64 = _
    rw [hcore]; rfl
  have hwin : State.win { s with m := m.onCore s.cid (Core.retiredWith s.key w) } = w := by
    rw [State.win, State.act, hkey]
    simp only [State.core, Module.core_onCore]
    exact congrArg (fun a : Act => a.win.getD {}) (Core.act_onAct (m.core s.cid) s.key fun a => { a with win := some w })
  refine ⟨⟨fun a => ?_, ?_, fun c hc => ?_, ?_, fun k hk => ?_, ?_, rfl, rfl, rfl⟩, ho, hwin⟩
  · rw [hrest]; rfl
  · rw [hrest]; rfl
  · exact (Module.core_onCore_other _ _ _ _ hc).trans (hother c hc)
  · rw [Module.core_onCore, hcore]; rfl
  · rw [Module.act, Module.core_onCore, hcore]
    exact Core.act_setAct_other _ _ _ _ hk
  · rw [hwin, Module.act, Module.core_onCore, hcore]
    exact Core.act_setAct ..

end Sys2Proof.Machine

namespace Sys2Proof.Claims
open Sys2Proof.Machine

/-- Settles O10: reads leave the registers as they are, and the last-use hints come after the last read. -/
theorem registerOperandsRead : Obligations.RegisterOperandsRead := fun s l dst vs hd h => by
  obtain ⟨t, ht, ho⟩ := operands_readOnly hd h
  have hk := killAll_eq t.win l
  refine ⟨_, ho, by rw [State.win_setWin], fun k => ?_, ?_, fun k hlt => ?_, ?_, ?_, ?_⟩ <;> rw [State.win_setWin]
  · rw [hk, Win.gr, ht.g]; rfl
  · rw [hk, ht.v]
  · rw [live_killAll _ _ hlt, Win.live, ht.ctl]; rfl
  · rw [hk, ht.ctl]
  · rw [hk, ht.ctl]
  · rw [hk, ht.ctl]

/-- Settles O11: queue entries by the order of their list, link words by the room of the buffer they go to. -/
theorem queueAndLinkOperands : Obligations.QueueAndLinkOperands := by
  refine ⟨fun s g u n v rest ho hl => by simp [readSrc, ho, hl]; rfl, fun s g u n v rest ho hl => by simp [readSrc, ho, hl]; rfl,
    fun s g v ho => by simp [writeDst, ho]; rfl, fun s left k u hl => ?_, fun s left u v rest hl => ?_, fun s right v => ?_⟩
  · have h : readSrc ⟨if left then 34#6 else 35#6, k, u⟩ s = popLink left k s := by cases left <;> simp [readSrc]
    rw [h, popLink_eq, hl]
  · have h : ∀ k, readSrc ⟨if left then 34#6 else 35#6, k, u⟩ s = popLink left k s := fun k => by cases left <;> simp [readSrc]
    simp only [h, popLink_eq, hl, if_true]
    refine ⟨rfl, fun hr => ?_, fun hr => ?_⟩
    · exact Run.bind_ok (by rw [sendLink_eq, if_neg (by omega)])
    · exact Run.bind_error (by rw [sendLink_eq, if_pos hr])
  · have h : writeDst (if right then 35#6 else 34#6) v s = sendLink right v s := by cases right <;> simp [writeDst]
    rw [h, sendLink_eq]
    exact ⟨fun hr => if_neg (by omega), fun hr => if_pos hr⟩

/-- Settles O12, from the window that a register write leaves. -/
theorem destinationWritten : Obligations.DestinationWritten :=
  ⟨fun s a v h => ⟨_, writeDst_reg h v, by rw [State.win_setWin], by rw [State.win_setWin, Win.gr_setG_same],
    by rw [State.win_setWin, Win.live_setG _ _ _ _ h, if_pos rfl],
    fun k hk => by rw [State.win_setWin, Win.gr_setG_other _ _ _ hk],
    fun k hlt hk => by rw [State.win_setWin, Win.live_setG _ _ _ _ hlt, if_neg hk]⟩, writeDst_z⟩

/-- Settles O13. -/
theorem integerArithmeticResult : Obligations.IntegerArithmeticResult := fun _ _ h => completes_of_means (arithRow_means h)

/-- Settles O14. -/
theorem logicAndShiftResult : Obligations.LogicAndShiftResult := fun _ _ h => completes_of_means (logicRow_means h)

/-- Settles O15. -/
theorem countSelectAndMoveResult : Obligations.CountSelectAndMoveResult :=
  ⟨fun _ _ h => completes_of_means (countRow_means h), fun _ _ _ h => completes_of_means (moveRow_means h)⟩

/-- Settles O16: reading and writing registers leaves a begun state that differs in its window alone, and so does its commit. -/
theorem integerRegisterForms : Obligations.IntegerRegisterForms := fun i r s vs hwf hi hr ho hss hv hd => by
  have hpc : s.begun.win.ctl.pc = seqNext (s.hc s.win.ctl.pc) s.win.ctl.pc := by rw [State.begun_win]
  have hb : s.begun.win = { s.win with ctl := { s.win.ctl with pc := s.begun.win.ctl.pc } } := by rw [hpc, State.begun_win]
  have hv' : r.srcs.map (fun o => plainValue s.begun.win o.code) = vs.map some := by rw [hb]; exact hv
  obtain ⟨t, ht, hop⟩ := operands_readOnly (dst := some r.dst) (fun d h => Option.some.inj h ▸ hd) hv'
  have hk := killAll_eq t.win r.srcs
  obtain ⟨w, hw, hctl, hregv, hgr, hrest⟩ := writeDst_plain (s := s.begun) (w := killAll t.win r.srcs) (v := r.val vs) hd
  obtain ⟨hpc', hsw', hlv'⟩ := hctl
  obtain ⟨hsame, hopen, hwin⟩ := State.retire_setWin w hr ho hss
  refine ⟨_, (intRow_means hi s).trans (run_retires hr _ ((Run.bind_ok hop).trans hw)), hsame, hopen, ?_, ?_, ?_, ?_, ?_, fun k hlt hne => ?_⟩ <;>
    rw [hwin]
  · rw [hpc', hk, ht.ctl, hpc]
  · rw [hsw', hk, ht.ctl, hb]
  · rw [hregv, hk, ht.v, hb]
  · rw [hlv', hk, ht.ctl, hb]
  · exact hgr
  · obtain ⟨h1, h2⟩ := hrest k hlt hne
    rw [h1, h2, live_killAll _ _ hlt, hk, Win.gr, ht.g, Win.live, ht.ctl, hb]
    exact ⟨rfl, rfl⟩

/-- Settles O17: the roles are checked first, then dead registers; a body that faults delivers its fault alone. -/
theorem operandFaults : Obligations.OperandFaults := by
  refine ⟨fun s l dst o ho h => operands_badopnd (.inl ⟨o, ho, ?_⟩),
    fun s l u a h => operands_badopnd (.inr ⟨_, rfl, dstBad_of_high h⟩),
    fun s l dst o hl hd ho hn hdead => operands_deadreg hl hd ho hn hdead,
    fun i r s f hi hr ho => (intRow_means hi s).trans (run_faults hr _ (Run.bind_error ho))⟩
  rcases h with h | ⟨ha, hp⟩
  · exact srcBad_of_high h
  · exact srcBad_of_addr ha hp

end Sys2Proof.Claims
end

section
/-!
PROOFS. Operations on the module one at a time, and the accesses that an instruction makes to the own LM (R85, R90, R168, R439).
-/
namespace Sys2Proof.Machine
open Sys2Proof.Claims

variable {α β : Type}

@[simp] theorem MM.pure_run (a : α) (m : Module) : (pure a : MM α) m = .ok (a, m) := Eq.trans rfl rfl
@[simp] theorem MM.get_bind (f : Module → MM β) (m : Module) : ((get : MM Module) >>= f) m = f m m := MM.bind_ok rfl
@[simp] theorem MM.pure_bind' (a : α) (f : α → MM β) (m : Module) : ((pure a : MM α) >>= f) m = f a m := MM.bind_ok rfl
@[simp] theorem MM.upd_bind (g : Module → Module) (f : Unit → MM β) (m : Module) : (MM.upd g >>= f) m = f () (g m) := MM.bind_ok rfl
@[simp] theorem MM.upd_run (g : Module → Module) (m : Module) : MM.upd g m = .ok ((), g m) := Eq.trans rfl rfl
@[simp] theorem MM.stopIf_false (c : Cause) (a : Nat) (f : Unit → MM β) (m : Module) : (MM.stopIf false c a >>= f) m = f () m :=
  MM.bind_ok rfl
@[simp] theorem MM.stopIf_true (c : Cause) (a : Nat) (f : Unit → MM β) (m : Module) :
    (MM.stopIf true c a >>= f) m = .error (.fault { cause := c, addr := BitVec.ofNat 64 a }) := MM.bind_error rfl
@[simp] theorem MM.raise_run (c : Cause) (a : Nat) (m : Module) :
    (MM.raise c a : MM α) m = .error (.fault { cause := c, addr := BitVec.ofNat 64 a }) := Eq.trans rfl rfl
@[simp] theorem MM.stall_run (m : Module) : (MM.stall : MM α) m = .error .stall := Eq.trans rfl rfl
@[simp] theorem MM.fault_run (f : FInfo) (m : Module) : (MM.fault f : MM α) m = .error (.fault f) := Eq.trans rfl rfl

/-! ## The LPCT under changes of sites -/

theorem Module.pid_onSite (m : Module) (i cid : Nat) (f : Site → Site) (h : ∀ x, (f x).lpct = x.lpct) :
    (m.onSite i f).pid cid = m.pid cid := by
  have hl : ((m.onSite i f).site (siteOf cid)).lpct = (m.site (siteOf cid)).lpct := by
    by_cases hi : siteOf cid = i
    · subst hi; rw [Module.site_onSite, h]
    · rw [Module.site_onSite_other _ _ _ _ hi]
  unfold Module.pid Module.lpct
  rw [hl]

/-- What every step of a fold keeps, the fold keeps. -/
theorem foldl_keeps {γ : Type} (f : α → γ) (g : α → β → α) (h : ∀ a b, f (g a b) = f a) (l : List β) (a : α) :
    f (l.foldl g a) = f a := by
  induction l generalizing a with
  | nil => rfl
  | cons b l ih => rw [List.foldl_cons, ih, h]

/-! ## Errors found by a read (R90) -/

/-- A read that finds errors counts and quarantines; memory, cores and the LPCT stay. -/
theorem Module.wordLost_keeps (m : Module) (loc : Nat) :
    (m.wordLost loc).mem = m.mem ∧ (m.wordLost loc).cores = m.cores ∧ (m.wordLost loc).bwait = m.bwait ∧
      ∀ cid, (m.wordLost loc).pid cid = m.pid cid := by
  unfold Module.wordLost
  extract_lets m1 m2
  have hpid : ∀ cid, m2.pid cid = m.pid cid := fun cid => Module.pid_onSite _ _ _ _ fun _ => rfl
  split
  · split
    · exact ⟨rfl, rfl, rfl, hpid⟩
    · exact ⟨rfl, rfl, rfl, hpid⟩
  · exact ⟨rfl, rfl, rfl, hpid⟩

theorem Module.inspect_keeps (m : Module) (loc n : Nat) :
    (m.inspect loc n).mem = m.mem ∧ (m.inspect loc n).cores = m.cores ∧ (m.inspect loc n).bwait = m.bwait ∧
      ∀ cid, (m.inspect loc n).pid cid = m.pid cid := by
  let step (m : Module) (u : Nat × Bool) : Module :=
    if u.2 then m.wordLost u.1 else m.onSite (siteOfWord u.1) fun x => { x with errC := x.errC + 1 }
  have hs : ∀ (m : Module) (u : Nat × Bool), (step m u).mem = m.mem ∧ (step m u).cores = m.cores ∧ (step m u).bwait = m.bwait ∧
      ∀ cid, (step m u).pid cid = m.pid cid :=
    fun m u => by
      by_cases hu : u.2 = true
      · simpa only [step, if_pos hu] using m.wordLost_keeps u.1
      · simp only [step, if_neg hu]
        exact ⟨rfl, rfl, rfl, fun cid => Module.pid_onSite _ _ _ _ fun _ => rfl⟩
  exact ⟨foldl_keeps Module.mem step (fun m u => (hs m u).1) _ _, foldl_keeps Module.cores step (fun m u => (hs m u).2.1) _ _,
    foldl_keeps Module.bwait step (fun m u => (hs m u).2.2.1) _ _, fun cid => foldl_keeps (Module.pid · cid) step (fun m u => (hs m u).2.2.2 cid) _ _⟩

@[simp] theorem Module.inspect_mem (m : Module) (loc n : Nat) : (m.inspect loc n).mem = m.mem := (m.inspect_keeps loc n).1
@[simp] theorem Module.inspect_cores (m : Module) (loc n : Nat) : (m.inspect loc n).cores = m.cores := (m.inspect_keeps loc n).2.1
@[simp] theorem Module.inspect_pid (m : Module) (loc n cid : Nat) : (m.inspect loc n).pid cid = m.pid cid :=
  (m.inspect_keeps loc n).2.2.2 cid
@[simp] theorem Module.inspect_bwait (m : Module) (loc n : Nat) : (m.inspect loc n).bwait = m.bwait := (m.inspect_keeps loc n).2.2.1

/-- What a read of LM gives depends on memory, the cores and the LPCT. -/
theorem Module.lmRead_congr {m m' : Module} (hm : m'.mem = m.mem) (hc : m'.cores = m.cores) {cid : Nat} (hp : m'.pid cid = m.pid cid)
    (off n : Nat) : m'.lmRead cid off n = m.lmRead cid off n := by
  unfold Module.lmRead Module.lmByte Module.core Module.lmAt
  rw [hm, hc, hp]

/-! ## Accesses to the own LM -/

/-- An access of a core to bytes of its own LM: inside one 64-byte line, refused by no guard, in a FULL bank that works. -/
structure LmOk (m : Module) (cid off n : Nat) (k : LmAcc) (super : Bool) : Prop where
  fits : off < 2 ^ 19 ∧ 0 < n ∧ off % 64 + n ≤ 64
  guard : super = true ∨ m.lmGuard cid cid off n k = false
  full : (m.phy (m.pid cid)).bank (off / 0x8000) = 0
  works : bit (m.phy (m.pid cid)).failed (off / 0x8000) = false

theorem lmOk_of_local {s : State} {off n : Nat} {k : LmAcc} (h : LocalOk s off n k) : LmOk s.m s.cid off n k s.super :=
  ⟨h.fits, h.guard, h.full, h.works⟩

/-- A range inside a 64-byte line lies in one bank. -/
theorem banksOf_line {off n : Nat} (h : 0 < n ∧ off % 64 + n ≤ 64) : banksOf off n = [off / 0x8000] := by
  have h1 : (off + n - 1) / 0x8000 = off / 0x8000 := by omega
  rw [banksOf, h1, Nat.add_sub_cancel_left]
  rfl

/-- The module after an access to a FULL bank has looked at it. -/
def Module.lmSeen (m : Module) (cid : Nat) : Module := m.setPhy (m.pid cid) (m.phy (m.pid cid))

@[simp] theorem Module.lmSeen_pid (m : Module) (cid c : Nat) : (m.lmSeen cid).pid c = m.pid c := rfl

theorem touchLm_full {m : Module} {cid off n : Nat} {k : LmAcc} {super : Bool} (h : LmOk m cid off n k super) :
    m.touchLm cid off n = .ok (m.phy (m.pid cid)) := by
  rw [Module.touchLm, banksOf_line h.fits.2, Phys.touchAll, Phys.touch, h.works, h.full]
  rfl

/-- The checks of a write pass. -/
theorem lmCheck_write {m : Module} {cid off n : Nat} {super : Bool} (h : LmOk m cid off n .write super) (va : Nat) :
    lmCheck cid cid off n .write super va m = .ok ((), m.lmSeen cid) := by
  have hg : (!super && m.lmGuard cid cid off n .write) = false := by rcases h.guard with h | h <;> simp [h]
  rw [lmCheck, MM.get_bind, hg, MM.stopIf_false, touchLm_full h]
  rfl

/-- A read passes the checks too, where no word of it is uncorrectable, and finds what has struck its words; otherwise it raises
UNCORR. -/
theorem lmCheck_read {m : Module} {cid off n : Nat} {k : LmAcc} {super : Bool} (h : LmOk m cid off n k super) (hk : k ≠ .write) (va : Nat) :
    lmCheck cid cid off n k super va m = if m.badNow (m.lmAt cid off) n then
      .error (.fault { cause := .uncorr, addr := BitVec.ofNat 64 va, side := [.found (m.lmAt cid off) n] })
    else .ok ((), (m.lmSeen cid).inspect (m.lmAt cid off) n) := by
  have hg : (!super && m.lmGuard cid cid off n k) = false := by rcases h.guard with h | h <;> simp [h]
  have hr : readWords (m.lmAt cid off) n va (m.lmSeen cid) = if m.badNow (m.lmAt cid off) n then
      .error (.fault { cause := .uncorr, addr := BitVec.ofNat 64 va, side := [.found (m.lmAt cid off) n] })
    else .ok ((), (m.lmSeen cid).inspect (m.lmAt cid off) n) := by
    have hb : (m.lmSeen cid).badNow (m.lmAt cid off) n = m.badNow (m.lmAt cid off) n := rfl
    rw [readWords, MM.get_bind, hb]
    split
    · exact MM.fault_run ..
    · exact MM.upd_run ..
  rw [lmCheck, MM.get_bind, hg, MM.stopIf_false, touchLm_full h, ← hr]
  exact (MM.upd_bind ..).trans (by rw [if_pos hk]; rfl)

theorem windowOf_local {a : Nat} (h : a < 2 ^ 19) : windowOf a = some (.local_, a) := by rw [windowOf, if_pos h]
theorem Module.target_local (m : Module) (cid : Nat) {a : Nat} (h : a < 2 ^ 19) : m.target cid a = .lm cid a := by
  rw [Module.target, windowOf_local h]

/-- A line of the own LM that may be fetched and holds no uncorrectable word is fetched as it stands. -/
theorem fetchLine_local {m : Module} {cid base : Nat} {super : Bool} (h : LmOk m cid base 64 .fetch super)
    (hb : m.badNow (m.lmAt cid base) 64 = false) (aid : Nat) :
    fetchLine cid aid base super m = .ok (m.lmRead cid base 64, (m.lmSeen cid).inspect (m.lmAt cid base) 64) := by
  have hc : lmCheck cid cid base 64 .fetch super base m = .ok ((), (m.lmSeen cid).inspect (m.lmAt cid base) 64) := by
    rw [lmCheck_read h (by decide), hb]; rfl
  have hr : ((m.lmSeen cid).inspect (m.lmAt cid base) 64).lmRead cid base 64 = m.lmRead cid base 64 :=
    Module.lmRead_congr (by simp [Module.lmSeen]) (by simp [Module.lmSeen]) (by simp) ..
  simp only [fetchLine, MM.get_bind, windowOf_local h.fits.1, Module.target_local _ _ h.fits.1, if_true, MM.bind_ok hc, MM.pure_run, hr]

/-! ## The line of an address -/

theorem lineFor_hit {m : Module} {cid k who : Nat} {pc : Word} {b : List Byte} (super : Bool)
    (h : ((m.core cid).ctx k).line = some ⟨pc.toNat / 64 * 64, b, who⟩) : lineFor cid k pc super m = .ok (b, m) := by
  simp [lineFor, h]

theorem lineFor_miss {m m' : Module} {cid k : Nat} {pc : Word} {b : List Byte} {super : Bool}
    (h : ((m.core cid).ctx k).line = none) (hf : fetchLine cid (m.ctxAid cid k) (pc.toNat / 64 * 64) super m = .ok (b, m')) :
    lineFor cid k pc super m = .ok (b, m'.fillBuffer cid k (pc.toNat / 64 * 64) b) := by
  simp [lineFor, h, MM.bind_ok hf]
  rfl

/-- The code at an address of a line that holds it, or the cause that the line gives the address. -/
theorem codeAt_of_line {m m' : Module} {cid k : Nat} {pc : Word} {b : List Byte} {super : Bool} (h : lineFor cid k pc super m = .ok (b, m')) :
    codeAt cid k pc super m = match addrBad b pc with
      | some c => .error (.fault { cause := c, addr := pc })
      | none => .ok (lineCode b (slotOfPc pc), m') := by
  rw [codeAt, MM.bind_ok (a := b) (n := m') (by rw [h])]
  cases addrBad b pc <;> rfl

end Sys2Proof.Machine
end

section
/-!
PROOFS. One step of the module (R68, R97–R106, R132): the context whose turn it is runs what stands at its PC; the agenda names who moves;
the rotation passes over those that do not dispatch.
-/
namespace Sys2Proof.Machine
open Sys2Proof.Claims

/-! ## The turn of a context -/

/-- Outside the agenda's entries a step is a turn of the context that moves. -/
theorem step_eq_turn {s : State} (h : s.open_.isSome = true ∨ s.agenda = []) : step s = State.turn (moving s) := by
  unfold step moving
  by_cases ho : s.open_.isSome = true
  · rw [if_pos ho, if_pos ho]
  · have ha : s.agenda = [] := h.resolve_left ho
    rw [if_neg ho, if_neg ho, ha]
    simp only [settled]
    rw [ha]

/-- A context that is to issue does what it finds at its PC. -/
theorem turn_ready {t : State} {key : Nat} (h : Ready t key) :
    State.turn t = match t.fetched with
      | .instr i m => exec i { t with m := m }
      | .stop e => run (fun _ => .error e) t := by
  have hp : (if t.open_.isNone = true then t.m.preflight t.cid key else none) = none := by
    cases ho : t.open_ with
    | none => exact h.nothing ho
    | some g => rfl
  unfold State.turn
  rw [h.act]
  simp only [h.issues, h.win, hp]
  rfl

theorem turn_runs {t : State} {key : Nat} {i : Instr} {b : List Byte} {m : Module} (h : Ready t key)
    (hl : lineFor t.cid t.ctx t.win.ctl.pc t.super t.m = .ok (b, m)) (hb : addrBad b t.win.ctl.pc = none)
    (hd : decodeAt b (slotOfPc t.win.ctl.pc) = some i) : State.turn t = exec i { t with m := m } := by
  have hf : t.fetched = .instr i m := by
    rw [decodeAt] at hd
    simp only [State.fetched, codeAt_of_line hl, hb, hd]
  rw [turn_ready h, hf]

/-- A context that finds nothing to run takes the fault of what it finds. -/
theorem turn_faults {t : State} {key : Nat} {f : FInfo} (h : Ready t key) (hr : t.Running) (hf : t.fetched = .stop (.fault f)) :
    State.turn t = .next (t.faulted f) := by
  rw [turn_ready h, hf]
  exact run_faults hr _ rfl

theorem fetched_addrBad {t : State} {b : List Byte} {m : Module} {c : Cause}
    (hl : lineFor t.cid t.ctx t.win.ctl.pc t.super t.m = .ok (b, m)) (hb : addrBad b t.win.ctl.pc = some c) :
    t.fetched = .stop (.fault { cause := c, addr := t.win.ctl.pc }) := by
  simp only [State.fetched, codeAt_of_line hl, hb]

theorem fetched_undecoded {t : State} {b : List Byte} {m : Module}
    (hl : lineFor t.cid t.ctx t.win.ctl.pc t.super t.m = .ok (b, m)) (hb : addrBad b t.win.ctl.pc = none)
    (hd : decodeAt b (slotOfPc t.win.ctl.pc) = none) : t.fetched = .stop (.fault { cause := .illop }) :=
  State.fetched_reserved (c := lineCode b (slotOfPc t.win.ctl.pc)) (m := m) (by rw [codeAt_of_line hl, hb]) hd

theorem addrBad_badline {b : List Byte} (h : lineOk b = false) (pc : Word) : addrBad b pc = some .badline := by simp [addrBad, h]
theorem addrBad_badtgt {b : List Byte} {pc : Word} (h : lineOk b = true)
    (hp : bit pc 0 = true ∨ slotOfPc pc = 0 ∨ lineHc b < slotOfPc pc) : addrBad b pc = some .badtgt := by
  simp [addrBad, h, or_assoc, hp]

/-! ## The rotation (R68) -/

/-- The first element before c that meets p, or else c: it stands in the list, and every element before it fails p. -/
theorem find?_takeWhile_spec {l : List Nat} {c : Nat} (p : Nat → Bool) (hc : c ∈ l) :
    (((l.takeWhile (· ≠ c)).find? p).getD c = c ∨ p (((l.takeWhile (· ≠ c)).find? p).getD c) = true) ∧
      ((l.takeWhile (· ≠ c)).find? p).getD c ∈ l ∧
      ∀ j ∈ l.takeWhile (· ≠ ((l.takeWhile (· ≠ c)).find? p).getD c), p j = false := by
  induction l with
  | nil => cases hc
  | cons x l ih =>
    by_cases hx : x = c
    · subst hx
      simp
    · have hcl : c ∈ l := (List.mem_cons.mp hc).resolve_left (Ne.symm hx)
      cases hp : p x
      case true => simp [hx, hp]
      case false =>
        obtain ⟨h1, h2, h3⟩ := ih hcl
        have hw : (((x :: l).takeWhile (· ≠ c)).find? p).getD c = ((l.takeWhile (· ≠ c)).find? p).getD c := by simp [hx, hp]
        rw [hw]
        refine ⟨h1, List.mem_cons_of_mem _ h2, fun j hj => ?_⟩
        rw [List.takeWhile_cons] at hj
        split at hj
        · rcases List.mem_cons.mp hj with rfl | hj
          · exact hp
          · exact h3 j hj
        · cases hj

/-- The order of the rotation from turn τ. -/
def rotation (turn : Nat) : List Nat := (upFrom (turn + 1) 4).map (· % 4)

theorem mem_rotation {turn k : Nat} : k ∈ rotation turn ↔ k < 4 := by
  simp only [rotation, upFrom, List.map_cons, List.map_nil, List.mem_cons, List.not_mem_nil, or_false]
  omega

/-- The contexts before k in the rotation are those fewer turns behind. -/
theorem mem_rotation_before {turn j k : Nat} (hj : j < 4) (hk : k < 4) (h : (j + 3 - turn % 4) % 4 < (k + 3 - turn % 4) % 4) :
    j ∈ (rotation turn).takeWhile (· ≠ k) := by
  have hr : rotation turn = rotation (turn % 4) := by
    simp only [rotation, upFrom, List.map_cons, List.map_nil, List.cons.injEq, and_true]
    omega
  have hall : ∀ τ j k : Fin 4, (j.val + 3 - τ.val) % 4 < (k.val + 3 - τ.val) % 4 →
      j.val ∈ (rotation τ.val).takeWhile (fun x => decide (x ≠ k.val)) := by decide
  rw [hr]
  exact hall ⟨_, Nat.mod_lt _ (by decide)⟩ ⟨j, hj⟩ ⟨k, hk⟩ h

/-- The context that may dispatch in a cycle: the rotation passes over the others. -/
def State.eligible (t : State) (k : Nat) : Bool := t.dispatches State.turn k && !Config.scoreboard t.m.time t.cid k

theorem rotated_eq (t : State) :
    t.rotated State.turn = { t with ctx := (((rotation t.core.turn).takeWhile (· ≠ t.ctx)).find? t.eligible).getD t.ctx } := by
  unfold State.rotated rotation
  dsimp only
  show (match List.find? t.eligible _ with | some k => _ | none => _) = _
  split <;> rename_i h <;> rw [h] <;> rfl

/-! ## Creations that an error strikes (R42) -/

theorem State.creates_event_agenda (s : State) (a : List Move) (cid k : Nat) (f : Module → Option Module) :
    ({ s with agenda := a } : State).creates cid k (event f) = s.creates cid k (event f) := by
  simp only [State.creates, event]
  show (match (match f s.settled with | some m => _ | none => _ : Out) with | .next t => _ | _ => _) = _
  cases f s.settled <;> rfl

/-- Which creations are due does not depend on the agenda. -/
theorem State.creationLost_agenda (s : State) (a : List Move) (cid k b : Nat) :
    ({ s with agenda := a } : State).creationLost cid k b = s.creationLost cid k b := by
  have hd : ({ s with agenda := a } : State).creationDue cid k = s.creationDue cid k := by
    have h : ∀ f, ({ s with agenda := a } : State).creates cid k (event f) = s.creates cid k (event f) :=
      State.creates_event_agenda s a cid k
    have hstart : ({ s with agenda := a } : State).creates cid k (execTaskStart cid) = s.creates cid k (execTaskStart cid) := h _
    have hrange : ({ s with agenda := a } : State).creates cid k (execWorkRangeStart cid) = s.creates cid k (execWorkRangeStart cid) := h _
    have hsteal : ({ s with agenda := a } : State).creates cid k (execStealReply cid) = s.creates cid k (execStealReply cid) := h _
    have hhnd : ({ s with agenda := a } : State).creates cid k (execHandlerCreation cid) = s.creates cid k (execHandlerCreation cid) := h _
    have hmig : ∀ p, ({ s with agenda := a } : State).creates cid k (execMigrationPacket p) = s.creates cid k (execMigrationPacket p) :=
      fun p => h _
    simp only [State.creationDue, List.any_cons, List.any_nil, hstart, hrange, hsteal, hhnd, hmig]
  simp only [State.creationLost, hd]

end Sys2Proof.Machine

namespace Sys2Proof.Claims
open Sys2Proof.Machine

/-- Settles O4: the line of the PC is in the buffer, or is fetched from the own LM into it. -/
theorem stepRunsDecoded : Obligations.StepRunsDecoded := by
  refine ⟨fun s t key who b i ht hr hs hl hb hd => ?_, fun s t key base i ht hr hs hl hbase hlt hg hfull hworks hbad hb hd => ?_⟩
  · rw [step_eq_turn hs, ← ht]
    exact turn_runs hr (lineFor_hit _ hl) hb hd
  · rw [step_eq_turn hs, ← ht]
    subst hbase
    have hok : LmOk t.m t.cid (t.win.ctl.pc.toNat / 64 * 64) 64 .fetch t.super := ⟨⟨hlt, by decide, by omega⟩, hg, hfull, hworks⟩
    exact turn_runs hr (lineFor_miss hl (fetchLine_local hok hbad _)) hb hd

/-- Settles O5: the line gives the address its cause, or its code decodes to nothing. -/
theorem stepRaisesAtBadAddress : Obligations.StepRaisesAtBadAddress := fun s t key who b ht hr hrun hs hl => by
  rw [step_eq_turn hs, ← ht]
  have hline := lineFor_hit t.super hl
  exact ⟨fun hb => turn_faults hr hrun (fetched_addrBad hline (addrBad_badline hb _)),
    fun hb hp => turn_faults hr hrun (fetched_addrBad hline (addrBad_badtgt hb hp)),
    fun hb hd => turn_faults hr hrun (fetched_undecoded hline hb hd)⟩

/-- Settles O6: the first entry of the agenda decides; the rotation takes the first eligible context, at the latest the focused one. -/
theorem stepFollowsAgenda : Obligations.StepFollowsAgenda := by
  refine ⟨fun s t rest ho ht => ?_, fun t ht => ?_⟩
  · have hs : s.open_.isSome = false := by rw [ho]; rfl
    subst ht
    refine ⟨fun i ha he => ?_, fun c k ha => ?_, fun n ha => ?_, fun x hard ha => ?_, fun c k b ha => ?_, fun pa bs ha => ?_,
      fun h ha => ?_, fun ha => ?_, fun hc => ?_⟩
    case refine_9 => unfold State.turn; rw [hc]; rfl
    case refine_1 => simp [step, hs, ha, he, settled]
    all_goals simp [step, hs, ha, settled, State.tick]
    · rw [← State.creationLost_agenda _ rest]
  · have hmem : t.ctx ∈ rotation t.core.turn := mem_rotation.mpr ht
    obtain ⟨h1, h2, h3⟩ := find?_takeWhile_spec t.eligible hmem
    refine ⟨_, mem_rotation.mp h2, rotated_eq t, h1.imp_right fun h => ?_, fun j hj hlt => ?_⟩
    · simpa [State.eligible] using h
    · have := h3 j (mem_rotation_before hj (mem_rotation.mp h2) hlt)
      simpa [State.eligible, imp_iff_not_or] using this

end Sys2Proof.Claims
end

section
/-!
PROOFS. Scalar floating point (R94, R148, R423–R427): every instruction reads its operands, takes its rounding mode, ORs its flags and
writes its result.
-/
namespace Sys2Proof.Machine
open Sys2Proof.Claims

/-- A rounding field taken by a body: RSH takes the counter and advances it. -/
theorem takeMode_run (rm : Nat) (s : State) :
    takeMode rm s = .ok (((taken s (some rm)).1, (taken s (some rm)).2.1), (taken s (some rm)).2.2) := by
  rw [takeMode, Run.get_bind]
  have he : effMode rm s.sw = modeOf rm s.sw := rfl
  rw [he]
  unfold taken
  by_cases h : modeOf rm s.sw = 4
  · simp only [h, if_true]; rfl
  · simp only [h, if_false]; rfl

end Sys2Proof.Machine

namespace Sys2Proof.Claims
open Sys2Proof.Machine

/-- Settles O18: one case for each instruction, all by the same run of operands, mode, flags and destination. -/
theorem floatResult : Obligations.FloatResult := by
  refine ⟨fun i r s s1 s3 l h hr ho hw => ?_, fun i r h => ?_⟩
  · unfold fpRow at h
    split at h <;> cases h
    case h_7 => exact execFcmp_retires hr ho hw
    all_goals exact run_retires hr _ ((Run.bind_ok ho).trans ((Run.bind_ok (takeMode_run ..)).trans ((orFlags_bind ..).trans hw)))
  · unfold fpPickRow at h
    split at h <;> cases h <;> exact completes_of_means fun s => rfl

end Sys2Proof.Claims
end

section
/-!
PROOFS. Loads and stores (R2, R30, R85, R90, R222, R438–R441, R479, R480): what the accesses of an instruction answer, and the bytes that
a store to the own LM changes.
-/
namespace Sys2Proof.Machine
open Sys2Proof.Claims

/-! ## Bodies with memory -/

@[simp] theorem noteWrite_run (s : State) : noteWrite s = .ok ((), noted s) := rfl
@[simp] theorem noteWrite_bind {β : Type} (f : Unit → Run β) (s : State) : (noteWrite >>= f) s = f () (noted s) := Run.bind_ok rfl

theorem loadInto_run {a : Opnd} {va : Word} {size : BitVec 2} {sx : Bool} {s t : State} {bs : List Byte} {m' : Module}
    (hl : memLoad s.cid s.ctx va.toNat (2 ^ size.toNat) s.super s.m = .ok (bs, m'))
    (hw : writeDst a (loaded size sx bs) { s with m := m' } = .ok ((), t)) : loadInto a va size sx s = .ok ((), t) :=
  (Run.get_bind ..).trans ((Run.lift_ok hl).trans hw)

theorem storeFrom_run {d va : Word} {size : BitVec 2} {s : State} {m' : Module}
    (hs : memStore s.cid s.ctx va.toNat (leBytes (2 ^ size.toNat) d.toNat) s.super s.m = .ok ((), m')) :
    storeFrom d va size s = .ok ((), noted { s with m := m' }) :=
  (Run.get_bind ..).trans ((Run.lift_ok hs).trans (noteWrite_run _))

theorem opWidth_bytes (dw : Bool) : opWidth dw / 8 = if dw then 8 else 4 := by cases dw <;> rfl

theorem reserve_run {a : Opnd} {va : Word} {dw : Bool} {s t : State} {v : Nat} {r : Resv} {m' : Module}
    (hl : ldrsAt s.cid s.ctx va.toNat (if dw then 8 else 4) s.super s.m = .ok ((v, r), m'))
    (hw : writeDst a (BitVec.ofNat 64 v) (reserving { s with m := m' } (some r)) = .ok ((), t)) : reserve a va dw s = .ok ((), t) := by
  rw [← opWidth_bytes] at hl
  exact (Run.get_bind ..).trans ((Run.lift_ok hl).trans ((Run.onCore_bind ..).trans hw))

/-! ## Bytes of a store -/

theorem mergeByte_whole (old new : Byte) : mergeByte old new 0xFF = new := by
  show (new &&& BitVec.allOnes 8) ||| (old &&& ~~~ BitVec.allOnes 8) = new
  rw [BitVec.and_allOnes, BitVec.not_allOnes, BitVec.and_zero, BitVec.or_zero]

/-- A merge under masks that let every byte through gives the data. -/
theorem merge_whole {w : Nat → Nat} {old bs : List Byte} {off n : Nat} (hn : bs.length = n) (ho : old.length = n)
    (hw : ∀ o, off ≤ o → o < off + n → w o = 0xFF) :
    ((upFrom off n).zip (old.zip bs)).map (fun x => mergeByte x.2.1 x.2.2 (w x.1)) = bs := by
  induction n generalizing off old bs with
  | zero => rw [List.length_eq_zero_iff.mp hn]; rfl
  | succ n ih =>
    cases bs with
    | nil => simp at hn
    | cons b bs =>
      cases old with
      | nil => simp at ho
      | cons o old =>
        have hrest := ih (off := off + 1) (old := old) (bs := bs) (by simpa using hn) (by simpa using ho)
          fun o h1 h2 => hw o (by omega) (by omega)
        simp only [upFrom, List.zip_cons_cons, List.map_cons, hrest, hw off le_rfl (by omega), mergeByte_whole]

theorem lmRead_length (m : Module) (cid off n : Nat) : (m.lmRead cid off n).length = n := by
  rw [Module.lmRead, List.length_map, upFrom_eq_map, List.length_map, List.length_range]

theorem merged_length (m : Module) (cid off : Nat) (bs : List Byte) (w : Nat → Nat) :
    (((upFrom off bs.length).zip ((m.lmRead cid off bs.length).zip bs)).map fun (o, ob, nb) => mergeByte ob nb (w o)).length = bs.length := by
  simp [lmRead_length, upFrom_eq_map]

/-! ## Stores that nobody watches -/

/-- A module in which bytes have been written that nobody watches. -/
def Module.stored (m : Module) (loc : Nat) (bs : List Byte) : Module :=
  { m with mem := Mem.write m.mem loc bs, quar := clearQuar m.quar loc bs.length, upsets := clearUpset m.upsets loc bs.length
           cores := m.cores.map fun e => (e.1, e.2.dropResv loc bs.length) }

theorem Tab.mem_put {α : Type} {t : Tab α} {i : Nat} {v : α} {e : Nat × α} (h : e ∈ Tab.put t i v) : e ∈ t ∨ e = (i, v) := by
  induction t with
  | nil => exact .inr (List.mem_singleton.mp h)
  | cons x t ih =>
    rw [Tab.put] at h
    split at h
    · rcases List.mem_cons.mp h with h | h
      · exact .inr h
      · exact .inl h
    · split at h
      · rcases List.mem_cons.mp h with h | h
        · exact .inr h
        · exact .inl (List.mem_cons_of_mem _ h)
      · rcases List.mem_cons.mp h with h | h
        · exact .inl (h ▸ List.mem_cons_self ..)
        · exact (ih h).imp_left (List.mem_cons_of_mem _)

theorem Tab.get_mem {α : Type} (d : α) (t : Tab α) (i : Nat) : (i, Tab.get d t i) ∈ t ∨ Tab.get d t i = d := by
  induction t with
  | nil => exact .inr rfl
  | cons x t ih =>
    obtain ⟨k, v⟩ := x
    rw [Tab.get]
    split
    next h => exact .inl (h ▸ List.mem_cons_self ..)
    next => exact ih.imp_left (List.mem_cons_of_mem _)

theorem watched_eq_nil_iff {m : Module} {loc n : Nat} :
    m.watched loc n = [] ↔ ∀ e ∈ m.cores, ∀ o ∈ e.2.mons, meet o.line 64 loc n = false := by
  simp [Module.watched, List.flatMap_eq_nil_iff, List.filter_eq_nil_iff]

/-- What is no monitor of a core does not matter to who watches. -/
theorem watched_onCore {m : Module} {loc n cid : Nat} {f : Core → Core} (hf : ∀ c, (f c).mons = c.mons) (h : m.watched loc n = []) :
    (m.onCore cid f).watched loc n = [] := by
  rw [watched_eq_nil_iff] at h ⊢
  intro e he o ho
  rcases Tab.mem_put he with he | rfl
  · exact h e he o ho
  · rw [hf] at ho
    rcases Tab.get_mem {} m.cores cid with hc | hc
    · exact h _ hc o ho
    · rw [Module.core, hc] at ho
      cases ho

theorem noteLines_unwatched {m : Module} {loc n : Nat} (h : m.watched loc n = []) :
    m.noteLines loc n = { m with cores := m.cores.map fun e => (e.1, e.2.dropResv loc n) } := by rw [Module.noteLines, h]; rfl

theorem noteBars_unwatched {m : Module} {loc n : Nat} (h : (m.bwait.filter fun w => meet w.loc 32 loc n) = []) :
    m.noteBars loc n = m := by
  have hk : (m.bwait.filter fun w => !meet w.loc 32 loc n) = m.bwait :=
    List.filter_eq_self.mpr fun w hw => by simpa using List.filter_eq_nil_iff.mp h w hw
  have hp : (m.bwait.partition fun w => meet w.loc 32 loc n) = ([], m.bwait) := by
    rw [List.partition_eq_filter_filter, h]
    exact congrArg _ hk
  rw [Module.noteBars, hp]
  rfl

theorem putBytes_unwatched {m : Module} {loc : Nat} {bs : List Byte} (h : Unwatched m loc bs.length) (bar : Bool) :
    m.putBytes loc bs bar = m.stored loc bs := by
  have hn := noteLines_unwatched (m := { m with mem := Mem.write m.mem loc bs, quar := clearQuar m.quar loc bs.length
                                                upsets := clearUpset m.upsets loc bs.length }) (loc := loc) (n := bs.length) h.1
  unfold Module.putBytes
  dsimp only
  rw [hn]
  split
  · rfl
  · exact noteBars_unwatched h.2

/-- A value of a table that a function has changed throughout. -/
theorem Tab.get_map {α β : Type} {d : α} {e : β} (f : α → β) (h : f d = e) (t : Tab α) (i : Nat) :
    Tab.get e (t.map fun x => (x.1, f x.2)) i = f (Tab.get d t i) := by
  induction t with
  | nil => exact h.symm
  | cons x t ih =>
    obtain ⟨k, v⟩ := x
    simp only [List.map_cons, Tab.get, ih]
    split <;> rfl

/-- A core of such a module. -/
theorem core_stored (m : Module) (loc : Nat) (bs : List Byte) (c : Nat) :
    (m.stored loc bs).core c = (m.core c).dropResv loc bs.length := by
  exact Tab.get_map (d := ({} : Core)) (e := ({} : Core)) (fun x => x.dropResv loc bs.length) rfl m.cores c

@[simp] theorem stored_mem (m : Module) (loc : Nat) (bs : List Byte) : (m.stored loc bs).mem = Mem.write m.mem loc bs := rfl
@[simp] theorem stored_pid (m : Module) (loc : Nat) (bs : List Byte) (c : Nat) : (m.stored loc bs).pid c = m.pid c := rfl
@[simp] theorem stored_lmAt (m : Module) (loc : Nat) (bs : List Byte) (c off : Nat) : (m.stored loc bs).lmAt c off = m.lmAt c off := rfl
@[simp] theorem stored_bwait (m : Module) (loc : Nat) (bs : List Byte) : (m.stored loc bs).bwait = m.bwait := rfl

/-- A store of LM that nobody watches changes no byte outside its range. -/
theorem lmStore_other {m : Module} {cid off : Nat} {bs : List Byte} (h : Unwatched m (m.lmAt cid off) bs.length) (bar : Bool) {a : Nat}
    (ha : a < m.lmAt cid off ∨ m.lmAt cid off + bs.length ≤ a) : Mem.get (m.lmStore cid off bs bar).mem a = Mem.get m.mem a := by
  unfold Module.lmStore
  extract_lets c n old bs' cur new
  have hlen : bs'.length = bs.length := merged_length ..
  split
  · have hw : (m.onCore cid fun c => { c with desc := c.desc.store (leNat new) }).watched (m.lmAt cid off) n = [] :=
      watched_onCore (fun _ => rfl) h.1
    rw [noteLines_unwatched hw, noteBars_unwatched (by exact h.2)]
    rfl
  · rw [putBytes_unwatched (by rw [hlen]; exact h)]
    exact Mem.get_write_other _ _ _ _ (by rw [hlen]; exact ha)

/-- Where every byte may be written, it stores the data whole. -/
theorem lmStore_whole {m : Module} {cid off : Nat} {bs : List Byte} (h : Unwatched m (m.lmAt cid off) bs.length)
    (hw : ∀ o, off ≤ o → o < off + bs.length → (m.core cid).writable o = 0xFF) (hd : meet off bs.length 0x7F800 8 = false) (bar : Bool) :
    m.lmStore cid off bs bar = m.stored (m.lmAt cid off) bs := by
  have hm : ((upFrom off bs.length).zip ((m.lmRead cid off bs.length).zip bs)).map
      (fun x => mergeByte x.2.1 x.2.2 ((m.core cid).writable x.1)) = bs := merge_whole rfl (lmRead_length ..) hw
  unfold Module.lmStore
  dsimp only
  rw [hd, if_neg (by decide)]
  exact (congrArg (m.putBytes (m.lmAt cid off) · bar) hm).trans (putBytes_unwatched h bar)

/-! ## Accesses to the own LM -/

theorem keyLm_self {m : Module} {cid : Nat} (h : m.reach (siteOf cid) (siteOf cid) = true) (va : Nat) :
    keyLm cid cid va m = .ok ((), m) := by
  simp [keyLm, h]
  rfl

theorem crossesLine_eq_false {va n : Nat} (h : va % 64 + n ≤ 64) : crossesLine va n = false := decide_eq_false (by omega)

variable {s : State} {off n : Nat}

theorem memLoad_local (h : LocalOk s off n .read) :
    memLoad s.cid s.ctx off n s.super s.m = lmLoad s.cid s.cid off n s.super off s.m := by
  rw [memLoad, crossesLine_eq_false h.fits.2.2, MM.stopIf_false, MM.get_bind, Module.target_local _ _ h.fits.1]
  simp only [loadAt, MM.get_bind, Module.target_local _ _ h.fits.1, MM.bind_ok (keyLm_self h.reach off)]

theorem memStore_local {bs : List Byte} (h : LocalOk s off bs.length .write) :
    memStore s.cid s.ctx off bs s.super s.m = .ok ((), (s.m.lmSeen s.cid).lmStore s.cid off bs) := by
  rw [memStore, crossesLine_eq_false h.fits.2.2, MM.stopIf_false, MM.get_bind, Module.target_local _ _ h.fits.1]
  simp only [storeAt, MM.get_bind, Module.target_local _ _ h.fits.1, MM.bind_ok (keyLm_self h.reach off), lmSave,
    MM.bind_ok (lmCheck_write (lmOk_of_local h) off), MM.upd_run]

theorem lmLoad_local (h : LocalOk s off n .read) (va : Nat) :
    lmLoad s.cid s.cid off n s.super va s.m = if s.m.badNow (s.m.lmAt s.cid off) n then
      .error (.fault { cause := .uncorr, addr := BitVec.ofNat 64 va, side := [.found (s.m.lmAt s.cid off) n] })
    else .ok (s.m.lmRead s.cid off n, (s.m.lmSeen s.cid).inspect (s.m.lmAt s.cid off) n) := by
  have hc := lmCheck_read (lmOk_of_local h) (by decide) va
  have hr : ((s.m.lmSeen s.cid).inspect (s.m.lmAt s.cid off) n).lmRead s.cid off n = s.m.lmRead s.cid off n :=
    Module.lmRead_congr (by simp [Module.lmSeen]) (by simp [Module.lmSeen]) (by simp) ..
  split at hc
  · rw [if_pos ‹_›, lmLoad, MM.bind_error hc]
  · rw [if_neg ‹_›, lmLoad, MM.bind_ok hc, MM.get_bind, MM.pure_run, hr]

end Sys2Proof.Machine

namespace Sys2Proof.Claims
open Sys2Proof.Machine

/-- Settles O20. -/
theorem loadResult : Obligations.LoadResult :=
  ⟨fun _ _ _ _ _ _ _ hr ho hl hw => run_retires hr _ ((Run.bind_ok ho).trans (loadInto_run hl hw)),
    fun _ _ _ _ _ _ _ hr ho hl hw => run_retires hr _ ((Run.bind_ok ho).trans (loadInto_run hl hw))⟩

/-- Settles O21. -/
theorem storeResult : Obligations.StoreResult :=
  ⟨fun _ _ _ _ _ hr ho hs => run_retires hr _ ((Run.bind_ok ho).trans (storeFrom_run hs)),
    fun _ _ _ _ _ hr ho hs => run_retires hr _ ((Run.bind_ok ho).trans (storeFrom_run hs))⟩

/-- Settles O22: the checks of a read decide, and what they find changes no byte. -/
theorem localLoadBytes : Obligations.LocalLoadBytes := fun s off n h => by
  rw [memLoad_local h, lmLoad_local h]
  refine ⟨fun hb => ⟨_, by rw [hb]; rfl, ?_, ?_⟩, fun hb => by rw [hb]; rfl⟩
  · rw [Module.inspect_mem]; rfl
  · rw [Module.inspect_cores]; rfl

/-- Settles O23: the store of a range that nobody watches is the masked write of its bytes. -/
theorem localStoreBytes : Obligations.LocalStoreBytes := fun s off bs h hu =>
  ⟨_, memStore_local h, fun _ ha => lmStore_other (m := s.m.lmSeen s.cid) hu false ha, fun hwf hw hd => by
    rw [lmStore_whole (m := s.m.lmSeen s.cid) hu hw hd false]
    exact Mem.read_write_same hwf _ bs⟩

/-- Settles O24: the crossing is looked at before anything else. -/
theorem lineCrossingRaises : Obligations.LineCrossingRaises := fun cid who va n bs super m =>
  ⟨fun h => by rw [memLoad, crossesLine, decide_eq_true h, MM.stopIf_true],
    fun h => by rw [memStore, crossesLine, decide_eq_true h, MM.stopIf_true]⟩

/-- Settles O25: on the own LM an STC without its reservation ends after the checks of a store. -/
theorem reservationResult : Obligations.ReservationResult := by
  refine ⟨fun _ _ _ _ _ _ _ _ hr ho hl hw => run_retires hr _ ((Run.bind_ok ho).trans (reserve_run hl hw)),
    fun _ _ _ _ _ _ _ _ hr ho hl hw => run_retires hr _ ((Run.bind_ok ho).trans (reserve_run hl hw)),
    fun f s s1 s2 l wrote m' hr ho hs hw => run_retires hr _ ((Run.bind_ok ho).trans ?_), fun s off bs r h ha hres => ?_⟩
  · rw [← opWidth_bytes] at hs
    have hw' : (if wrote = true then (0 : Word) else 1) = if wrote = true then 0#64 else 1#64 := rfl
    rw [Run.get_bind]
    refine (Run.bind_ok (a := wrote) (t := { s1 with m := m' }) ?_).trans ?_
    · simp only [Run.lift, hs]
    · rw [Run.onCore_bind, noteWrite_bind, hw']
      exact hw
  · have hne : r.any (·.line == lineOf (s.m.lmAt s.cid off)) = false := by
      cases r with
      | none => rfl
      | some x => simpa using hres x rfl
    refine ⟨s.m.lmSeen s.cid, ?_, rfl⟩
    have hm : (decide (off % bs.length ≠ 0)) = false := decide_eq_false (by simpa using ha)
    simp only [stcAt, hm, MM.stopIf_false, MM.get_bind, Module.target_local _ _ h.fits.1, ne_eq, not_true_eq_false, decide_false,
      MM.bind_ok (lmCheck_write (lmOk_of_local h) off), hne]
    rfl

end Sys2Proof.Claims
end

section
/-!
PROOFS. Stash and instruction-cache maintenance, and the power states of LM banks (R85, R187, R415–R417, R428, R429, R456–R458).
-/
namespace Sys2Proof.Machine
open Sys2Proof.Claims

/-! ## Ranges -/

theorem rangeOperands_run {f : RangeOp} {s s1 : State} {l : List Word}
    (ho : operands [⟨f.b, f.kb, .addr⟩, ⟨f.c, f.kc, .addr⟩] none s = .ok (l, s1)) :
    rangeOperands f s = .ok (((arg l 0).toNat, (arg l 1).toNat), s1) := Run.bind_ok ho

/-- Lines flushed one after the other are those of the statement's recursion. -/
theorem flushHeld_eq (cid who aid : Nat) (drop : Bool) (ls : List Nat) (m : Module) :
    m.flushHeld cid who aid drop ls = flushedLines cid who aid drop ls m := by
  induction ls generalizing m with
  | nil => rfl
  | cons l ls ih =>
    rw [Module.flushHeld, List.foldl_cons]
    show Module.flushHeld _ cid who aid drop ls = _
    rw [ih, flushedLines, Module.flushOne]
    dsimp only
    cases (m.core cid).held l with
    | none => rfl
    | some x =>
      cases drop with
      | true =>
        cases hd : (m.core cid).defers m.time l (some who) with
        | true => simp
        | false => cases hw : m.writeBack cid l 0 <;> simp [hw]
      | false =>
        by_cases hx : x.st = 3
        · cases hw : m.writeBack cid l 2 <;> simp [hx, hw]
        · simp [hx]

/-! ## Fields beside a replaced field -/

end Sys2Proof.Machine

namespace Sys2Proof

theorem testBit_bits {n : Nat} (x : BitVec n) (hi lo j : Nat) : (bits x hi lo).testBit j = (decide (j < hi + 1 - lo) && bit x (lo + j)) := by
  rw [bits, Nat.testBit_mod_two_pow, Nat.testBit_shiftRight]; rfl

theorem bits_setBits_same {n : Nat} (x : BitVec n) {hi lo : Nat} (v : Nat) (hhi : hi < n) :
    bits (setBits x hi lo v) hi lo = v % 2 ^ (hi + 1 - lo) := by
  refine Nat.eq_of_testBit_eq fun j => ?_
  rw [testBit_bits, Nat.testBit_mod_two_pow]
  by_cases hj : j < hi + 1 - lo
  · rw [bit_setBits _ _ _ _ (by omega), if_pos (by omega), Nat.add_sub_cancel_left]
  · simp [hj]

/-- A field that does not meet the replaced one. -/
theorem bits_setBits_other {n : Nat} (x : BitVec n) {hi lo hi' lo' : Nat} (v : Nat) (hn : hi' < n) (h : hi < lo' ∨ hi' < lo) :
    bits (setBits x hi lo v) hi' lo' = bits x hi' lo' := by
  refine Nat.eq_of_testBit_eq fun j => ?_
  rw [testBit_bits, testBit_bits]
  by_cases hj : j < hi' + 1 - lo'
  · rw [bit_setBits _ _ _ _ (by omega), if_neg (by omega)]
  · simp [hj]

end Sys2Proof

namespace Sys2Proof.Machine
open Sys2Proof.Claims

/-! ## Bank states -/

theorem bank_setBank_same (p : Phys) {b st : Nat} (hb : b < 16) (hs : st < 4) : (p.setBank b st).bank b = st := by
  have h : 2 * b + 1 + 1 - 2 * b = 2 := by omega
  rw [Phys.bank, Phys.setBank, bits_setBits_same _ _ (by omega), h]
  exact Nat.mod_eq_of_lt hs
theorem bank_setBank_other (p : Phys) {b k : Nat} (st : Nat) (hk : k < 16) (h : k ≠ b) : (p.setBank b st).bank k = p.bank k := by
  rw [Phys.bank, Phys.setBank, bits_setBits_other _ _ (by omega) (by omega)]; rfl

/-- What an instruction on the other banks of a core leaves of bank b: its state, its wake time, and whether it is protected. -/
structure BankKept (cid b : Nat) (m m' : Module) : Prop where
  pid : m'.pid cid = m.pid cid
  cores : m'.cores = m.cores
  time : m'.time = m.time
  bank : (m'.phy (m.pid cid)).bank b = (m.phy (m.pid cid)).bank b
  wake : Tab.get 0 (m'.phy (m.pid cid)).wake b = Tab.get 0 (m.phy (m.pid cid)).wake b
  held : m'.bankHeld cid b = m.bankHeld cid b

theorem BankKept.refl (cid b : Nat) (m : Module) : BankKept cid b m m := ⟨rfl, rfl, rfl, rfl, rfl, rfl⟩
theorem BankKept.trans {cid b : Nat} {m n o : Module} (h : BankKept cid b m n) (k : BankKept cid b n o) : BankKept cid b m o := by
  have hb := k.bank
  have hw := k.wake
  rw [h.pid] at hb hw
  exact ⟨k.pid.trans h.pid, k.cores.trans h.cores, k.time.trans h.time, hb.trans h.bank, hw.trans h.wake, k.held.trans h.held⟩

/-- Whether a bank is protected depends on the cores and, for bank 15, on the supervisor queue. -/
theorem bankHeld_congr {m m' : Module} {cid b : Nat} {acts : Tab Act} {last : Option Nat} {turn : Nat}
    (hcore : m'.core cid = { m.core cid with acts := acts, last := last, turn := turn })
    (hs : b = 15 → ∀ i, i < 15 → m'.supEntry cid i = m.supEntry cid i) : m'.bankHeld cid b = m.bankHeld cid b := by
  unfold Module.bankHeld
  rw [hcore]
  by_cases hb : b = 15
  · have : ((upFrom 0 15).any fun i => (m'.supEntry cid i).v) = (upFrom 0 15).any fun i => (m.supEntry cid i).v := by
      rw [Bool.eq_iff_iff]
      simp only [List.any_eq_true]
      refine exists_congr fun i => and_congr_right fun hi => ?_
      rw [hs hb i (by simpa [upFrom_zero] using hi)]
    simp only [this]
    rfl
  · have : (b == 15) = false := by simpa using hb
    simp only [this, Bool.false_and]
    rfl

theorem Mem.get_zero_other (mem : List Host.Cell) {a n b : Nat} (h : b < a ∨ a + n ≤ b) : Mem.get (Mem.zero mem a n) b = Mem.get mem b := by
  rw [Mem.get_zero, if_neg (by omega)]

/-- The zeros of another bank leave the supervisor queue of bank 15 as it is. -/
theorem supEntry_blankBank (m : Module) {cid k i : Nat} (hk : k < 15) (hi : i < 15) : (m.blankBank cid k).supEntry cid i = m.supEntry cid i := by
  have hr : (m.blankBank cid k).lmRead cid (supOff i) 64 = m.lmRead cid (supOff i) 64 := by
    refine List.map_congr_left fun o ho => ?_
    have ho' : supOff i ≤ o := by
      obtain ⟨j, -, rfl⟩ := List.mem_map.mp (upFrom_eq_map (supOff i) 64 ▸ ho)
      exact Nat.le_add_right ..
    have hlow : ¬ (0x7F800 ≤ o ∧ o < 0x7F840) := by unfold supOff at ho'; omega
    rw [Module.lmByte, Module.lmByte, if_neg hlow, if_neg hlow]
    refine Mem.get_zero_other _ (.inr ?_)
    show m.pid cid * 2 ^ 19 + k * 0x8000 + 0x8000 ≤ m.pid cid * 2 ^ 19 + o
    unfold supOff at ho'
    omega
  rw [Module.supEntry, hr]; rfl

theorem Tab.get_del_other {α : Type} (d : α) (t : Tab α) {i j : Nat} (h : j ≠ i) : Tab.get d (Tab.del t i) j = Tab.get d t j := by
  induction t with
  | nil => rfl
  | cons e t ih =>
    obtain ⟨k, v⟩ := e
    by_cases hk : i = k
    · subst hk; rw [Tab.del, if_pos rfl, ih, Tab.get, if_neg h]
    · rw [Tab.del, if_neg hk, Tab.get, Tab.get, ih]

/-- A change of the physical core's record alone. -/
theorem bankKept_setPhy {m : Module} {cid b : Nat} {p : Phys} (hb : p.bank b = (m.phy (m.pid cid)).bank b)
    (hw : Tab.get 0 p.wake b = Tab.get 0 (m.phy (m.pid cid)).wake b) : BankKept cid b m (m.setPhy (m.pid cid) p) :=
  ⟨rfl, rfl, rfl, by rw [Module.phy_setPhy, hb], by rw [Module.phy_setPhy, hw], bankHeld_congr (m := m) rfl fun _ _ _ => rfl⟩

theorem bankKept_blankBank (m : Module) (cid : Nat) {b k : Nat} (hb : b < 16) (h : k < 16) (hne : b ≠ k) : BankKept cid b m (m.blankBank cid k) := by
  refine ⟨rfl, rfl, rfl, rfl, rfl, bankHeld_congr (m := m) rfl fun hb15 i hi => supEntry_blankBank m ?_ hi⟩
  omega

variable {m : Module} {cid b k : Nat}

theorem bankKept_dropRet (hb : b < 16) (hne : b ≠ k) : BankKept cid b m (m.dropRetBank cid k) := by
  unfold Module.dropRetBank
  dsimp only
  split
  · exact BankKept.refl ..
  · refine bankKept_setPhy ?_ ?_ <;> dsimp only
    · split
      · exact bank_setBank_other _ _ hb hne
      · rfl
      · rfl
    · split <;> rfl

theorem bankKept_dropOff (hb : b < 16) (hk : k < 16) (hne : b ≠ k) : BankKept cid b m (m.dropOffBank cid k) := by
  unfold Module.dropOffBank
  dsimp only
  split
  · exact BankKept.refl ..
  · split
    · exact bankKept_setPhy rfl rfl
    · exact (bankKept_setPhy (bank_setBank_other _ _ hb hne) rfl).trans (bankKept_blankBank _ _ hb hk hne)

theorem bankKept_wake (hb : b < 16) (hk : k < 16) (hne : b ≠ k) : BankKept cid b m (m.wakeBank cid k) := by
  unfold Module.wakeBank
  dsimp only
  split
  · exact BankKept.refl ..
  · split
    · refine BankKept.trans ?_ (bankKept_blankBank _ _ hb hk hne)
      exact bankKept_setPhy (bank_setBank_other _ _ hb hne) (Tab.get_put_other _ _ _ _ _ hne)
    · refine BankKept.trans ?_ (bankKept_blankBank _ _ hb hk hne)
      exact bankKept_setPhy (bank_setBank_other _ _ hb hne) (Tab.get_put_other _ _ _ _ _ hne)
    · exact BankKept.refl ..

/-- A change of every bank of a list changes bank b as its own change does, where the others keep it. -/
theorem foldl_bank {g : Module → Nat → Nat → Module} (hg : ∀ m k, k < 16 → b ≠ k → BankKept cid b m (g m cid k)) (l : List Nat)
    (hl : ∀ k ∈ l, k < 16) (hnd : l.Nodup) (hb : b ∈ l) (m : Module) :
    ∃ n, BankKept cid b m n ∧ BankKept cid b (g n cid b) (l.foldl (fun m k => g m cid k) m) := by
  have hkeep : ∀ (l : List Nat) (m : Module), (∀ k ∈ l, k < 16) → b ∉ l → BankKept cid b m (l.foldl (fun m k => g m cid k) m) := by
    intro l
    induction l with
    | nil => exact fun m _ _ => BankKept.refl ..
    | cons x l ih =>
      intro m hl hb
      rw [List.mem_cons, not_or] at hb
      exact (hg m x (hl x (List.mem_cons_self ..)) hb.1).trans (ih _ (fun k hk => hl k (List.mem_cons_of_mem _ hk)) hb.2)
  obtain ⟨l1, l2, rfl⟩ := List.append_of_mem hb
  have h1 : b ∉ l1 := fun h => (List.nodup_append.mp hnd).2.2 b h b (List.mem_cons_self ..) rfl
  have h2 : b ∉ l2 := (List.nodup_cons.mp (List.nodup_append.mp hnd).2.1).1
  refine ⟨l1.foldl (fun m k => g m cid k) m, hkeep l1 m (fun k hk => hl k (by simp [hk])) h1, ?_⟩
  rw [List.foldl_append, List.foldl_cons]
  exact hkeep l2 _ (fun k hk => hl k (by simp [hk])) h2

/-! ## The bank itself -/

theorem dropOffBank_full (hf : (m.phy (m.pid cid)).bank b = 0) (hh : m.bankHeld cid b = false) :
    m.dropOffBank cid b = (m.setPhy (m.pid cid) ((m.phy (m.pid cid)).setBank b 2)).blankBank cid b := by
  unfold Module.dropOffBank
  rw [hh, if_neg (by decide)]
  dsimp only
  rw [hf]
  rfl

theorem wakeBank_off (hf : (m.phy (m.pid cid)).bank b = 2) (hh : m.bankHeld cid b = false) :
    m.wakeBank cid b = (m.setPhy (m.pid cid) { (m.phy (m.pid cid)).setBank b 3 with
      wake := Tab.put (m.phy (m.pid cid)).wake b (m.time + 24), after := Tab.del (m.phy (m.pid cid)).after b }).blankBank cid b := by
  unfold Module.wakeBank
  rw [hh, if_neg (by decide)]
  dsimp only
  rw [hf]
  rfl

theorem bank_dropOff_self (hb : b < 16) (hf : (m.phy (m.pid cid)).bank b = 0) (hh : m.bankHeld cid b = false) :
    ((m.dropOffBank cid b).phy (m.pid cid)).bank b = 2 := by
  rw [dropOffBank_full hf hh]
  show (Module.phy (m.setPhy _ _) _).bank b = 2
  rw [Module.phy_setPhy, bank_setBank_same _ hb (by decide)]

theorem get_dropOff_self (hf : (m.phy (m.pid cid)).bank b = 0) (hh : m.bankHeld cid b = false) {o : Nat} (hlo : b * 0x8000 ≤ o)
    (hhi : o < b * 0x8000 + 0x8000) : Mem.get (m.dropOffBank cid b).mem (m.lmAt cid o) = 0#8 := by
  rw [dropOffBank_full hf hh]
  show Mem.get (Mem.zero m.mem (m.pid cid * 2 ^ 19 + b * 0x8000) 0x8000) (m.pid cid * 2 ^ 19 + o) = 0#8
  rw [Mem.get_zero, if_pos (by omega)]

theorem bank_dropRet_self (hb : b < 16) (hf : (m.phy (m.pid cid)).bank b = 0) (hs : (m.core cid).stashNb = 0) :
    ((m.dropRetBank cid b).phy (m.pid cid)).bank b = 1 ∧ (m.dropRetBank cid b).mem = m.mem := by
  have hd : m.dropRetBank cid b = m.setPhy (m.pid cid) ((m.phy (m.pid cid)).setBank b 1) := by
    have hn : (decide ((m.core cid).stashFirst ≤ b) && decide (b < (m.core cid).stashFirst + (m.core cid).stashNb)) = false := by
      rw [hs, Bool.and_eq_false_iff, decide_eq_false_iff_not, decide_eq_false_iff_not]
      omega
    unfold Module.dropRetBank Module.onPhy
    dsimp only
    rw [hn, if_neg (by decide), hf]
    rfl
  rw [hd, Module.phy_setPhy]
  exact ⟨bank_setBank_same _ hb (by decide), rfl⟩

theorem bank_wake_self (hb : b < 16) (hf : (m.phy (m.pid cid)).bank b = 2) (hh : m.bankHeld cid b = false) :
    ((m.wakeBank cid b).phy (m.pid cid)).bank b = 3 ∧ Tab.get 0 ((m.wakeBank cid b).phy (m.pid cid)).wake b = m.time + 24 := by
  rw [wakeBank_off hf hh]
  show (Module.phy (m.setPhy _ _) _).bank b = 3 ∧ Tab.get 0 (Module.phy (m.setPhy _ _) _).wake b = m.time + 24
  rw [Module.phy_setPhy]
  exact ⟨bank_setBank_same _ hb (by decide), Tab.get_put_same ..⟩

/-! ## The instructions on banks -/

/-- The module after a bank instruction with mask f. -/
def overBanks (f : BankMask) (g : Module → Nat → Nat → Module) (cid : Nat) (m : Module) : Module :=
  ((upFrom 0 16).filter fun b => bit f.mask b).foldl (fun m b => g m cid b) m

theorem onBanks_retires {s : State} (hr : s.Running) (f : BankMask) (g : Module → Nat → Nat → Module) :
    run (onBanks f g) s = .next (s.retire { s.begun with m := overBanks f g s.cid s.begun.m }) :=
  run_retires hr _ rfl

/-- Bank b of the mask goes from a state with its own record in m to the one that its own change makes. -/
theorem overBanks_bank {f : BankMask} {g : Module → Nat → Nat → Module} (hg : ∀ m k, k < 16 → b ≠ k → BankKept cid b m (g m cid k))
    (hp : ∀ m, (g m cid b).pid cid = m.pid cid) (hb : b < 16) (hm : bit f.mask b = true) (m : Module) :
    ∃ n, BankKept cid b m n ∧
      ((overBanks f g cid m).phy (m.pid cid)).bank b = ((g n cid b).phy (n.pid cid)).bank b ∧
      Tab.get 0 ((overBanks f g cid m).phy (m.pid cid)).wake b = Tab.get 0 ((g n cid b).phy (n.pid cid)).wake b := by
  have hl : ∀ k ∈ (List.range 16).filter (fun k => bit f.mask k), k < 16 := fun k hk => List.mem_range.mp (List.mem_filter.mp hk).1
  obtain ⟨n, hn, ht⟩ := foldl_bank hg _ hl (List.nodup_range.filter _) (List.mem_filter.mpr ⟨List.mem_range.mpr hb, hm⟩) m
  rw [← upFrom_zero] at ht
  have hbank := ht.bank
  have hwake := ht.wake
  rw [hp, hn.pid] at hbank hwake
  exact ⟨n, hn, by rw [hn.pid]; exact hbank, by rw [hn.pid]; exact hwake⟩

theorem pid_dropOffBank (m : Module) (c : Nat) : (m.dropOffBank cid b).pid c = m.pid c := by
  unfold Module.dropOffBank
  dsimp only
  split
  · rfl
  · split <;> rfl
theorem pid_dropRetBank (m : Module) (c : Nat) : (m.dropRetBank cid b).pid c = m.pid c := by
  unfold Module.dropRetBank
  dsimp only
  split <;> rfl
theorem pid_wakeBank (m : Module) (c : Nat) : (m.wakeBank cid b).pid c = m.pid c := by
  unfold Module.wakeBank
  dsimp only
  split
  · rfl
  · split <;> rfl

/-- An instruction that begins leaves banks, their wake times and what protects them as they are. -/
theorem bankKept_begun (s : State) (b : Nat) :
    s.begun.m.pid s.cid = s.m.pid s.cid ∧ s.begun.m.phys = s.m.phys ∧ s.begun.m.bankHeld s.cid b = s.m.bankHeld s.cid b ∧
      (s.begun.m.core s.cid).stashNb = s.core.stashNb := by
  have hcore : s.begun.m.core s.cid = { s.m.core s.cid with
      acts := (s.begun.m.core s.cid).acts, last := (s.begun.m.core s.cid).last, turn := (s.begun.m.core s.cid).turn } := by
    simp only [State.begun, State.setPc, State.setWin_m, Module.setWin, Module.onAct, Module.core_onCore]
    rw [Module.issue_core]
    rfl
  have hphys : s.begun.m.phys = s.m.phys := by
    simp only [State.begun, State.setPc, State.setWin_m, Module.setWin]
    show (s.m.issue s.cid s.ctx).phys = _
    unfold Module.issue
    split <;> rfl
  have hpid : s.begun.m.pid s.cid = s.m.pid s.cid := by
    unfold Module.pid Module.lpct Module.site
    rw [State.begun_sites]
  refine ⟨hpid, hphys, bankHeld_congr hcore fun _ i _ => ?_, by rw [hcore]; rfl⟩
  have hr : s.begun.m.lmRead s.cid (supOff i) 64 = s.m.lmRead s.cid (supOff i) 64 := by
    unfold Module.lmRead Module.lmByte Module.lmAt
    rw [hcore, State.begun_mem, hpid]
  rw [Module.supEntry, hr]
  rfl

end Sys2Proof.Machine

namespace Sys2Proof.Claims
open Sys2Proof.Machine

/-- Settles O26: each body runs its checks and then its one change of the module. -/
theorem lineAndBankInstructionsComplete : Obligations.LineAndBankInstructionsComplete := by
  refine ⟨fun f s s1 l hr ho => run_retires hr _ ((Run.bind_ok (rangeOperands_run ho)).trans ?_), fun f s s1 l hr ho hn => ?_,
    fun f s s1 l m' hr ho hn hm => run_retires hr _ ((Run.bind_ok (rangeOperands_run ho)).trans ?_),
    fun f s s1 l hr ho hg hc => ?_, fun f s s1 l hr ho => run_retires hr _ ((Run.bind_ok (rangeOperands_run ho)).trans rfl),
    fun s hr => ⟨fun h => run_retires hr _ ?_, fun h => run_waits hr _ ?_⟩, fun f s hr g i hi => ?_⟩
  · show (do let s ← get; if s.core.stashNb ≠ 0 then Run.onM _ : Run Unit) s1 = _
    by_cases h : s1.core.stashNb = 0 <;> simp [h]
  · refine ⟨fun hg hc => run_retires hr _ ((Run.bind_ok (rangeOperands_run ho)).trans ?_), fun h => ?_⟩
    · simp only [Run.get_bind, hn, ne_eq, not_true_eq_false, if_false, hg, Run.stopIf_false, hc]; rfl
    · cases hg : inGroup (arg l 0).toNat (arg l 1).toNat with
      | true =>
        refine ⟨BitVec.ofNat 64 (if windowOf (arg l 0).toNat |>.any (·.1 == .group) then (arg l 0).toNat / 64 * 64 else 2 ^ 33),
          run_faults hr _ ((Run.bind_ok (rangeOperands_run ho)).trans ?_)⟩
        simp only [Run.get_bind, hn, ne_eq, not_true_eq_false, if_false, hg, Run.stopIf_true]
      | false =>
        have hc : inCfg (arg l 0).toNat (arg l 1).toNat = true := h.resolve_left (by simp [hg])
        refine ⟨BitVec.ofNat 64 (if windowOf (arg l 0).toNat |>.any (·.1 == .cfg) then (arg l 0).toNat / 64 * 64 else 2 ^ 35),
          run_faults hr _ ((Run.bind_ok (rangeOperands_run ho)).trans ?_)⟩
        simp only [Run.get_bind, hn, ne_eq, not_true_eq_false, if_false, hg, Run.stopIf_false, hc]; rfl
  · simp only [Run.get_bind, if_pos hn, Run.lift, hm]
  · have hstop : (inGroup (arg l 0).toNat (arg l 1).toNat || inCfg (arg l 0).toNat (arg l 1).toNat) = false := by rw [hg, hc]; rfl
    refine ⟨run_retires hr _ ((Run.bind_ok (rangeOperands_run ho)).trans ?_), run_retires hr _ ((Run.bind_ok (rangeOperands_run ho)).trans ?_)⟩
    · simp only [hstop, Run.stopIf_false, Run.get_bind, ← flushHeld_eq]; rfl
    · simp only [hstop, Run.stopIf_false, Run.get_bind, ← flushHeld_eq]; rfl
  · simp only [Run.get_bind]
    rw [State.begun_cid, State.begun_aid, h, Run.stallIf_false]; rfl
  · simp only [Run.get_bind]
    rw [State.begun_cid, State.begun_aid, h, Run.stallIf_true]
  · simp only [List.mem_cons, Prod.mk.injEq, List.not_mem_nil, or_false] at hi
    rcases hi with ⟨rfl, rfl⟩ | ⟨rfl, rfl⟩ | ⟨rfl, rfl⟩ <;> exact onBanks_retires hr f _

/-- Settles O27: the other banks of the mask leave a bank as it is, and its own change is made on it alone. -/
theorem bankStates : Obligations.BankStates := by
  refine ⟨fun f s b hr hm hb hf hh => ?_, fun f s b hr hm hb hf hs => ?_, fun f s b hr hm hb hf hh _ => ?_,
    fun m cid b hb hf => ⟨fun hh => ⟨bank_dropOff_self hb hf hh, fun o => get_dropOff_self hf hh⟩, bank_dropRet_self hb hf⟩⟩
  all_goals
    obtain ⟨hpid, hphys, hheld, hstash⟩ := bankKept_begun s b
    have hphy : s.m.phy (s.m.pid s.cid) = s.begun.m.phy (s.begun.m.pid s.cid) := by rw [hpid, Module.phy, ← hphys]; rfl
    refine ⟨_, onBanks_retires hr f _, ?_⟩
    rw [hphy] at hf
    rw [← hpid]
  · obtain ⟨n, hn, hbank, -⟩ :=
      overBanks_bank (fun _ _ hk hne => bankKept_dropOff hb hk hne) (fun m => pid_dropOffBank m s.cid) hb hm s.begun.m
    exact hbank.trans (bank_dropOff_self hb (by rw [hn.pid, hn.bank, hf]) (by rw [hn.held, hheld, hh]))
  · obtain ⟨n, hn, hbank, -⟩ :=
      overBanks_bank (fun _ _ _ hne => bankKept_dropRet hb hne) (fun m => pid_dropRetBank m s.cid) hb hm s.begun.m
    have hcore : (n.core s.cid).stashNb = 0 := by rw [Module.core, hn.cores]; exact hstash.trans hs
    exact hbank.trans (bank_dropRet_self hb (by rw [hn.pid, hn.bank, hf]) hcore).1
  · obtain ⟨n, hn, hbank, hwake⟩ :=
      overBanks_bank (fun _ _ hk hne => bankKept_wake hb hk hne) (fun m => pid_wakeBank m s.cid) hb hm s.begun.m
    have h := bank_wake_self hb (m := n) (cid := s.cid) (by rw [hn.pid, hn.bank, hf]) (by rw [hn.held, hheld, hh])
    exact ⟨hbank.trans h.1, hwake.trans (h.2.trans (by rw [hn.time]))⟩

end Sys2Proof.Claims
end

section
/-!
PROOFS. Fences, atomics, semaphores and waits (R203–R238, R400, R430, R437, R459–R462, R469, R470, R500).
-/
namespace Sys2Proof.Machine
open Sys2Proof.Claims

variable {β : Type}

/-! ## Operands of the register roles -/

/-- Sources of the address roles that have been read leave everything as it was but the window, and there the liveness of registers, the
registers' values apart from nothing. -/
theorem operands_addr_state {l : List Src} {dst : Option (Put × Opnd)} {s t : State} {vs : List Word} (ha : ∀ o ∈ l, o.use = .addr)
    (h : operands l dst s = .ok (vs, t)) : ∃ w, t = s.setWin w ∧ w.g = s.win.g ∧ w.v = s.win.v ∧
      w.ctl = { s.win.ctl with liveg := w.ctl.liveg } := by
  have hnone : operands l none s = .ok (vs, t) := by
    rw [operands_eq] at h ⊢
    split at h
    · cases h
    next hn => rw [if_neg (by simp_all)]; exact h
  obtain ⟨u, hu, ho⟩ := operands_readOnly (dst := none) (fun _ h => by cases h) (operands_addr ha h)
  obtain rfl : t = s.setWin (killAll u.win l) := congrArg Prod.snd (Except.ok.inj (hnone.symm.trans ho))
  have hk := killAll_eq u.win l
  exact ⟨_, rfl, by rw [hk, hu.g], by rw [hk, hu.v], by rw [hk, hu.ctl]⟩

/-! ## Checks -/

theorem releases_bind {s : State} (h : Settled s) (f : Unit → Run β) : (releases >>= f) s = f () s := by
  refine Run.bind_ok ?_
  rw [releases, Run.get_bind, h.1, h.2]
  rfl

theorem noHandler_bind {s : State} (h : s.win.ctl.hnd = false) (f : Unit → Run β) : (noHandler >>= f) s = f () s := by
  refine Run.bind_ok ?_
  rw [noHandler, Run.get_bind, h]
  rfl

theorem mayWait_bind {s : State} (h : MaySleep s) (f : Unit → Run β) : (mayWait >>= f) s.begun = f () s.begun :=
  Run.bind_ok (mayWait_ok h.upc h.queue.1 h.queue.2)

/-- No handler runs where none ran before register operands were read. -/
theorem hnd_of_reads {l : List Src} {dst : Option (Put × Opnd)} {s s1 : State} {vs : List Word} (ha : ∀ o ∈ l, o.use = .addr)
    (ho : operands l dst s.begun = .ok (vs, s1)) : s1.win.ctl.hnd = s.win.ctl.hnd := by
  obtain ⟨w, rfl, -, -, hctl⟩ := operands_addr_state ha ho
  rw [State.win_setWin, hctl, State.begun_win]

theorem ordRoom_bind {o : Bool} {s : State} (h : OrdRoom o s) (f : Unit → Run β) : (ordRoom o >>= f) s = f () s := by
  refine Run.bind_ok ?_
  have hb : (o && decide (64 ≤ (s.m.late.filter fun e => e.cid == s.cid && e.num.isSome).length)) = false := by
    cases o with
    | false => rfl
    | true => simpa using h rfl
  rw [ordRoom, Run.get_bind, hb]
  rfl

theorem countOrdered_bind (va : Nat) (s : State) (f : Unit → Run β) : (countOrdered va >>= f) s = f () (numbered true va s) := rfl

/-- A suspension leaves the activation asleep. -/
theorem suspend_run (pc : Word) (k : Nat) (a v : Word) (dst : Opnd) (w : WaitOn) (s : State) :
    suspend pc k a v dst w s = .ok (.gone, asleep s pc k a v dst w) := rfl

/-- An instruction that is not ready lets the cycle pass at the commit point. -/
theorem runInstr_waits {s : State} (h : s.Running) (vec : Bool) (body : Word → Run After)
    (hb : body s.win.ctl.pc s.begun = .error .stall) : runInstr vec body s = .next (s.rollback s.groupNow.base) := by
  rw [runInstr_running h, hb]; rfl

/-! ## Semaphores -/

@[simp] theorem Module.touched_tiles (m : Module) (cid off n : Nat) : (m.touched cid off n).tiles = m.tiles := by
  unfold Module.touched
  split
  · split <;> rfl
  · rfl
@[simp] theorem Module.touched_time (m : Module) (cid off n : Nat) : (m.touched cid off n).time = m.time := by
  unfold Module.touched
  split
  · split <;> rfl
  · rfl

/-- The control words of a bound activation stand in its window. -/
theorem Module.setCtl_bound {m : Module} {cid key : Nat} {w : Win} (h : (m.act cid key).win = some w) (c : Ctl) :
    m.setCtl cid key c = m.onAct cid key fun a => { a with win := some { w with ctl := c } } := by
  unfold Module.setCtl
  dsimp only
  rw [h]

/-- Those of an unbound one stand in its workspace. -/
theorem Module.setCtl_unbound {m : Module} {cid key : Nat} (h : (m.act cid key).win = none) (c : Ctl) :
    m.setCtl cid key c = if m.lmUsable cid ((m.act cid key).wp + 1280) 64 then
      { m.touched cid ((m.act cid key).wp + 1280) 64 with mem := Mem.write m.mem (m.lmAt cid ((m.act cid key).wp + 1280)) c.encode }
    else m := by
  unfold Module.setCtl
  dsimp only
  rw [h]

theorem Module.setCtl_keeps (m : Module) (cid key : Nat) (c : Ctl) :
    (m.setCtl cid key c).tiles = m.tiles ∧ (m.setCtl cid key c).time = m.time := by
  cases h : (m.act cid key).win with
  | some w => rw [Module.setCtl_bound h]; exact ⟨rfl, rfl⟩
  | none =>
    rw [Module.setCtl_unbound h]
    generalize c.encode = bs
    split
    · exact ⟨Module.touched_tiles m cid _ 64, Module.touched_time m cid _ 64⟩
    · exact ⟨rfl, rfl⟩

/-- A wake changes no tile and takes no time. -/
theorem Module.wake_tiles (m : Module) (cid key : Nat) (r : Option Word) : (m.wake cid key r).tiles = m.tiles := (Module.setCtl_keeps ..).1
theorem Module.wake_time (m : Module) (cid key : Nat) (r : Option Word) : (m.wake cid key r).time = m.time := (Module.setCtl_keeps ..).2

theorem Module.semWake_keeps (m : Module) (t n : Nat) : (m.semWake t n).tiles = m.tiles ∧ (m.semWake t n).time = m.time :=
  ⟨foldl_keeps Module.tiles _ (fun _ _ => Module.wake_tiles ..) _ _, foldl_keeps Module.time _ (fun _ _ => Module.wake_time ..) _ _⟩

/-- What an operation leaves of the tile's semaphores. -/
theorem Module.semPut_tile (m : Module) (t n rank : Nat) (v : BitVec 32) : (m.semPut t n v rank).time = m.time ∧
    (m.semPut t n v rank).tile t =
      { m.tile t with sems := Tab.put (m.tile t).sems n v, semAt := Tab.put (m.tile t).semAt n (m.time, rank) } := by
  have h : ∀ m' : Module, m'.tiles = m.tiles → m'.time = m.time →
      (m'.onTile t fun x => { x with sems := Tab.put x.sems n v, semAt := Tab.put x.semAt n (m'.time, rank) }).time = m.time ∧
      (m'.onTile t fun x => { x with sems := Tab.put x.sems n v, semAt := Tab.put x.semAt n (m'.time, rank) }).tile t =
        { m.tile t with sems := Tab.put (m.tile t).sems n v, semAt := Tab.put (m.tile t).semAt n (m.time, rank) } := by
    intro m' ht hm
    have htile : m'.tile t = m.tile t := by rw [Module.tile, ht]; rfl
    rw [Module.tile_onTile, htile, hm]
    exact ⟨hm, rfl⟩
  unfold Module.semPut
  dsimp only
  split
  · exact h _ (Module.semWake_keeps ..).1 (Module.semWake_keeps ..).2
  · exact h _ rfl rfl

end Sys2Proof.Machine

namespace Sys2Proof.Claims
open Sys2Proof.Machine

/-- Settles O28: none of the two waits of a fence holds. -/
theorem fenceCompletes : Obligations.FenceCompletes := by
  intro f s hr q m hord hdone
  have hq : s.begun.ldQ ++ s.begun.sdQ = q := rfl
  have hw : (s.begun.open_.map (·.wrote)).getD 0 = s.groupNow.wrote := rfl
  have hb : (if q.isEmpty then s.begun.m else (s.begun.open_.map (·.base)).getD s.begun.m) = m := rfl
  have hstop : (f.order == 3#2 && q.any fun e => decide (e.1 + 1 < s.groupNow.wrote)) = false := by
    by_cases h3 : f.order = 3#2
    · simpa [h3] using hord h3
    · simp [h3]
  have hflush : (decide (f.scope ≠ 0#4) && s.begun.m.unflushed s.cid s.aid) = false := by
    rcases hdone with h0 | ⟨hf, -⟩ <;> simp [*]
  have hsent : (decide (f.scope ≠ 0#4) && decide (f.order ≠ 0#2) &&
      (s.begun.m.unwritten s.cid s.aid || m.unsent s.cid s.aid)) = false := by
    rcases hdone with h0 | ⟨-, h0 | ⟨h1, h2⟩⟩ <;> simp [*]
  show runInstr false _ s true = _
  rw [runInstr_running hr false _ true]
  refine congrArg (outcomeOf s) (a₂ := .ok (.step 0 0, s.begun)) ?_
  rw [Run.get_bind]
  dsimp only
  rw [hq, hw, hstop, Run.stopIf_false, hb, State.begun_cid, State.begun_aid]
  rw [hflush, Run.stallIf_false, hsent]
  rfl

/-- Settles O29. -/
theorem atomicInstructionsComplete : Obligations.AtomicInstructionsComplete := by
  refine ⟨fun f s s1 s2 l old m' hr hroom ha hw => run_retires hr.1 _ ((Run.bind_ok hr.2).trans ?_),
    fun f s s1 l m' hr hroom ha => run_retires hr.1 _ ((Run.bind_ok hr.2).trans ?_),
    fun f s s1 l m' hr ha => run_retires hr.1 _ ((Run.bind_ok hr.2).trans ((Run.get_bind ..).trans ((Run.lift_ok ha).trans rfl))),
    fun f s s1 s2 l cell m' hr hx hw => run_retires hr.1 _ ((Run.bind_ok hr.2).trans ((Run.get_bind ..).trans ((Run.lift_ok hx).trans ?_)))⟩
  · rw [Run.get_bind]
    refine (ordRoom_bind hroom _).trans ((Run.lift_ok ha).trans ?_)
    cases ho : f.o <;> rw [ho] at hw
    · exact hw
    · exact hw
  · rw [Run.get_bind]
    refine (ordRoom_bind hroom _).trans ((Run.lift_ok ha).trans ?_)
    cases ho : f.o <;> rfl
  · exact (Run.bind_ok (takeMode_run ..)).trans ((orFlags_bind ..).trans hw)

/-- Settles O33: SEMW looks at a value that no operation of the cycle can still change. -/
theorem semaphoreInstructions : Obligations.SemaphoreInstructions := by
  intro f s s1 l ⟨hr, ho⟩
  have hop : semOperand f s.begun = .ok (bits (arg l 0) 31 0, s1) := Run.bind_ok ho
  have hhnd : s1.win.ctl.hnd = s.win.ctl.hnd := hnd_of_reads (by simp) ho
  refine ⟨fun hset => ⟨fun hturn => run_retires hr _ ((releases_bind hset _).trans ((Run.bind_ok hop).trans ?_)),
      run_retires hr _ ((releases_bind hset _).trans ((Run.bind_ok hop).trans rfl))⟩, fun hsl hfin => ?_, fun hsl hfin => ⟨fun hle => ?_, fun hlt => ?_⟩,
    fun m t n rank v => ?_⟩
  · rw [Run.get_bind, hturn, Bool.not_true]
    exact Run.stallIf_false ..
  · refine runInstr_waits hr _ _ ((mayWait_bind hsl _).trans ((Run.bind_ok hop).trans ((noHandler_bind (hhnd.trans hsl.hnd) _).trans ?_)))
    rw [Run.get_bind, hfin, Bool.not_false]
    exact Run.stallIf_true ..
  · refine runInstr_retires hr _ _ ((mayWait_bind hsl _).trans ((Run.bind_ok hop).trans ((noHandler_bind (hhnd.trans hsl.hnd) _).trans ?_)))
    rw [Run.get_bind, hfin, Bool.not_true, Run.stallIf_false, if_neg (by omega)]
    rfl
  · refine runInstr_leaves hr _ _ ((mayWait_bind hsl _).trans ((Run.bind_ok hop).trans ((noHandler_bind (hhnd.trans hsl.hnd) _).trans ?_)))
    rw [Run.get_bind, hfin, Bool.not_true, Run.stallIf_false, if_pos hlt]
    rfl
  · obtain ⟨htime, htile⟩ := m.semPut_tile t n rank v
    have hat : Tab.find ((m.semPut t n v rank).tile t).semAt n = some (m.time, rank) := by rw [htile]; exact Tab.find_put_same ..
    refine ⟨by rw [htile]; exact Tab.get_put_same .., fun k hk => by rw [htile]; exact Tab.get_put_other _ _ _ _ _ hk, ?_, fun r => ?_⟩
    · simp [Module.semFinal, hat, htime]
    · simp [Module.semTurn, hat, htime]

end Sys2Proof.Claims
end

section
/-!
PROOFS. Atomics on the own LM (R216, R218).
-/
namespace Sys2Proof.Machine
open Sys2Proof.Claims

/-- What an atomic leaves in its word, whether it writes or not. -/
theorem rmwNew_getD (opc w old c d : Nat) : (rmwNew opc w old c d).getD old = updated opc w old c d := by
  unfold rmwNew updated
  split <;> simp only [Option.getD_some]
  · split <;> split <;> omega
  · split <;> omega
  · split <;> omega
  · split <;> rfl

theorem Mem.read_length (mem : List Host.Cell) (a n : Nat) : (Mem.read mem a n).length = n := by
  induction n generalizing a with
  | zero => rfl
  | succ n ih => rw [Mem.read, List.length_cons, ih]

theorem Mem.read_eq_map (mem : List Host.Cell) (a n : Nat) : Mem.read mem a n = (List.range n).map fun k => Mem.get mem (a + k) := by
  induction n generalizing a with
  | zero => rfl
  | succ n ih =>
    rw [Mem.read, ih, List.range_succ_eq_map, List.map_cons, List.map_map]
    simp [Function.comp_def, Nat.add_comm, Nat.add_left_comm]

/-- Away from the scheduler descriptor LM reads as memory. -/
theorem lmRead_eq_read {m : Module} {cid off n : Nat} (h : meet off n 0x7F800 0x40 = false) :
    m.lmRead cid off n = Mem.read m.mem (m.lmAt cid off) n := by
  rw [Module.lmRead, upFrom_eq_map, List.map_map, Mem.read_eq_map]
  refine List.map_congr_left fun k hk => ?_
  have hk' := List.mem_range.mp hk
  have hlow : ¬ (0x7F800 ≤ off + k ∧ off + k < 0x7F840) := by
    rw [meet, Bool.and_eq_false_iff, decide_eq_false_iff_not, decide_eq_false_iff_not] at h
    omega
  rw [Function.comp_apply, Module.lmByte, if_neg hlow]
  show Mem.get m.mem (lmLoc (m.pid cid) (off + k)) = Mem.get m.mem (lmLoc (m.pid cid) off + k)
  rw [lmLoc, lmLoc, Nat.add_assoc]

theorem meet_of_sub {a n b k j : Nat} (h : meet a n b k = false) (hj : j ≤ k) : meet a n b j = false := by
  rw [meet, Bool.and_eq_false_iff, decide_eq_false_iff_not, decide_eq_false_iff_not] at h ⊢
  omega

theorem leBytes_length (n x : Nat) : (leBytes n x).length = n := by rw [leBytes_eq_map, List.length_map, List.length_range]

/-- The bytes of the number of n bytes are those bytes. -/
theorem leBytes_leNat (l : List Byte) : leBytes l.length (leNat l) = l := by
  induction l with
  | nil => rfl
  | cons b l ih =>
    have h1 : BitVec.ofNat 8 (b.toNat + 256 * leNat l) = b := by
      rw [← BitVec.toNat_inj, BitVec.toNat_ofNat]
      have := b.isLt
      omega
    have h2 : (b.toNat + 256 * leNat l) / 256 = leNat l := by
      have := b.isLt
      omega
    rw [List.length_cons, leNat, leBytes, h1, h2, ih]

theorem watched_congr {m m' : Module} (h : m'.cores = m.cores) (loc n : Nat) : m'.watched loc n = m.watched loc n := by
  rw [Module.watched, h]; rfl

/-- The module in which an access to the own LM has passed its checks: memory, cores, registered waiters and places as before. -/
structure SeenSame (m m' : Module) : Prop where
  mem : m'.mem = m.mem
  cores : m'.cores = m.cores
  bwait : m'.bwait = m.bwait
  pid : ∀ c, m'.pid c = m.pid c

theorem SeenSame.lmAt {m m' : Module} (h : SeenSame m m') (c off : Nat) : m'.lmAt c off = m.lmAt c off := by
  rw [Module.lmAt, h.pid]; rfl
theorem SeenSame.core {m m' : Module} (h : SeenSame m m') (c : Nat) : m'.core c = m.core c := by
  rw [Module.core, h.cores]; rfl
theorem SeenSame.unwatched {m m' : Module} (h : SeenSame m m') {loc n : Nat} (hu : Unwatched m loc n) : Unwatched m' loc n :=
  ⟨(watched_congr h.cores loc n).trans hu.1, by rw [h.bwait]; exact hu.2⟩

theorem seenSame_read (m : Module) (cid loc n : Nat) : SeenSame m ((m.lmSeen cid).inspect loc n) :=
  ⟨Module.inspect_mem .., Module.inspect_cores .., Module.inspect_bwait .., fun _ => Module.inspect_pid ..⟩

/-- An atomic on the own LM answers the old value, and stores the new one where there is one. -/
theorem atomAt_local {s : State} {off n opc c d : Nat} (home : Bool) (ha : off % n = 0) (h : LocalOk s off n .rmw)
    (hb : s.m.badNow (s.m.lmAt s.cid off) n = false) : ∃ m1, SeenSame s.m m1 ∧
      atomAt s.cid s.ctx off (8 * n) opc c d s.super home s.m = .ok (m1.lmNat s.cid off n,
        match rmwNew opc (8 * n) (m1.lmNat s.cid off n) c d with
        | some v => m1.lmStore s.cid off (leBytes n v)
        | none => m1) := by
  refine ⟨(s.m.lmSeen s.cid).inspect (s.m.lmAt s.cid off) n, seenSame_read .., ?_⟩
  have hc : lmCheck s.cid s.cid off n .rmw s.super off s.m = .ok ((), (s.m.lmSeen s.cid).inspect (s.m.lmAt s.cid off) n) := by
    rw [lmCheck_read (lmOk_of_local h) (by decide), hb]; rfl
  have hn : 8 * n / 8 = n := by omega
  have hal : decide (off % n ≠ 0) = false := by simp [ha]
  simp only [atomAt, hn, hal, MM.stopIf_false, MM.get_bind, Module.target_local _ _ h.fits.1, MM.bind_ok (keyLm_self h.reach off),
    MM.bind_ok hc]
  split <;> rename_i hv <;> simp [hv]

end Sys2Proof.Machine

namespace Sys2Proof.Claims
open Sys2Proof.Machine

/-- Settles O30: the word holds what the operation leaves, which a failed `cas` need not write. -/
theorem localAtomicResult : Obligations.LocalAtomicResult := by
  intro s off n opc c d home hn hopc hc hd ha h hb hu hwf hw hdesc
  obtain ⟨m1, hs, he⟩ := atomAt_local (opc := opc) (c := c) (d := d) home ha h hb
  have hold : m1.lmNat s.cid off n = leNat (Mem.read s.m.mem (s.m.lmAt s.cid off) n) := by
    rw [Module.lmNat, lmRead_eq_read hdesc, hs.mem, hs.lmAt]
  rw [hold] at he
  generalize hx : leNat (Mem.read s.m.mem (s.m.lmAt s.cid off) n) = old at he ⊢
  refine ⟨_, he, ?_⟩
  have hupd := rmwNew_getD opc (8 * n) old c d
  cases hv : rmwNew opc (8 * n) old c d with
  | none =>
    rw [hv, Option.getD_none] at hupd
    refine ⟨?_, fun a _ => by rw [hs.mem]⟩
    have hl := leBytes_leNat (Mem.read s.m.mem (s.m.lmAt s.cid off) n)
    rw [Mem.read_length, hx] at hl
    rw [← hupd, hl]
    exact congrArg (Mem.read · _ n) hs.mem
  | some v =>
    rw [hv, Option.getD_some] at hupd
    have hlen := leBytes_length n v
    have hst : m1.lmStore s.cid off (leBytes n v) = m1.stored (s.m.lmAt s.cid off) (leBytes n v) := by
      rw [lmStore_whole (by rw [hlen, hs.lmAt]; exact hs.unwatched hu)
        (by rw [hlen]; intro o h1 h2; rw [hs.core]; exact hw o h1 h2) (by rw [hlen]; exact meet_of_sub hdesc (by decide)) false, hs.lmAt]
    dsimp only
    rw [hst, stored_mem, hs.mem, ← hupd]
    refine ⟨?_, fun a ha => Mem.get_write_other _ _ _ _ (by rw [hlen]; exact ha)⟩
    have hread := Mem.read_write_same hwf (s.m.lmAt s.cid off) (leBytes n v)
    rwa [hlen] at hread

end Sys2Proof.Claims
end

section
/-!
PROOFS. Records in memory (R36, R50, R347): numbers made of fields, each of which reads back, and the control words, task records and
fault records that 64 or 96 bytes hold.
-/
namespace Sys2Proof.Machine
open Sys2Proof.Claims

/-! ## Numbers made of fields -/

theorem leNat_leBytes (n x : Nat) : leNat (leBytes n x) = x % 256 ^ n := by
  induction n generalizing x with
  | zero => simp [leBytes, leNat, Nat.mod_one]
  | succ n ih =>
    have h : x % 256 ^ (n + 1) = x % 256 + 256 * (x / 256 % 256 ^ n) := by rw [Nat.pow_succ']; exact Nat.mod_mul
    rw [leBytes, leNat, ih, BitVec.toNat_ofNat, h]

/-- The number that fields of given widths make, the first the least significant. -/
def packed : List (Nat × Nat) → Nat
  | [] => 0
  | (w, v) :: l => v + 2 ^ w * packed l

/-- Every field is within its width. -/
def FieldsFit (l : List (Nat × Nat)) : Prop := ∀ f ∈ l, f.2 < 2 ^ f.1

/-- From bit lo up a number holds these fields and nothing above them. -/
def HoldsFields (x : Nat) : Nat → List (Nat × Nat) → Prop
  | lo, [] => x / 2 ^ lo = 0
  | lo, (w, v) :: l => x / 2 ^ lo % 2 ^ w = v ∧ HoldsFields x (lo + w) l

theorem holdsFields_of_packed {l : List (Nat × Nat)} (h : FieldsFit l) (x lo : Nat) (hx : x / 2 ^ lo = packed l) : HoldsFields x lo l := by
  induction l generalizing lo with
  | nil => exact hx
  | cons f l ih =>
    obtain ⟨w, v⟩ := f
    have hv : v < 2 ^ w := h (w, v) (List.mem_cons_self ..)
    refine ⟨by rw [hx, packed, Nat.add_mul_mod_self_left, Nat.mod_eq_of_lt hv],
      ih (fun f hf => h f (List.mem_cons_of_mem _ hf)) (lo + w) ?_⟩
    rw [Nat.pow_add, ← Nat.div_div_eq_div_mul, hx, packed, Nat.add_mul_div_left _ _ (by positivity), Nat.div_eq_of_lt hv, Nat.zero_add]

theorem holdsFields_packed {l : List (Nat × Nat)} (h : FieldsFit l) : HoldsFields (packed l) 0 l :=
  holdsFields_of_packed h _ 0 (by rw [Nat.pow_zero, Nat.div_one])

theorem packed_lt {l : List (Nat × Nat)} (h : FieldsFit l) : packed l < 2 ^ (l.map (·.1)).sum := by
  induction l with
  | nil => exact Nat.one_pos
  | cons f l ih =>
    obtain ⟨w, v⟩ := f
    have hv : v < 2 ^ w := h (w, v) (List.mem_cons_self ..)
    have hl := ih fun f hf => h f (List.mem_cons_of_mem _ hf)
    have hw : (((w, v) :: l).map (·.1)).sum = w + (l.map (·.1)).sum := List.sum_cons
    rw [packed, hw, Nat.pow_add]
    calc v + 2 ^ w * packed l < 2 ^ w + 2 ^ w * packed l := by omega
      _ = 2 ^ w * (packed l + 1) := by ring
      _ ≤ 2 ^ w * 2 ^ (l.map (·.1)).sum := Nat.mul_le_mul_left _ hl

/-- The bytes of the number hold the fields. -/
theorem holdsFields_bytes {l : List (Nat × Nat)} (h : FieldsFit l) {n : Nat} (hn : (l.map (·.1)).sum = 8 * n) :
    HoldsFields (leNat (leBytes n (packed l))) 0 l := by
  have hlt : packed l < 256 ^ n := by
    have := packed_lt h
    rwa [hn, Nat.pow_mul] at this
  rw [leNat_leBytes, Nat.mod_eq_of_lt hlt]
  exact holdsFields_packed h

theorem toNat_beq_one (b : Bool) : (b.toNat == 1) = b := by cases b <;> rfl

/-! ## Fault records (R347) -/

/-- The fields of a fault record, cut to their widths. -/
def FaultRec.fields (r : FaultRec) : List (Nat × Nat) :=
  [(8, r.cause % 256), (8, r.sub % 256), (2, r.kind % 4), (1, r.v.toNat), (1, r.pw.toNat), (1, r.l8.toNat), (1, r.l9.toNat),
    (2, r.disp % 4), (8, min r.lost 255), (16, r.seq % 65536), (16, r.job % 65536), (64, r.pc.toNat), (64, r.addr.toNat),
    (16, r.vcn % 65536), (9, r.psite % 512), (8, r.pcore % 256), (31, 0), (32, r.lgen % 2 ^ 32), (32, r.sseq % 2 ^ 32),
    (16, r.svcn % 65536), (16, r.aidv % 65536), (32, r.aids % 2 ^ 32), (64, r.save8.toNat), (64, r.save9.toNat)]

theorem FaultRec.fieldsFit (r : FaultRec) : FieldsFit r.fields := by
  simp only [FieldsFit, FaultRec.fields, List.forall_mem_cons, List.not_mem_nil, false_imp_iff, implies_true, and_true]
  have := r.v.toNat_le; have := r.pw.toNat_le; have := r.l8.toNat_le; have := r.l9.toNat_le
  omega

theorem FaultRec.encode_eq (r : FaultRec) : r.encode = leBytes 64 (packed r.fields) := by
  refine congrArg (leBytes 64) ?_
  simp only [FaultRec.fields, packed]
  omega

theorem FaultRec.holdsFields (r : FaultRec) : HoldsFields (leNat r.encode) 0 r.fields := by
  rw [r.encode_eq]
  exact holdsFields_bytes r.fieldsFit (by simp [FaultRec.fields])

/-- Decoding the bytes of a record gives it back, its fields cut to their widths. -/
theorem FaultRec.decode_encode (r : FaultRec) : FaultRec.decode r.encode =
    { r with cause := r.cause % 256, sub := r.sub % 256, kind := r.kind % 4, disp := r.disp % 4, lost := min r.lost 255, seq := r.seq % 65536
             job := r.job % 65536, vcn := r.vcn % 65536, psite := r.psite % 512, pcore := r.pcore % 256, lgen := r.lgen % 2 ^ 32
             sseq := r.sseq % 2 ^ 32, svcn := r.svcn % 65536, aidv := r.aidv % 65536, aids := r.aids % 2 ^ 32 } := by
  have h := r.holdsFields
  simp only [FaultRec.fields, HoldsFields, Nat.zero_add, Nat.reduceAdd] at h
  simp only [FaultRec.decode, fieldOf, Nat.reduceAdd, Nat.reduceSub, h, toNat_beq_one, BitVec.ofNat_toNat, BitVec.setWidth_eq]

end Sys2Proof.Machine

namespace Sys2Proof.Claims
open Sys2Proof.Machine

/-- Settles O53: the fields are digits of one number, and decoding reads the same digits. -/
theorem faultRecordLayout : Obligations.FaultRecordLayout := by
  intro r h1 h2 h3 h4 h5 h6 h7 h8 h9 h10 h11 h12 h13 h14 h15 x
  have e5 : min r.lost 255 = r.lost := by omega
  have hr := r.holdsFields
  simp only [FaultRec.fields, HoldsFields, Nat.zero_add, Nat.reduceAdd, e5, Nat.mod_eq_of_lt, h1, h2, h3, h4, h6, h7, h8, h9, h10, h11, h12, h13,
    h14, h15] at hr
  obtain ⟨hcause, hsub, hkind, hv, hpw, hl8, hl9, hdisp, hlost, hseq, hjob, hpc, haddr, hvcn, hpsite, hpcore, -, hlgen, hsseq, hsvcn, haidv,
    haids, hsave8, hsave9, hend⟩ := hr
  rw [Nat.pow_zero, Nat.div_one] at hcause
  have htop : x / 2 ^ 448 = r.save9.toNat := by omega
  have hdec := r.decode_encode
  simp only [e5, Nat.mod_eq_of_lt, h1, h2, h3, h4, h6, h7, h8, h9, h10, h11, h12, h13, h14, h15] at hdec
  exact ⟨leBytes_length .., hcause, hsub, hkind, hv, hpw, hl8, hl9, hdisp, hlost, hseq, hjob, hpc, haddr, hvcn, hpsite, hpcore, hlgen, hsseq,
    hsvcn, haidv, haids, hsave8, htop, hdec⟩

end Sys2Proof.Claims
end

section
/-!
PROOFS. What reset leaves (R93): every table is empty, so each answer is that of an absent entry.
-/
namespace Sys2Proof.Claims
open Sys2Proof.Machine

/-- Settles O8: the memory of reset is empty, and no group is open. -/
theorem resetKeepsForm : Obligations.ResetKeepsForm := 
  ⟨⟨reset_memory_wf, fun _ h => by cases h⟩, fun _ h => by cases h⟩

/-- A record of length mode 0 decodes to zeros. -/
theorem decodeBlock_zero (p : List Byte) (t : List Nat) : decodeBlock 0 p t = List.replicate 256 0#8 := by
  have hmode : recMode 0 = 0 := by decide
  simp only [decodeBlock, hmode]

/-- Settles O7: by evaluation, register by register; a bank state is two bits of the number 0, and an absent block is a record 0. -/
theorem resetState : Obligations.ResetState := by
  refine ⟨fun cid k sw => ⟨fun n hn => ?_, rfl, rfl, rfl⟩, fun pid b => ?_, fun a => rfl, fun g b => decodeBlock_zero _ _,
    fun g n k => ⟨rfl, rfl⟩, fun t n => rfl⟩
  · fin_cases hn <;> rfl
  · show bits 0#32 (2 * b + 1) (2 * b) = 0
    simp [bits]

end Sys2Proof.Claims
end

section
/-!
PROOFS. Control transfers (R104, R112, R401, R403, R406, R435, R463, R475): the checks of a target, a refused target and one that lets the
transfer commit, and sequential flow over a line.
-/
namespace Sys2Proof.Machine
open Sys2Proof.Claims

/-! ## The begun state -/

/-- A body that needs its own address and faults takes the fault. -/
theorem runPc_faults {s : State} {f : FInfo} (h : s.Running) (body : Word → Run Unit)
    (hb : body s.win.ctl.pc s.begun = .error (.fault f)) : runPc body s = .next (s.faulted f) := by
  rw [runPc, runInstr_running h]
  simp only [bind, StateT.bind, Except.bind, hb]
  rfl

/-- The same for a body that chooses what follows its commit. -/
theorem runInstr_faults {s : State} {f : FInfo} (h : s.Running) (vec : Bool) (body : Word → Run After) (last : Bool)
    (hb : body s.win.ctl.pc s.begun = .error (.fault f)) : runInstr vec body s last = .next (s.faulted f) := by
  rw [runInstr_running h vec body last, hb]; rfl

/-- What an instruction that begins changes of its core: the activation's PC, the cycle and the turn. -/
theorem State.begun_core (s : State) : s.begun.m.core s.cid = { s.m.core s.cid with
    acts := (s.begun.m.core s.cid).acts, last := (s.begun.m.core s.cid).last, turn := (s.begun.m.core s.cid).turn } := by
  simp only [State.begun, State.setPc, State.setWin_m, Module.setWin, Module.onAct, Module.core_onCore]
  rw [Module.issue_core]
  rfl

theorem State.begun_act (s : State) : s.begun.act = { s.act with win := some s.begun.win } := by
  have hk : State.key { s with m := s.m.issue s.cid s.ctx, open_ := some s.groupNow } = s.key := State.key_of_issue s _
  have ha : (s.m.issue s.cid s.ctx).act s.cid s.key = s.act := Module.issue_act ..
  rw [State.act, State.begun_key, State.core, State.begun_cid]
  show s.begun.m.act s.cid s.key = _
  have hb : s.begun.m = (s.m.issue s.cid s.ctx).setWin s.cid s.key s.begun.win := by
    rw [State.begun_win]
    simp only [State.begun, State.setPc, State.setWin_m, hk, State.win_of_issue]
  rw [hb, Module.setWin, Module.act_onAct, ha]

theorem State.begun_pid (s : State) (cid : Nat) : s.begun.m.pid cid = s.m.pid cid := by
  unfold Module.pid Module.lpct Module.site
  rw [State.begun_sites]

/-- What a read of LM gives depends on memory, the pool's descriptor and the LPCT. -/
theorem Module.lmRead_same {m m' : Module} {cid : Nat} (hm : m'.mem = m.mem) (hd : (m'.core cid).desc = (m.core cid).desc)
    (hp : m'.pid cid = m.pid cid) (off n : Nat) : m'.lmRead cid off n = m.lmRead cid off n := by
  unfold Module.lmRead Module.lmByte Module.lmAt
  rw [hm, hd, hp]

theorem State.begun_lmRead (s : State) (off n : Nat) : s.begun.m.lmRead s.cid off n = s.m.lmRead s.cid off n :=
  Module.lmRead_same (State.begun_mem s) (by rw [State.begun_core]) (State.begun_pid ..) ..

/-! ## Targets -/

theorem branchTarget_eq (pc : Word) (ldisp : Int) (slot : Nat) : branchTarget pc ldisp slot = targetOf pc ldisp slot := by
  rw [branchTarget, targetOf, lineBase, trunc64_eq_ofInt, trunc64_eq_ofInt, ← BitVec.ofInt_natCast, ← BitVec.ofInt_natCast, BitVec.ofInt_add,
    BitVec.ofInt_add]
  push_cast
  rfl

theorem ofNat_toNat_word (t : Word) : BitVec.ofNat 64 t.toNat = t := by rw [BitVec.ofNat_toNat, BitVec.setWidth_eq]

/-- What the line of a refused target gives. -/
theorem addrBad_of_refused {s : State} {t : Word} {c : Cause} (h : Refused s t c) :
    ∃ b m, lineFor s.cid s.ctx t s.super s.m = .ok (b, m) ∧ addrBad b t = some c := by
  obtain ⟨b, m, hl, ⟨rfl, hb⟩ | ⟨rfl, hb, ht⟩⟩ := h
  · exact ⟨b, m, hl, addrBad_badline hb t⟩
  · exact ⟨b, m, hl, addrBad_badtgt hb ht⟩

theorem transfer_refused {s : State} {t : Word} {c : Cause} (h : Refused s t c) :
    transfer t s = .error (.fault { cause := c, addr := t }) := by
  obtain ⟨b, m, hl, hb⟩ := addrBad_of_refused h
  rw [transfer, Run.get_bind, hl]
  simp only [hb, Run.raise_run, ofNat_toNat_word]
theorem checkTarget_refused {s : State} {t : Word} {c : Cause} (h : Refused s t c) :
    checkTarget t s = .error (.fault { cause := c, addr := t }) := by
  obtain ⟨b, m, hl, hb⟩ := addrBad_of_refused h
  rw [checkTarget, Run.get_bind, hl]
  simp only [hb, Run.raise_run, ofNat_toNat_word]
theorem fillTarget_refused {s : State} {t : Word} {c : Cause} (h : Refused s t c) :
    fillTarget t s = .error (.fault { cause := c, addr := t }) := by
  obtain ⟨b, m, hl, hb⟩ := addrBad_of_refused h
  rw [fillTarget, Run.get_bind, hl]
  simp only [hb, Run.raise_run, ofNat_toNat_word]

theorem checkTarget_passes {s : State} {t : Word} (h : Passes s t) : checkTarget t s = .ok ((), s) := by
  obtain ⟨b, m, hl, hb⟩ | ⟨f, hl⟩ := h
  · rw [checkTarget, Run.get_bind, hl]
    simp only [hb, Run.pure_run]
  · rw [checkTarget, Run.get_bind, hl]
    rfl

theorem transfer_lands {s u : State} {t : Word} (h : Lands s t u) : transfer t s = .ok ((), u) := by
  obtain ⟨b, m, hl, hb, rfl⟩ | ⟨f, hl, rfl⟩ := h
  · rw [transfer, Run.get_bind, hl]
    simp only [hb, Run.onM_bind]
    rfl
  · rw [transfer, Run.get_bind, hl]
    rfl

/-! ## Calls -/

/-- Operands in address roles leave the PC where it stands. -/
theorem operands_addr_pc {l : List Src} {dst : Option (Put × Opnd)} {s t : State} {vs : List Word} (ha : ∀ o ∈ l, o.use = .addr)
    (h : operands l dst s = .ok (vs, t)) : t.win.ctl.pc = s.win.ctl.pc := by
  obtain ⟨w, rfl, -, -, hctl⟩ := operands_addr_state ha h
  rw [State.win_setWin, hctl]

theorem callTo_run {s s1 u : State} {l : List Src} {vs : List Word} {a : Opnd} {t : Word} (hl : ∀ o ∈ l, o.use = .addr)
    (hr : Reads s l (some (.reg, a)) vs s1) (h : CallsTo s s1 a t u) : callTo a t s1 = .ok ((), u) := by
  obtain ⟨s2, -, hp, hw, hland⟩ := h
  have hpc : s1.win.ctl.pc = seqNext (s.hc s.win.ctl.pc) s.win.ctl.pc := by rw [operands_addr_pc hl hr.2, State.begun_win]
  rw [callTo, Run.bind_ok (checkTarget_passes hp), Run.get_bind, hpc, Run.bind_ok hw, transfer_lands hland]

/-- A call of a target in the code. -/
theorem callRel_run {s s1 u : State} {a : Opnd} {t : Word} (hr : Reads s [] (some (.reg, a)) [] s1) (h : CallsTo s s1 a t u) :
    callRel a t s.begun = .ok ((), u) := by
  rw [callRel, Run.bind_ok (checkTarget_passes (s := s.begun) h.choose_spec.1), Run.bind_ok hr.2]
  exact callTo_run (l := []) (by simp) hr h
theorem callRel_refused {s : State} {a : Opnd} {t : Word} {c : Cause} (h : Refused s.begun t c) :
    callRel a t s.begun = .error (.fault { cause := c, addr := t }) := Run.bind_error (checkTarget_refused h)

/-- A target that an instruction has read is the one that its register names before. -/
theorem checkNamed_eq {s s1 : State} {b : Opnd} {k : Bool} {dst : Option (Put × Opnd)} {l : List Word}
    (h : operands [⟨b, k, .addr⟩] dst s = .ok (l, s1)) : PlainCode b ∧ checkNamed b s = checkTarget (arg l 0) s := by
  have hv : plainValue s.win b = some (arg l 0) := by
    have := congrArg (·[0]?) (operands_addr (by simp) h)
    simp only [List.map_cons, List.getElem?_cons_zero, List.getElem?_map] at this
    obtain ⟨v, hv, hp⟩ := Option.map_eq_some_iff.mp this.symm
    rw [← hp, arg, List.getD_eq_getElem?_getD, hv, Option.getD_some]
  unfold plainValue at hv
  rw [checkNamed, Run.get_bind]
  split at hv
  case isTrue hlt =>
    obtain ⟨⟨hlive, hbad⟩, hgr⟩ : (s.win.live b.toNat = true ∧ s.win.bad.contains b.toNat = false) ∧ s.win.gr b.toNat = arg l 0 := by
      simpa using hv
    rw [if_pos hlt, hlive, hbad, hgr]
    exact ⟨.inl hlt, rfl⟩
  case isFalse hlt =>
    obtain ⟨rfl, h0⟩ : b = 41#6 ∧ 0#64 = arg l 0 := by simpa using hv
    rw [← h0]
    exact ⟨.inr rfl, rfl⟩

/-! ## Sequential flow inside a line -/

theorem lineBase_toNat (pc : Word) : (lineBase pc).toNat = pc.toNat / 64 * 64 := by
  rw [lineBase, BitVec.toNat_ofNat]
  omega

theorem slotOfPc_next {pc : Word} (h : slotOfPc pc < 31) : slotOfPc (pc + 2#64) = slotOfPc pc + 1 := by
  simp only [slotOfPc, bits, Nat.shiftRight_eq_div_pow, BitVec.toNat_add, BitVec.toNat_ofNat] at h ⊢
  omega

theorem lineHc_le (b : List Byte) : lineHc b ≤ 31 := by
  unfold lineHc
  omega

theorem skipFrom_inside {b : List Byte} {n : Nat} {pc : Word} (cid k : Nat) (super : Bool) (h : slotOfPc pc + n ≤ lineHc b) (m : Module) :
    skipFrom cid k super b pc n m = .ok (pc + BitVec.ofNat 64 (2 * n), m) := by
  induction n generalizing pc with
  | zero => simp [skipFrom]
  | succ n ih =>
    have hle := lineHc_le b
    rw [skipFrom, if_pos (by omega)]
    cases n with
    | zero => simp [skipFrom]
    | succ n =>
      have hs : slotOfPc (pc + 2#64) = slotOfPc pc + 1 := slotOfPc_next (by omega)
      rw [ih (by omega), BitVec.add_assoc]
      congr 3
      rw [show 2 * (n + 1 + 1) = 2 + 2 * (n + 1) by omega, BitVec.ofNat_add]

/-! ## URET -/

theorem noQueue_bind {α : Type} {s : State} (h : s.ldQ = [] ∧ s.sdQ = []) (f : Unit → Run α) : (noQueue >>= f) s = f () s := by
  refine Run.bind_ok ?_
  rw [noQueue, Run.get_bind, h.1, h.2]
  rfl

/-- What URET does once it goes back to its activation (R351). -/
def uretBack : Run After := do
  let s ← get
  fillTarget s.win.ctl.waita
  let s ← get
  let (m, w) := s.m.unwind s.cid s.win
  set { s with m := m }
  Run.onWin fun _ => w
  return .step 0 0

theorem uret_goes {s : State} (h : GoesBack s) : exec .uret s = outcomeOf s (uretBack s.begun) := by
  obtain ⟨hr, hu, hq, hpw, hc⟩ := h
  have hupc : (!swUpc s.begun.win.ctl.sw) = false := by
    rw [State.begun_win]
    simpa [swUpc, State.sw] using hu
  have hwait : s.begun.win.ctl.waitv = s.win.ctl.waitv := by rw [State.begun_win]
  have hcancel : s.begun.act.pwCancel = false := by rw [State.begun_act]; exact hc
  refine (runInstr_running hr false _ false).trans ?_
  simp only [Run.get_bind, hupc, Run.stopIf_false]
  rw [noQueue_bind (by simpa using hq)]
  have hpage : ¬ (FaultRec.decode (s.begun.m.lmRead s.begun.cid (s.begun.win.ctl.waitv.toNat % 2 ^ 19) 64)).pw = true := by
    rw [State.begun_cid, State.begun_lmRead, hwait, hpw]
    decide
  rw [if_neg hpage, if_neg (by rw [hcancel]; decide)]
  rfl

end Sys2Proof.Machine

namespace Sys2Proof.Claims
open Sys2Proof.Machine

/-- Settles O36: a refused target stops the body before anything is written. -/
theorem refusedTransfers : Obligations.RefusedTransfers := by
  refine ⟨fun f s c hr h => runPc_faults hr _ ?_, fun f s c hr h => runPc_faults hr _ ?_, fun f s c hr h => runPc_faults hr _ ?_,
    fun f s c hr h => runPc_faults hr _ ?_, fun f s s1 l c hr hc h => runPc_faults hr.1 _ ?_,
    fun f s s1 l c hr hc h => runPc_faults hr.1 _ ?_, fun s c h hf => (uret_goes h).trans ?_,
    fun f s s1 l c hr h => ⟨run_faults hr.1 _ ?_, run_faults hr.1 _ ?_⟩, fun f s s1 l c hr h => run_faults hr.1 _ ?_⟩
  · exact (branchTarget_eq ..).symm ▸ callRel_refused h
  · exact (branchTarget_eq ..).symm ▸ callRel_refused h
  · exact (branchTarget_eq ..).symm ▸ transfer_refused h
  · exact (branchTarget_eq ..).symm ▸ transfer_refused h
  · rw [branchIf, Run.bind_ok hr.2, holds_eq_condOf, if_pos hc, branchTarget_eq, transfer_refused h]
  · rw [branchIf, Run.bind_ok hr.2, holds_eq_condOf, if_pos hc, branchTarget_eq, transfer_refused h]
  · have hw : s.begun.win.ctl.waita = s.win.ctl.waita := by rw [State.begun_win]
    rw [uretBack, Run.get_bind, hw, Run.bind_error (fillTarget_refused hf)]
    rfl
  · rw [jumpTo, Run.bind_ok hr.2, transfer_refused h]
  · rw [jumpTo, Run.bind_ok hr.2, transfer_refused h]
  · obtain ⟨hp, hn⟩ := checkNamed_eq hr.2
    have hb : Refused s.begun (arg l 0) c := by
      rcases h with ⟨-, h⟩ | ⟨h, -⟩
      · exact h
      · exact absurd hp h
    exact Run.bind_error (hn.trans (checkTarget_refused hb))

/-- A transfer in the code and one to a register's value complete where they land. -/
theorem branchIf_lands {b c : Opnd} {kb kc : Bool} {cond : Cond} {t : Word} {s s1 u : State} {l : List Word}
    (hr : Reads s [⟨b, kb, .addr⟩, ⟨c, kc, .addr⟩] none l s1) (hc : condOf cond (arg l 0) (arg l 1) = true) (h : Lands s1 t u) :
    branchIf b c kb kc cond t s.begun = .ok ((), u) := by
  rw [branchIf, Run.bind_ok hr.2, holds_eq_condOf, if_pos hc, transfer_lands h]
theorem branchIf_passes {b c : Opnd} {kb kc : Bool} {cond : Cond} {t : Word} {s s1 : State} {l : List Word}
    (hr : Reads s [⟨b, kb, .addr⟩, ⟨c, kc, .addr⟩] none l s1) (hc : condOf cond (arg l 0) (arg l 1) = false) :
    branchIf b c kb kc cond t s.begun = .ok ((), s1) := by
  rw [branchIf, Run.bind_ok hr.2, holds_eq_condOf, hc]
  rfl
theorem jumpTo_lands {f : Src1} {s s1 u : State} {l : List Word} (hr : Reads s [⟨f.b, f.kb, .addr⟩] none l s1) (h : Lands s1 (arg l 0) u) :
    jumpTo f s.begun = .ok ((), u) := by
  rw [jumpTo, Run.bind_ok hr.2, transfer_lands h]

/-- SKIP from a state in which its operands have been read. -/
theorem skip_retires {f : SkipF} {s s1 : State} {l : List Word} (hr : Reads s [⟨f.b, f.kb, .addr⟩, ⟨f.c, f.kc, .addr⟩] none l s1)
    (hc : condOf f.cond (arg l 0) (arg l 1) = true) {b : List Byte} {who : Nat}
    (hl : (s1.core.ctx s1.ctx).line = some ⟨s.win.ctl.pc.toNat / 64 * 64, b, who⟩) {t : Word} {m : Module}
    (hs : skipFrom s1.cid s1.ctx s1.super b s.win.ctl.pc (f.n.toNat + 2) s1.m = .ok (t, m)) :
    exec (.skip f) s = .next (s.retire (State.setPc { s1 with m := m } t)) := by
  refine runPc_retires hr.1 _ ((Run.bind_ok hr.2).trans ?_)
  rw [holds_eq_condOf, if_pos hc, Run.get_bind, hl]
  dsimp only
  rw [if_pos (lineBase_toNat _).symm, Run.lift_ok hs]
  rfl

/-- Settles O37: the checks that the statement names let each transfer commit. -/
theorem controlTransfersComplete : Obligations.ControlTransfersComplete := by
  refine ⟨fun f s s1 s2 u hr => ⟨fun hw => runPc_retires hr.1 _ ((Run.bind_ok hr.2).trans ?_), fun h => runPc_retires hr.1 _ ?_⟩,
    fun f s s1 s2 u hr => ⟨fun hw => runPc_retires hr.1 _ ((Run.bind_ok hr.2).trans ?_), fun h => runPc_retires hr.1 _ ?_⟩,
    fun f s u hr h => runPc_retires hr _ ((branchTarget_eq ..).symm ▸ transfer_lands h),
    fun f s u hr h => runPc_retires hr _ ((branchTarget_eq ..).symm ▸ transfer_lands h),
    fun f s s1 u l hr => ⟨fun hc => runPc_retires hr.1 _ (branchIf_passes hr hc),
      fun hc h => runPc_retires hr.1 _ ((branchTarget_eq ..).symm ▸ branchIf_lands hr hc h)⟩,
    fun f s s1 u l hr => ⟨fun hc => runPc_retires hr.1 _ (branchIf_passes hr hc),
      fun hc h => runPc_retires hr.1 _ ((branchTarget_eq ..).symm ▸ branchIf_lands hr hc h)⟩,
    fun f s s1 u l hr h => ⟨run_retires hr.1 _ (jumpTo_lands hr h), run_retires hr.1 _ (jumpTo_lands hr h)⟩,
    fun f s s1 u l hr h => run_retires hr.1 _ ?_,
    fun f s s1 l hr => ⟨fun hc => runPc_retires hr.1 _ ((Run.bind_ok hr.2).trans ?_), fun b who hc hl => ⟨fun hin => ?_,
      fun t m' hs => skip_retires hr hc hl hs⟩⟩⟩
  · rw [branchTarget_eq, hw]
  · exact (branchTarget_eq ..).symm ▸ callRel_run hr h
  · rw [branchTarget_eq, hw]
  · exact (branchTarget_eq ..).symm ▸ callRel_run hr h
  · rw [Run.bind_ok ((checkNamed_eq hr.2).2.trans (checkTarget_passes h.choose_spec.1)), Run.bind_ok hr.2]
    exact callTo_run (by simp) hr h
  · rw [holds_eq_condOf, hc]
    rfl
  · exact skip_retires hr hc hl (skipFrom_inside _ _ _ (by omega) _)

end Sys2Proof.Claims
end

section
/-!
PROOFS. Exceptions (R345, R349, R352, R362, R482): which faults are upcalls, the record of a fault, and the commit of an instruction that a
trap follows.
-/
namespace Sys2Proof.Machine
open Sys2Proof.Claims

/-- The record of a fault has the fields that every record has. -/
theorem recOf_eq (m : Module) (cid : Nat) (w : Win) (f : FInfo) (pc : Word) (kind : Nat) :
    m.recOf cid w f pc kind = { recordOf m cid w f pc with kind := kind } := rfl

theorem upcall_iff (c : Cause) (sub : Nat) : c.upcall sub = true ↔ UpcallCause c sub := by
  cases c <;> simp [Cause.upcall, UpcallCause]

theorem upcallOk_iff {m : Module} {cid key : Nat} {w : Win} {f : FInfo} (hw : (m.act cid key).win = some w) :
    m.upcallOk cid key w f = true ↔ Upcalls m cid key w f := by
  simp only [Module.upcallOk, Bool.and_eq_true, Bool.not_eq_true', decide_eq_true_eq, upcall_iff]
  constructor
  · rintro ⟨⟨⟨⟨⟨⟨hc, hh⟩, hu⟩, hp⟩, he⟩, hk⟩, hr⟩
    exact ⟨hw, hk, hc, hh, hu, hp, he, hr⟩
  · rintro ⟨-, hk, hc, hh, hu, hp, he, hr⟩
    exact ⟨⟨⟨⟨⟨⟨hc, hh⟩, hu⟩, hp⟩, he⟩, hk⟩, hr⟩

/-! ## The commit of an instruction that closes its group -/

theorem groupNow_of_none {s : State} (h : s.open_ = none) : s.groupNow = ⟨s.m.issue s.cid s.ctx, [], [], 0, 0, none⟩ := by
  simp [State.groupNow, h]

@[simp] theorem closed_key (s : State) : (closed s s.begun).key = s.key := by
  rw [← State.begun_key s]
  simp only [State.key, closed, State.core, State.begun_cid, Module.core_onCore]
  rfl

/-- The window of the activation that has committed. -/
theorem closed_win (s : State) : ((closed s s.begun).m.act s.cid s.key).win = some (closed s s.begun).win := by
  have h : (closed s s.begun).m.act s.cid s.key = s.begun.act := by
    rw [State.act, State.begun_key]
    simp only [closed, Module.act, Module.core_onCore, State.core, State.begun_cid]
    rfl
  have hc : (closed s s.begun).act = (closed s s.begun).m.act s.cid s.key := by
    rw [State.act, closed_key]; rfl
  rw [State.win, hc, h, State.begun_act]
  rfl

theorem commit_brkpt {s : State} (h : s.open_ = none) (pc : Word) (ss : Bool) : s.begun.commit s.key pc ss .brkpt =
    { closed s s.begun with m := (closed s s.begun).m.afterTrap s.cid s.key { cause := .brkpt } pc } := by
  rw [State.commit, State.begun_open, groupNow_of_none h]
  rfl
theorem commit_call {s : State} (h : s.open_ = none) (pc : Word) (ss : Bool) (f : FInfo) : s.begun.commit s.key pc ss (.call f) =
    let t := closed s s.begun
    { t with m := if t.m.upcallOk s.cid s.key t.win f then t.m.upcallAct s.cid s.key t.win f pc
                  else t.m.trapAct s.cid s.key (t.m.recOf s.cid t.win f pc 1) } := by
  rw [State.commit, State.begun_open, groupNow_of_none h]
  rfl

/-! ## TRAP and SVC -/

theorem callBody_super {s : State} (h : s.super = true) (c : Cause) (f : Nat) (code : BitVec 16) :
    callBody c f code s.begun = .error (.fault { cause := .illop }) := by
  rw [callBody, Run.get_bind, State.begun_super, h, Run.stopIf_true]
  rfl

theorem callBody_user {s : State} (hs : s.super = false) (ho : s.open_ = none) (c : Cause) (f : Nat) (code : BitVec 16) :
    callBody c f code s.begun = .ok (.call { cause := c, addr := reqAddr f code, req := true }, s.begun) := by
  rw [callBody, Run.get_bind, State.begun_super, hs, Run.stopIf_false, noQueue_bind]
  · rfl
  · rw [State.begun_ldQ, State.begun_sdQ, State.ldQ, State.sdQ, ho]
    exact ⟨rfl, rfl⟩

theorem reqAddr_zero (code : BitVec 16) : reqAddr 0 code = code.zeroExtend 64 := by
  rw [reqAddr, ← BitVec.toNat_inj]
  simp
theorem reqAddr_one (code : BitVec 16) : reqAddr 1 code = 0x10000#64 + code.zeroExtend 64 := by
  rw [reqAddr, ← BitVec.toNat_inj]
  simp

end Sys2Proof.Machine

namespace Sys2Proof.Claims
open Sys2Proof.Machine

theorem runs_call {s : State} (hr : s.Running) (hs : s.super = false) (ho : s.open_ = none) (c : Cause) (f : Nat) (code : BitVec 16) :
    runInstr false (fun _ => callBody c f code) s true = .next (s.begun.commit s.key s.win.ctl.pc (swSs s.sw)
      (.call { cause := c, addr := reqAddr f code, req := true })) := by
  rw [runInstr_running hr false _ true, callBody_user hs ho]
  rfl

/-- Settles O50: the commit closes the group, and what follows it is the entry itself. -/
theorem trapInstructions : Obligations.TrapInstructions := by
  refine ⟨fun s hr => run_retires hr _ rfl, fun s hr ho => ?_, fun f s hr ho hs => ⟨fun hu => ?_, fun hu => ?_⟩,
    fun f s hr hs => ⟨runInstr_faults hr _ _ true (callBody_super hs ..), runInstr_faults hr _ _ true (callBody_super hs ..)⟩,
    fun f s hr ho hs => ?_⟩
  · refine (runInstr_running hr false _ false).trans ?_
    show Host.Outcome.next _ = _
    rw [commit_brkpt ho, Module.afterTrap, closed_win s]
    rfl
  · refine (runs_call hr hs ho ..).trans ?_
    rw [commit_call ho, reqAddr_zero]
    dsimp only
    rw [if_pos ((upcallOk_iff (closed_win s)).mpr hu)]
  · refine (runs_call hr hs ho ..).trans ?_
    rw [commit_call ho, reqAddr_zero]
    dsimp only
    rw [if_neg fun h => hu ((upcallOk_iff (closed_win s)).mp h)]
    rfl
  · refine (runs_call hr hs ho ..).trans ?_
    have hn : ¬ (closed s s.begun).m.upcallOk s.cid s.key (closed s s.begun).win
        { cause := .hblock, addr := reqAddr 1 f.code, req := true } = true := fun h => by
      simpa [UpcallCause] using ((upcallOk_iff (closed_win s)).mp h).cause
    rw [commit_call ho, ← reqAddr_one]
    dsimp only
    rw [if_neg hn]
    rfl

end Sys2Proof.Claims
end

section
/-!
PROOFS. The end of an activation (R44, R52, R311, R314): its ports close, which touches nothing but ports and words on the way; its slot,
context, monitors and barrier waits are free, and stay so whatever the records of its late faults wake.
-/
namespace Sys2Proof.Machine
open Sys2Proof.Claims

/-! ## Tables -/

theorem Tab.find_del_same {α : Type} (t : Tab α) (i : Nat) : Tab.find (Tab.del t i) i = none := by
  induction t with
  | nil => rfl
  | cons e t ih =>
    obtain ⟨k, v⟩ := e
    rw [Tab.del]
    split
    · exact ih
    next h => rw [Tab.find, if_neg h, ih]

theorem Tab.get_of_find {α : Type} {d : α} {t : Tab α} {i : Nat} (h : Tab.find t i = none) : Tab.get d t i = d := by
  induction t with
  | nil => rfl
  | cons e t ih =>
    obtain ⟨k, v⟩ := e
    rw [Tab.find] at h
    split at h
    · cases h
    next hk => rw [Tab.get, if_neg hk, ih h]

/-! ## Ports -/

/-- Only ports and words on their way change from m to m'. -/
structure PortsOnly (m m' : Module) : Prop where
  core : ∀ c, ∃ p, m'.core c = { m.core c with ports := p }
  rest : m' = { m with cores := m'.cores, flits := m'.flits }

theorem PortsOnly.refl (m : Module) : PortsOnly m m := ⟨fun c => ⟨(m.core c).ports, rfl⟩, rfl⟩
theorem PortsOnly.trans {a b c : Module} (h : PortsOnly a b) (h' : PortsOnly b c) : PortsOnly a c := by
  refine ⟨fun k => ?_, ?_⟩
  · obtain ⟨p, hp⟩ := h.core k
    obtain ⟨q, hq⟩ := h'.core k
    exact ⟨q, by rw [hq, hp]⟩
  · rw [h'.rest, h.rest]

theorem portsOnly_onCore (m : Module) (cid : Nat) (g : Core → Core) (hg : ∀ c, ∃ p, g c = { c with ports := p }) :
    PortsOnly m (m.onCore cid g) := by
  refine ⟨fun c => ?_, rfl⟩
  by_cases hc : c = cid
  · subst hc
    rw [Module.core_onCore]
    exact hg _
  · exact ⟨(m.core c).ports, by rw [Module.core_onCore_other _ _ _ _ hc]⟩

theorem portsOnly_breakRoute (m : Module) (scid sid : Nat) : PortsOnly m (m.breakRoute scid sid) :=
  PortsOnly.trans (b := { m with flits := m.flits.filter fun f => !(f.scid == scid && f.sid == sid) }) ⟨fun c => ⟨(m.core c).ports, rfl⟩, rfl⟩
    (portsOnly_onCore _ _ _ fun c => ⟨_, rfl⟩)

theorem portsOnly_endRecv (m : Module) (cid n : Nat) : PortsOnly m (m.endRecv cid n) := by
  unfold Module.endRecv
  split
  next r _ =>
    have h := portsOnly_onCore m cid (fun c => { c with ports := { c.ports with recv := Tab.del c.ports.recv n } }) fun c => ⟨_, rfl⟩
    dsimp only
    split
    next sc si _ =>
      split
      · exact h
      · exact h.trans (portsOnly_breakRoute ..)
    · exact h
  · exact .refl m

/-- What a relation that is reflexive and transitive has at every step of a fold, it has of the fold. -/
theorem portsOnly_foldl {β : Type} (g : Module → β → Module) (hg : ∀ m b, PortsOnly m (g m b)) (l : List β) (m : Module) :
    PortsOnly m (l.foldl g m) := by
  induction l generalizing m with
  | nil => exact .refl m
  | cons b l ih => exact (hg m b).trans (ih _)

theorem portsOnly_closePorts (m : Module) (cid aid : Nat) : PortsOnly m (m.closePorts cid aid) := by
  refine (portsOnly_onCore m cid _ fun c => ⟨_, rfl⟩).trans (portsOnly_foldl _ (fun m n => ?_) _ _)
  split
  · exact portsOnly_endRecv ..
  · exact .refl m

/-! ## What the release leaves -/

/-- No activation has the slot, it is free, the contexts of K hold none, and no monitor and no barrier waiter names it. -/
structure Released (cid key : Nat) (K : Nat → Prop) (m : Module) : Prop where
  act : Tab.find (m.core cid).acts key = none
  held : bit (m.core cid).desc.held key = false
  ctx : ∀ k, K k → ((m.core cid).ctx k).act = none
  mons : ∀ o ∈ (m.core cid).mons, o.key ≠ key
  bwait : ∀ w ∈ m.bwait, ¬ (w.cid = cid ∧ w.key = key)

variable {cid key : Nat} {K : Nat → Prop}

theorem Released.congr {m m' : Module} (h : Released cid key K m) (ha : (m'.core cid).acts = (m.core cid).acts)
    (hd : (m'.core cid).desc = (m.core cid).desc) (hc : ∀ k, ((m'.core cid).ctx k).act = ((m.core cid).ctx k).act)
    (hm : (m'.core cid).mons = (m.core cid).mons) (hb : m'.bwait = m.bwait) : Released cid key K m' :=
  ⟨by rw [ha]; exact h.act, by rw [hd]; exact h.held, fun k hk => by rw [hc]; exact h.ctx k hk, by rw [hm]; exact h.mons,
    by rw [hb]; exact h.bwait⟩

/-- A core's other fields do not matter. -/
theorem Released.onCore {m : Module} (h : Released cid key K m) (c : Nat) (g : Core → Core)
    (hg : (g (m.core c)).acts = (m.core c).acts ∧ (g (m.core c)).desc = (m.core c).desc ∧ (g (m.core c)).ctxs = (m.core c).ctxs ∧
      (g (m.core c)).mons = (m.core c).mons) : Released cid key K (m.onCore c g) := by
  by_cases hc : cid = c
  · subst hc
    obtain ⟨ha, hd, hx, hm⟩ := hg
    refine h.congr ?_ ?_ (fun k => ?_) ?_ rfl <;> rw [Module.core_onCore]
    · exact ha
    · exact hd
    · rw [Core.ctx, hx]; rfl
    · exact hm
  · have hk : (m.onCore c g).core cid = m.core cid := Module.core_onCore_other _ _ _ _ hc
    exact h.congr (by rw [hk]) (by rw [hk]) (fun k => by rw [hk]) (by rw [hk]) rfl

/-- Nor do other activations. -/
theorem Released.onAct {m : Module} (h : Released cid key K m) {c k : Nat} (hn : ¬ (c = cid ∧ k = key)) (f : Act → Act) :
    Released cid key K (m.onAct c k f) := by
  by_cases hc : cid = c
  · subst hc
    have hk : key ≠ k := fun e => hn ⟨rfl, e.symm⟩
    refine ⟨?_, ?_, fun j hj => ?_, ?_, h.bwait⟩ <;> rw [Module.onAct, Module.core_onCore]
    · rw [Core.onAct, Core.setAct, Tab.find_put_other _ _ _ _ hk]
      exact h.act
    · exact h.held
    · exact h.ctx j hj
    · exact h.mons
  · have hk : (m.onAct c k f).core cid = m.core cid := Module.core_onCore_other _ _ _ _ hc
    exact h.congr (by rw [hk]) (by rw [hk]) (fun k => by rw [hk]) (by rw [hk]) rfl

theorem Released.touched {m : Module} (h : Released cid key K m) (c off n : Nat) : Released cid key K (m.touched c off n) := by
  unfold Module.touched
  split
  · split
    · exact h
    · exact h.congr rfl rfl (fun _ => rfl) rfl rfl
  · exact h

theorem Released.setCtl {m : Module} (h : Released cid key K m) {c k : Nat} (hn : ¬ (c = cid ∧ k = key)) (x : Ctl) :
    Released cid key K (m.setCtl c k x) := by
  unfold Module.setCtl
  generalize x.encode = bs
  dsimp only
  split
  · exact h.onAct hn _
  · split
    · exact (h.touched c _ 64).congr rfl rfl (fun _ => rfl) rfl rfl
    · exact h

theorem Released.wake {m : Module} (h : Released cid key K m) {c k : Nat} (hn : ¬ (c = cid ∧ k = key)) (r : Option Word) :
    Released cid key K (m.wake c k r) := (h.setCtl hn _).onAct hn _

theorem Released.dropMon {m : Module} (h : Released cid key K m) (c k : Nat) : Released cid key K (m.onCore c (·.dropMon k)) := by
  by_cases hc : cid = c
  · subst hc
    refine ⟨?_, ?_, fun j hj => ?_, ?_, h.bwait⟩ <;> rw [Module.core_onCore]
    · exact h.act
    · exact h.held
    · exact h.ctx j hj
    · exact fun o ho => h.mons o (List.mem_of_mem_filter ho)
  · have hk : (m.onCore c (·.dropMon k)).core cid = m.core cid := Module.core_onCore_other _ _ _ _ hc
    exact h.congr (by rw [hk]) (by rw [hk]) (fun k => by rw [hk]) (by rw [hk]) rfl

theorem dropResv_act (c : Core) (loc n k : Nat) : ((c.dropResv loc n).ctx k).act = (c.ctx k).act := by
  have h : (c.dropResv loc n).ctx k = (c.ctx k).dropResv loc n := by
    exact Tab.get_map (d := ({} : Ctx)) (e := ({} : Ctx)) (fun x => x.dropResv loc n) rfl c.ctxs k
  rw [h, Ctx.dropResv]
  split
  · split <;> rfl
  · rfl

/-- A slot without an activation waits for nothing, and every other monitor may fire. -/
theorem Released.fire {m : Module} (h : Released cid key K m) (c k : Nat) : Released cid key K (m.fire c k) := by
  by_cases hn : c = cid ∧ k = key
  · obtain ⟨rfl, rfl⟩ := hn
    have hw : (m.act c k).wait = .nothing := congrArg Act.wait (Tab.get_of_find h.act)
    rw [Module.fire, hw]
    exact h
  · unfold Module.fire
    split
    · exact (h.dropMon c k).wake hn _
    · exact h.onAct hn _
    · exact h

theorem Released.foldl {β : Type} {l : List β} (P : β → Prop) (hl : ∀ b ∈ l, P b) (g : Module → β → Module)
    (hg : ∀ m b, P b → Released cid key K m → Released cid key K (g m b)) {m : Module} (h : Released cid key K m) :
    Released cid key K (l.foldl g m) := by
  induction l generalizing m with
  | nil => exact h
  | cons b l ih => exact ih (fun b hb => hl b (List.mem_cons_of_mem _ hb)) (hg m b (hl b (List.mem_cons_self ..)) h)

theorem Released.noteLines {m : Module} (h : Released cid key K m) (loc n : Nat) : Released cid key K (m.noteLines loc n) := by
  refine Released.foldl (fun _ => True) (fun _ _ => trivial) _ (fun m p _ h => h.fire p.1 p.2) ?_
  have hcore : ({ m with cores := m.cores.map fun e => (e.1, e.2.dropResv loc n) } : Module).core cid = (m.core cid).dropResv loc n := by
    exact Tab.get_map (d := ({} : Core)) (e := ({} : Core)) (fun x => x.dropResv loc n) rfl m.cores cid
  refine h.congr (by rw [hcore]; rfl) (by rw [hcore]; rfl) (fun k => ?_) (by rw [hcore]; rfl) rfl
  rw [hcore]
  exact dropResv_act ..

theorem Released.noteBars {m : Module} (h : Released cid key K m) (loc n : Nat) : Released cid key K (m.noteBars loc n) := by
  unfold Module.noteBars
  rw [List.partition_eq_filter_filter]
  refine Released.foldl (fun w => ¬ (w.cid = cid ∧ w.key = key)) (fun w hw => h.bwait w (List.mem_of_mem_filter hw)) _
    (fun m w hw h => h.wake hw _) ?_
  exact ⟨h.act, h.held, h.ctx, h.mons, fun w hw => h.bwait w (List.mem_of_mem_filter hw)⟩

theorem Released.lmPut {m : Module} (h : Released cid key K m) (c off : Nat) (bs : List Byte) : Released cid key K (m.lmPut c off bs) := by
  have h1 : Released cid key K { m.touched c off bs.length with
      mem := Mem.write (m.touched c off bs.length).mem (m.lmAt c off) bs, quar := clearQuar (m.touched c off bs.length).quar (m.lmAt c off) bs.length
      upsets := clearUpset (m.touched c off bs.length).upsets (m.lmAt c off) bs.length } :=
    (h.touched c off bs.length).congr rfl rfl (fun _ => rfl) rfl rfl
  exact (h1.noteLines _ _).noteBars _ _

theorem Released.contain {m : Module} (h : Released cid key K m) (c : Nat) (r : FaultRec) : Released cid key K (m.contain c r) := by
  unfold Module.contain
  split
  next m' hp =>
    unfold Module.pushSup at hp
    dsimp only at hp
    split at hp
    · cases hp
    · cases hp
      exact (h.lmPut ..).onCore _ _ ⟨rfl, rfl, rfl, rfl⟩
  · exact h.onCore _ _ ⟨rfl, rfl, rfl, rfl⟩

theorem Released.uncancel {m : Module} (h : Released cid key K m) (c : Nat) (q : Option (Bool × Nat)) :
    Released cid key K (m.uncancel c q) := by
  cases q with
  | none => exact h
  | some q =>
    obtain ⟨b, q⟩ := q
    cases b <;> exact h.congr rfl rfl (fun _ => rfl) rfl rfl

theorem Released.lateAway {m : Module} (h : Released cid key K m) (c aid : Nat) (x : LatePend) :
    Released cid key K (m.lateAway c aid x) := (h.uncancel c x.q).contain _ _

theorem Released.of_portsOnly {m m' : Module} (h : Released cid key K m) (hp : PortsOnly m m') : Released cid key K m' := by
  obtain ⟨p, hc⟩ := hp.core cid
  have hb : m'.bwait = m.bwait := by rw [hp.rest]
  exact h.congr (by rw [hc]) (by rw [hc]) (fun k => by rw [hc]; rfl) (by rw [hc]) hb

/-! ## The release -/

/-- The activation and its slot gone, before its ports close. -/
def Module.vacated (m : Module) (cid key : Nat) : Module :=
  let a := m.act cid key
  let m := m.countFixed cid ((a.win.map (·.fixed)).getD 0)
  let m := match a.ctx? with
    | some k => m.freeCtx cid k
    | none => m
  let m := m.onCore cid fun c =>
    { c.freeWin a.win with
             acts := Tab.del c.acts key
             desc := if key < 64 then { c.desc with held := setBits c.desc.held key key 0 } else c.desc
             mons := c.mons.filter (·.key ≠ key), vcancel := c.vcancel.filter (· ≠ key) }
  { m with bwait := m.bwait.filter (fun w => !(w.cid == cid && w.key == key))
           bdone := m.bdone.filter (fun w => !(w.cid == cid && w.key == key)) }

theorem Module.release_eq (m : Module) (cid key : Nat) : m.release cid key =
    (m.act cid key).late.foldl (fun n x => n.lateAway cid (m.ctlOf cid key).aid x) ((m.vacated cid key).closePorts cid (m.ctlOf cid key).aid) :=
  rfl

theorem freeWin_ctx (c : Core) (w : Option Win) (k : Nat) : (c.freeWin w).ctx k = c.ctx k := by cases w <;> rfl

theorem released_vacated {m : Module} (cid : Nat) {key : Nat} (hk : key < 64) :
    Released cid key (fun k => (m.act cid key).st = .issuing k) (m.vacated cid key) := by
  unfold Module.vacated
  extract_lets a m1 m2 m3
  have hcore : m3.core cid = { (m2.core cid).freeWin a.win with
      acts := Tab.del (m2.core cid).acts key
      desc := if key < 64 then { (m2.core cid).desc with held := setBits (m2.core cid).desc.held key key 0 } else (m2.core cid).desc
      mons := (m2.core cid).mons.filter (·.key ≠ key), vcancel := (m2.core cid).vcancel.filter (· ≠ key) } := Module.core_onCore ..
  refine ⟨?_, ?_, fun k hst => ?_, fun o ho => ?_, fun w hw => ?_⟩
  · show Tab.find (m3.core cid).acts key = none
    rw [hcore]
    exact Tab.find_del_same ..
  · show bit (m3.core cid).desc.held key = false
    rw [hcore, if_pos hk]
    exact (bit_setBits_one _ key 0 hk).trans (if_pos rfl)
  · show ((m3.core cid).ctx k).act = none
    have hst' : a.ctx? = some k := by rw [Act.ctx?, hst]
    rw [hcore]
    show (((m2.core cid).freeWin a.win).ctx k).act = none
    rw [freeWin_ctx]
    have h2 : m2 = m1.freeCtx cid k := by
      show (match a.ctx? with | some k => m1.freeCtx cid k | none => m1) = _
      rw [hst']
    rw [h2, Module.freeCtx, Module.core_onCore, Core.ctx_onCtx]
  · replace ho : o ∈ (m3.core cid).mons := ho
    rw [hcore] at ho
    simpa using (List.mem_filter.mp ho).2
  · rintro ⟨hc, hn⟩
    simp [hc, hn] at hw

end Sys2Proof.Machine

namespace Sys2Proof.Claims
open Sys2Proof.Machine

/-- Settles O39: what the release leaves, the records of late faults keep. -/
theorem endReleases : Obligations.EndReleases := by
  intro m cid key hk t
  have h0 := (released_vacated (m := m) cid hk).of_portsOnly (portsOnly_closePorts _ cid (m.ctlOf cid key).aid)
  have h : Released cid key (fun k => (m.act cid key).st = .issuing k) t :=
    Released.foldl (fun _ => True) (fun _ _ => trivial) _ (fun m x _ h => h.lateAway ..) h0
  exact ⟨h.act, h.held, h.ctx, h.mons, h.bwait⟩

end Sys2Proof.Claims
end

section
/-!
PROOFS. The device's own writes to LM (R38, R85, R352): where nobody watches, they change the bytes of their range and nothing that other
operations look at; the write-back of a window is one of them.
-/
namespace Sys2Proof.Machine
open Sys2Proof.Claims

/-! ## Banks -/

/-- A bank holds its contents, or will. -/
def Phys.usable (p : Phys) (b : Nat) : Bool :=
  match p.touch b with
  | .ok _ => true
  | .waking => true
  | _ => false

theorem Module.lmUsable_eq (m : Module) (cid off n : Nat) : m.lmUsable cid off n = (banksOf off n).all (m.phy (m.pid cid)).usable := rfl

theorem usable_eq (p : Phys) (b : Nat) : p.usable b = (!bit p.failed b && decide (p.bank b ≠ 2)) := by
  unfold Phys.usable Phys.touch
  cases bit p.failed b with
  | true => rfl
  | false =>
    simp only [Bool.false_eq_true, if_false]
    match p.bank b with
    | 0 => rfl
    | 1 => rfl
    | 2 => rfl
    | n + 3 => simp

theorem bank_high (p : Phys) {b : Nat} (hb : 16 ≤ b) : p.bank b = 0 := by
  have h : p.lm.toNat >>> (2 * b) = 0 := by
    rw [Nat.shiftRight_eq_div_pow]
    exact Nat.div_eq_of_lt (p.lm.isLt.trans_le (Nat.pow_le_pow_right (by decide) (by omega)))
  rw [Phys.bank, bits, h, Nat.zero_mod]

/-- An access changes no bank but one in RETAIN, which it brings to FULL. -/
theorem usable_touch {p q : Phys} {b : Nat} (h : p.touch b = .ok q) (k : Nat) : q.usable k = p.usable k := by
  unfold Phys.touch at h
  split at h
  · cases h
  · split at h <;> cases h
    · rfl
    next hb =>
      have hb16 : b < 16 := by
        by_contra hn
        rw [bank_high p (by omega)] at hb
        cases hb
      rw [usable_eq, usable_eq]
      show (!bit p.failed k && _) = _
      by_cases hk : k = b
      · subst hk
        rw [bank_setBank_same p hb16 (by decide), hb]
        rfl
      · by_cases hk16 : k < 16
        · rw [bank_setBank_other p 0 hk16 hk]
        · rw [bank_high p (by omega), bank_high (p.setBank b 0) (by omega)]

theorem usable_touchAll {p q : Phys} {l : List Nat} (h : p.touchAll l = .ok q) (k : Nat) : q.usable k = p.usable k := by
  induction l generalizing p with
  | nil => cases h; rfl
  | cons b l ih =>
    rw [Phys.touchAll] at h
    split at h
    next p' hp => rw [ih h, usable_touch hp]
    next hne => exact absurd h (hne q)

/-! ## Writes -/

/-- From m to m' memory, words in error, cores, banks and sites may have changed, and nothing else. -/
abbrev SameRest (m m' : Module) : Prop :=
  m' = { m with mem := m'.mem, quar := m'.quar, upsets := m'.upsets, cores := m'.cores, phys := m'.phys, sites := m'.sites }

theorem SameRest.trans {a b c : Module} (h : SameRest a b) (h' : SameRest b c) : SameRest a c := by
  unfold SameRest
  rw [h', h]

/-- From m to m' bytes of a range have been written that nobody watches. -/
structure Written (m m' : Module) (loc n : Nat) : Prop where
  mem : ∀ a, a < loc ∨ loc + n ≤ a → Mem.get m'.mem a = Mem.get m.mem a
  wf : Mem.wf m.mem = true → Mem.wf m'.mem = true
  core : ∀ c, ∃ x, m'.core c = { m.core c with ctxs := x }
  ctx : ∀ c k, ((m'.core c).ctx k).act = ((m.core c).ctx k).act
  watched : ∀ a k, m.watched a k = [] → m'.watched a k = []
  usable : ∀ c off k, m'.lmUsable c off k = m.lmUsable c off k
  bad : ∀ a k, m.bad a k = false → m'.bad a k = false
  pid : ∀ c, m'.pid c = m.pid c
  rest : SameRest m m'

theorem Written.refl (m : Module) (loc n : Nat) : Written m m loc n :=
  ⟨fun _ _ => rfl, id, fun c => ⟨(m.core c).ctxs, rfl⟩, fun _ _ => rfl, fun _ _ => id, fun _ _ _ => rfl, fun _ _ => id, fun _ => rfl, rfl⟩

theorem Written.trans {a b c : Module} {loc n : Nat} (h : Written a b loc n) (h' : Written b c loc n) : Written a c loc n := by
  refine ⟨fun x hx => (h'.mem x hx).trans (h.mem x hx), fun hw => h'.wf (h.wf hw), fun k => ?_, fun k j => (h'.ctx k j).trans (h.ctx k j),
    fun x k hx => h'.watched x k (h.watched x k hx), fun k off j => (h'.usable k off j).trans (h.usable k off j),
    fun x k hx => h'.bad x k (h.bad x k hx), fun k => (h'.pid k).trans (h.pid k), h.rest.trans h'.rest⟩
  obtain ⟨x, hx⟩ := h.core k
  obtain ⟨y, hy⟩ := h'.core k
  exact ⟨y, by rw [hy, hx]⟩

theorem Written.mono {a b : Module} {loc n loc' n' : Nat} (h : Written a b loc n) (hl : loc' ≤ loc) (hn : loc + n ≤ loc' + n') :
    Written a b loc' n' :=
  { h with mem := fun x hx => h.mem x (by omega) }

theorem Written.lmAt {m m' : Module} {loc n : Nat} (h : Written m m' loc n) (cid off : Nat) : m'.lmAt cid off = m.lmAt cid off := by
  rw [Module.lmAt, h.pid]; rfl
theorem Written.time {m m' : Module} {loc n : Nat} (h : Written m m' loc n) : m'.time = m.time := by rw [h.rest]
theorem Written.bwait {m m' : Module} {loc n : Nat} (h : Written m m' loc n) : m'.bwait = m.bwait := by rw [h.rest]
theorem Written.act {m m' : Module} {loc n : Nat} (h : Written m m' loc n) (c k : Nat) : m'.act c k = m.act c k := by
  obtain ⟨x, hx⟩ := h.core c
  rw [Module.act, hx]; rfl
theorem Written.unwatched {m m' : Module} {loc n a k : Nat} (h : Written m m' loc n) (hu : Unwatched m a k) : Unwatched m' a k :=
  ⟨h.watched a k hu.1, by rw [h.bwait]; exact hu.2⟩

/-- A range that nobody watches holds ranges that nobody watches. -/
theorem unwatched_sub {m : Module} {a n b k : Nat} (h : Unwatched m a n) (hl : a ≤ b) (hn : b + k ≤ a + n) : Unwatched m b k := by
  have hsub : ∀ x l, meet x l a n = false → meet x l b k = false := fun x l hx => by
    simp only [meet, Bool.and_eq_false_iff, decide_eq_false_iff_not] at hx ⊢
    omega
  refine ⟨?_, ?_⟩
  · rw [watched_eq_nil_iff]
    exact fun e he o ho => hsub _ _ (watched_eq_nil_iff.mp h.1 e he o ho)
  · rw [List.filter_eq_nil_iff]
    intro w hw
    simpa using hsub _ _ (by simpa using List.filter_eq_nil_iff.mp h.2 w hw)

theorem written_touched (m : Module) (cid off n : Nat) (loc k : Nat) : Written m (m.touched cid off n) loc k := by
  unfold Module.touched
  split
  next p hp =>
    split
    · exact .refl ..
    · refine ⟨fun _ _ => rfl, id, fun c => ⟨(m.core c).ctxs, rfl⟩, fun _ _ => rfl, fun _ _ => id, fun c o j => ?_, fun _ _ => id,
        fun _ => rfl, rfl⟩
      have hall : ∀ b, ((m.setPhy (m.pid cid) p).phy (m.pid c)).usable b = (m.phy (m.pid c)).usable b := fun b => by
        by_cases hc : m.pid c = m.pid cid
        · rw [hc, Module.phy_setPhy]
          exact usable_touchAll hp b
        · rw [Module.phy, Module.setPhy, Tab.get_put_other _ _ _ _ _ hc]; rfl
      rw [Module.lmUsable_eq, Module.lmUsable_eq]
      exact congrArg (List.all _) (funext hall)
  · exact .refl ..

theorem watched_dropResv {m : Module} {a k : Nat} (h : m.watched a k = []) (loc n : Nat) :
    ({ m with cores := m.cores.map fun e => (e.1, e.2.dropResv loc n) } : Module).watched a k = [] := by
  rw [watched_eq_nil_iff] at h ⊢
  intro e he o ho
  obtain ⟨x, hx, rfl⟩ := List.mem_map.mp he
  exact h x hx o ho

theorem written_stored (m : Module) (loc : Nat) (bs : List Byte) : Written m (m.stored loc bs) loc bs.length := by
  refine ⟨fun a ha => Mem.get_write_other _ _ _ _ ha, fun hw => Mem.wf_write hw _ _, fun c => ⟨_, core_stored m loc bs c⟩, fun c k => ?_,
    fun a k h => watched_dropResv h loc bs.length, fun _ _ _ => rfl, fun a k h => ?_, fun _ => rfl, rfl⟩
  · rw [core_stored]
    exact dropResv_act ..
  · simp only [Module.bad, Bool.or_eq_false_iff, List.any_eq_false] at h ⊢
    exact ⟨fun w hw => h.1 w (List.mem_of_mem_filter hw), fun u hu => h.2 u (List.mem_of_mem_filter hu)⟩

theorem lmPut_eq {m : Module} {cid off : Nat} {bs : List Byte} (hu : Unwatched m (m.lmAt cid off) bs.length) :
    m.lmPut cid off bs = (m.touched cid off bs.length).stored (m.lmAt cid off) bs :=
  putBytes_unwatched ((written_touched m cid off bs.length 0 0).unwatched hu) false

/-- The device's own write. -/
theorem written_lmPut {m : Module} {cid off : Nat} {bs : List Byte} (hu : Unwatched m (m.lmAt cid off) bs.length) :
    Written m (m.lmPut cid off bs) (m.lmAt cid off) bs.length := by
  rw [lmPut_eq hu]
  exact (written_touched ..).trans (written_stored ..)
theorem read_lmPut {m : Module} {cid off : Nat} {bs : List Byte} (hu : Unwatched m (m.lmAt cid off) bs.length) (hw : Mem.wf m.mem = true) :
    Mem.read (m.lmPut cid off bs).mem (m.lmAt cid off) bs.length = bs := by
  rw [lmPut_eq hu, stored_mem]
  exact Mem.read_write_same ((written_touched m cid off bs.length 0 0).wf hw) _ _

theorem written_putWord {m : Module} {cid off : Nat} {bs : List Byte} (hu : Unwatched m (m.lmAt cid off) bs.length) :
    Written m (m.putWord cid off bs) (m.lmAt cid off) bs.length := by
  unfold Module.putWord
  split
  · exact written_lmPut hu
  · exact .refl ..

/-! ## Write-back (R38) -/

theorem lmAt_add (m : Module) (cid off k : Nat) : m.lmAt cid (off + k) = m.lmAt cid off + k := (Nat.add_assoc ..).symm

theorem written_countFixed (m : Module) (cid k loc n : Nat) : Written m (m.countFixed cid k) loc n := by
  unfold Module.countFixed
  split
  · exact .refl ..
  · have hpid : ∀ c, (m.onSite (siteOf cid) fun x => { x with errC := x.errC + k }).pid c = m.pid c := fun c =>
      Module.pid_onSite _ _ _ _ fun _ => rfl
    exact ⟨fun _ _ => rfl, id, fun c => ⟨(m.core c).ctxs, rfl⟩, fun _ _ => rfl, fun _ _ => id, fun c o j => by
      rw [Module.lmUsable_eq, Module.lmUsable_eq, hpid]; rfl, fun _ _ => id, hpid, rfl⟩

theorem written_foldl {β : Type} {loc n : Nat} {l : List β} (g : Module → β → Module) (m : Module)
    (hg : ∀ m', Written m m' loc n → ∀ b ∈ l, Written m' (g m' b) loc n) : Written m (l.foldl g m) loc n := by
  suffices ∀ m', Written m m' loc n → Written m (l.foldl g m') loc n from this m (.refl ..)
  induction l with
  | nil => exact fun m' h => h
  | cons b l ih =>
    exact fun m' h => ih (fun m'' h'' c hc => hg m'' h'' c (List.mem_cons_of_mem _ hc)) _ (h.trans (hg m' h b (List.mem_cons_self ..)))

/-- The registers of a window in its workspace. -/
def Module.flushRegs (m : Module) (cid wp : Nat) (w : Win) : Module :=
  let m := (upFrom 0 32).foldl
    (fun m k => if w.live k then m.putReg cid (wp + 8 * k) (w.bad.contains k) (leBytes 8 (w.gr k).toNat) else m) m
  (upFrom 0 16).foldl
    (fun m k => if w.liveV k then m.putReg cid (wp + 256 + 64 * k) (w.bad.contains (32 + k)) (leBytes 64 (w.vr k).toNat) else m) m

theorem Module.flush_eq (m : Module) (cid wp : Nat) (w : Win) : m.flush cid wp w =
    ((m.flushRegs cid wp w).putWord cid (wp + 1280) w.ctl.encode).countFixed cid (w.found (upFrom 0 48)).fixed := rfl

/-- No register that a write-back takes is uncorrectable. -/
theorem flush_sound {m : Module} {cid wp : Nat} {w : Win} (h : m.flushBad cid wp w = none) :
    (∀ k < 32, w.live k = true → w.bad.contains k = false) ∧ ∀ k < 16, w.liveV k = true → w.bad.contains (32 + k) = false := by
  unfold Module.flushBad at h
  split at h
  · cases h
  · split at h
    · cases h
    next hb =>
      simp only [List.any_eq_true, not_exists, not_and, Bool.not_eq_true] at hb
      refine ⟨fun k hk hl => ?_, fun k hk hl => ?_⟩ <;> by_contra hc
      · have := hb k (by simpa using hc)
        rw [if_pos hk, hl] at this
        cases this
      · have := hb (32 + k) (by simpa using hc)
        rw [if_neg (by omega), Nat.add_sub_cancel_left, hl] at this
        cases this

theorem mem_upFrom_zero {k n : Nat} : k ∈ upFrom 0 n ↔ k < n := by rw [upFrom_zero, List.mem_range]

theorem written_flushRegs {m : Module} {cid wp : Nat} {w : Win} (hb : m.flushBad cid wp w = none)
    (hu : Unwatched m (m.lmAt cid wp) 1344) : Written m (m.flushRegs cid wp w) (m.lmAt cid wp) 1344 := by
  obtain ⟨hg, hv⟩ := flush_sound hb
  have hput : ∀ m', Written m m' (m.lmAt cid wp) 1344 → ∀ off (bs : List Byte), off + bs.length ≤ 1344 →
      Written m' (m'.putWord cid (wp + off) bs) (m.lmAt cid wp) 1344 := fun m' h off bs hle => by
    have hloc : m'.lmAt cid (wp + off) = m.lmAt cid wp + off := by rw [h.lmAt, lmAt_add]
    have hu' : Unwatched m' (m'.lmAt cid (wp + off)) bs.length := by
      rw [hloc]
      exact unwatched_sub (h.unwatched hu) (by omega) (by omega)
    exact (written_putWord hu').mono (by rw [hloc]; omega) (by rw [hloc]; omega)
  have h1 : Written m _ (m.lmAt cid wp) 1344 := written_foldl
    (fun m k => if w.live k then m.putReg cid (wp + 8 * k) (w.bad.contains k) (leBytes 8 (w.gr k).toNat) else m) m (l := upFrom 0 32)
    fun m' h k hk => by
      rw [mem_upFrom_zero] at hk
      split
      next hl =>
        rw [hg k hk hl]
        exact hput m' h _ _ (by rw [leBytes_length]; omega)
      · exact .refl ..
  refine h1.trans (written_foldl _ _ fun m' h k hk => ?_)
  rw [mem_upFrom_zero] at hk
  split
  next hl =>
    rw [hv k hk hl, Nat.add_assoc]
    exact hput m' (h1.trans h) _ _ (by rw [leBytes_length]; omega)
  · exact .refl ..

theorem Ctl.encode_length (c : Ctl) : c.encode.length = 64 := leBytes_length ..

/-- A write-back changes the bytes of its workspace alone. -/
theorem written_flush {m : Module} {cid wp : Nat} {w : Win} (hb : m.flushBad cid wp w = none)
    (hu : Unwatched m (m.lmAt cid wp) 1344) : Written m (m.flush cid wp w) (m.lmAt cid wp) 1344 := by
  have h1 := written_flushRegs hb hu
  have hloc : (m.flushRegs cid wp w).lmAt cid (wp + 1280) = m.lmAt cid wp + 1280 := by rw [h1.lmAt, lmAt_add]
  have hu1 : Unwatched (m.flushRegs cid wp w) ((m.flushRegs cid wp w).lmAt cid (wp + 1280)) w.ctl.encode.length := by
    rw [hloc, Ctl.encode_length]
    exact unwatched_sub (h1.unwatched hu) (by omega) (by omega)
  rw [Module.flush_eq]
  exact (h1.trans ((written_putWord hu1).mono (by omega) (by rw [hloc, Ctl.encode_length]))).trans (written_countFixed ..)

/-- The control words can be written where a write-back can be done. -/
theorem wordOk_ctl {m : Module} {cid wp : Nat} {w : Win} (hb : m.flushBad cid wp w = none) (hwp : wp % 64 = 0) :
    m.wordOk cid (wp + 1280) 64 = true := by
  have hbanks : m.banksBad cid wp w = none := by
    unfold Module.flushBad at hb
    split at hb
    · cases hb
    next h => exact h
  have hmem : (m.phy (m.pid cid)).touch ((wp + 1280) / 0x8000) ∈ (winWords wp w).map fun o => (m.phy (m.pid cid)).touch (o.1 / 0x8000) :=
    List.mem_map.mpr ⟨(wp + 1280, 64), by simp [winWords], rfl⟩
  rw [Module.wordOk, Module.lmUsable_eq, banksOf_line (by omega), List.all_cons, List.all_nil, Bool.and_true, Phys.usable]
  unfold Module.banksBad at hbanks
  dsimp only at hbanks
  split at hbanks
  · cases hbanks
  next hoff =>
    split at hbanks
    · cases hbanks
    next hfail =>
      rw [List.contains_iff_mem] at hoff hfail
      cases ht : (m.phy (m.pid cid)).touch ((wp + 1280) / 0x8000) with
      | ok p => rfl
      | waking => rfl
      | off => exact absurd (ht ▸ hmem) hoff
      | failed => exact absurd (ht ▸ hmem) hfail

/-- It leaves the window's control words in the workspace. -/
theorem read_flush {m : Module} {cid wp : Nat} {w : Win} (hb : m.flushBad cid wp w = none) (hwp : wp % 64 = 0)
    (hu : Unwatched m (m.lmAt cid wp) 1344) (hw : Mem.wf m.mem = true) :
    Mem.read (m.flush cid wp w).mem (m.lmAt cid (wp + 1280)) 64 = w.ctl.encode := by
  have h1 := written_flushRegs hb hu
  have hloc : (m.flushRegs cid wp w).lmAt cid (wp + 1280) = m.lmAt cid (wp + 1280) := h1.lmAt ..
  have hu1 : Unwatched (m.flushRegs cid wp w) ((m.flushRegs cid wp w).lmAt cid (wp + 1280)) w.ctl.encode.length := by
    rw [hloc, lmAt_add, Ctl.encode_length]
    exact unwatched_sub (h1.unwatched hu) (by omega) (by omega)
  have hok : (m.flushRegs cid wp w).wordOk cid (wp + 1280) w.ctl.encode.length = true := by
    rw [Ctl.encode_length, Module.wordOk, h1.usable]
    exact wordOk_ctl hb hwp
  have hmem : (m.flush cid wp w).mem = ((m.flushRegs cid wp w).lmPut cid (wp + 1280) w.ctl.encode).mem := by
    rw [Module.flush_eq, Module.putWord, if_pos hok, Module.countFixed]
    split <;> rfl
  have hread := read_lmPut hu1 (h1.wf hw)
  rw [hmem, ← hloc]
  rwa [Ctl.encode_length] at hread

/-! ## Control words (R36) -/

def Ctl.fields (c : Ctl) : List (Nat × Nat) :=
  [(64, c.pc.toNat), (64, c.sw.toNat), (32, c.liveg.toNat), (16, c.livev.toNat), (3, c.path.toNat), (3, c.cls.toNat), (3, c.dom.toNat),
    (7, c.hnd.toNat), (64, c.joina.toNat), (32, c.budget.toNat), (32, c.waitk.toNat), (64, c.waita.toNat), (64, c.waitv.toNat),
    (16, c.aidv.toNat), (48, c.aids.toNat)]

theorem Ctl.fieldsFit (c : Ctl) : FieldsFit c.fields := by
  simp only [FieldsFit, Ctl.fields, List.forall_mem_cons, List.not_mem_nil, false_imp_iff, implies_true, and_true]
  have := c.hnd.toNat_le
  omega

theorem Ctl.encode_eq (c : Ctl) : c.encode = leBytes 64 (packed c.fields) := by
  refine congrArg (leBytes 64) ?_
  simp only [Ctl.fields, packed]
  omega

/-- Decoding the bytes of control words gives them back, reserved bits of the status word as zeros. -/
theorem Ctl.decode_encode (c : Ctl) : Ctl.decode c.encode = { c with sw := c.sw &&& swMask } := by
  have h : HoldsFields (leNat c.encode) 0 c.fields := by
    rw [c.encode_eq]
    exact holdsFields_bytes c.fieldsFit (by simp [Ctl.fields])
  simp only [Ctl.fields, HoldsFields, Nat.zero_add, Nat.reduceAdd] at h
  obtain ⟨hpc, hsw, hlg, hlv, hpath, hcls, hdom, hhnd, hj, hbud, hwk, hwa, hwv, hav, has, -⟩ := h
  have hhnd' : leNat c.encode / 2 ^ 185 % 2 ^ 1 = c.hnd.toNat := by
    have := c.hnd.toNat_le
    omega
  have hwk' : leNat c.encode / 2 ^ 288 % 2 ^ 4 = c.waitk.toNat := by
    have := c.waitk.isLt
    omega
  have has' : leNat c.encode / 2 ^ 464 % 2 ^ 32 = c.aids.toNat := by
    have := c.aids.isLt
    omega
  simp only [Ctl.decode, fieldOf, Nat.reduceAdd, Nat.reduceSub, hpc, hsw, hlg, hlv, hpath, hcls, hdom, hhnd', hj, hbud, hwk', hwa, hwv, hav,
    has', toNat_beq_one, BitVec.ofNat_toNat, BitVec.setWidth_eq]

end Sys2Proof.Machine
end

section
/-!
PROOFS. Leaving a context (R38, R44): what parking an activation does, and suspension.
-/
namespace Sys2Proof.Machine
open Sys2Proof.Claims

/-- Counting touches the budget, the handler's cycles and the grace period. -/
theorem Act.count_eq (a : Act) (time : Nat) : ∃ (h : Nat) (g : Option Nat) (b : Win → BitVec 32), a.count time =
    { a with counted := time, hcyc := h, grace := g, win := a.win.map fun w => { w with ctl := { w.ctl with budget := b w } } } := by
  have hid : a.win = a.win.map fun w => { w with ctl := { w.ctl with budget := (fun w : Win => w.ctl.budget) w } } := by
    cases a.win <;> rfl
  unfold Act.count
  dsimp only
  split
  next w k hw hst =>
    split
    · exact ⟨a.hcyc, a.grace, fun w => w.ctl.budget, by rw [← hid]⟩
    · split
      · exact ⟨_, a.grace, fun w => w.ctl.budget, by rw [← hid]⟩
      · split
        next n hg => exact ⟨a.hcyc, some _, fun w => w.ctl.budget, by rw [← hid]⟩
        · exact ⟨a.hcyc, a.grace, fun _ => _, by rw [hw]; rfl⟩
  · exact ⟨a.hcyc, a.grace, fun w => w.ctl.budget, by rw [← hid]⟩

/-- The context of an issuing activation left. -/
def Module.leftCtx (m : Module) (cid : Nat) (a : Act) : Module :=
  match a.ctx? with
  | some k => m.freeCtx cid k
  | none => m

theorem leftCtx_core (m : Module) (cid : Nat) (a : Act) : ∃ x, (m.leftCtx cid a).core cid = { m.core cid with ctxs := x } := by
  unfold Module.leftCtx
  split
  · exact ⟨_, Module.core_onCore ..⟩
  · exact ⟨_, rfl⟩
theorem leftCtx_rest (m : Module) (cid : Nat) (a : Act) : m.leftCtx cid a = { m with cores := (m.leftCtx cid a).cores } := by
  unfold Module.leftCtx
  split <;> rfl
theorem leftCtx_watched {m : Module} (cid : Nat) (a : Act) {loc n : Nat} (h : m.watched loc n = []) :
    (m.leftCtx cid a).watched loc n = [] := by
  unfold Module.leftCtx
  split
  · exact watched_onCore (fun _ => rfl) h
  · exact h
theorem leftCtx_act (m : Module) (cid : Nat) {a : Act} {k : Nat} (h : a.st = .issuing k) : (((m.leftCtx cid a).core cid).ctx k).act = none := by
  rw [Module.leftCtx, Act.ctx?, h]
  show (((m.freeCtx cid k).core cid).ctx k).act = none
  rw [Module.freeCtx, Module.core_onCore, Core.ctx_onCtx]

/-- From m to t the activation in slot key of a core, whose window was w, has been written back and has left its context, for status st. -/
structure Parked (m t : Module) (cid key : Nat) (w : Win) (st : ActSt) : Prop where
  act : ∃ h g, t.act cid key = { m.act cid key with
    st := st, win := none, since := m.time, aged := m.time, counted := m.time, hcyc := h, grace := g }
  ctx : ∀ k, (m.act cid key).st = .issuing k → ((t.core cid).ctx k).act = none
  ctl : (m.act cid key).wp % 64 = 0 → Mem.wf m.mem = true →
    ∃ b, Mem.read t.mem (m.lmAt cid ((m.act cid key).wp + 1280)) 64 = { w.ctl with budget := b }.encode
  mem : ∀ a, a < m.lmAt cid (m.act cid key).wp ∨ m.lmAt cid (m.act cid key).wp + 1344 ≤ a → Mem.get t.mem a = Mem.get m.mem a
  wf : Mem.wf m.mem = true → Mem.wf t.mem = true
  core : ∃ acts x i, t.core cid = { m.core cid with acts := acts, ctxs := x, idle := i }
  others : ∀ k, k ≠ key → t.act cid k = m.act cid k
  watched : ∀ a n, m.watched a n = [] → t.watched a n = []
  usable : ∀ c off n, t.lmUsable c off n = m.lmUsable c off n
  pid : ∀ c, t.pid c = m.pid c
  rest : SameRest m t

theorem freeWin_idle (c : Core) (w : Option Win) : ∃ i, c.freeWin w = { c with idle := i } := by
  cases w
  · exact ⟨_, rfl⟩
  · exact ⟨_, rfl⟩

theorem parked_of_sound {m : Module} {cid key : Nat} {w : Win} (hw : (m.act cid key).win = some w)
    (hb : m.flushBad cid (m.act cid key).wp w = none) (hu : Unwatched m (m.lmAt cid (m.act cid key).wp) 1344) (st : ActSt) :
    Parked m (m.park cid key st) cid key w st := by
  obtain ⟨h, g, b, ha⟩ := (m.act cid key).count_eq m.time
  rw [hw, Option.map_some] at ha
  let w' : Win := { w with ctl := { w.ctl with budget := b w } }
  let m0 := m.leftCtx cid (m.act cid key)
  have hrest0 : m0 = { m with cores := m0.cores } := leftCtx_rest ..
  have hpark : m.park cid key st = (m0.flush cid (m.act cid key).wp w').onCore cid fun c => (c.freeWin (some w')).setAct key
      { m.act cid key with st := st, win := none, since := (m0.flush cid (m.act cid key).wp w').time
                           aged := (m0.flush cid (m.act cid key).wp w').time, counted := m.time, hcyc := h, grace := g } := by
    unfold Module.park
    rw [ha]
    rfl
  have hphy : m0.phys = m.phys := by rw [hrest0]
  have hpid : ∀ c, m0.pid c = m.pid c := fun c => by rw [hrest0]; rfl
  have hb0 : m0.flushBad cid (m.act cid key).wp w' = none := by rw [hrest0]; exact hb
  have hu0 : Unwatched m0 (m0.lmAt cid (m.act cid key).wp) 1344 := by
    refine ⟨?_, ?_⟩
    · rw [Module.lmAt, hpid]
      exact leftCtx_watched _ _ hu.1
    · rw [Module.lmAt, hpid, hrest0]
      exact hu.2
  have hfl := written_flush hb0 hu0
  obtain ⟨x0, hc0⟩ := leftCtx_core m cid (m.act cid key)
  obtain ⟨x1, hc1⟩ := hfl.core cid
  obtain ⟨i, hi⟩ := freeWin_idle ((m0.flush cid (m.act cid key).wp w').core cid) (some w')
  have hcore : (m.park cid key st).core cid = (((m0.flush cid (m.act cid key).wp w').core cid).freeWin (some w')).setAct key
      { m.act cid key with st := st, win := none, since := (m0.flush cid (m.act cid key).wp w').time
                           aged := (m0.flush cid (m.act cid key).wp w').time, counted := m.time, hcyc := h, grace := g } := by
    rw [hpark, Module.core_onCore]
  have htime : (m0.flush cid (m.act cid key).wp w').time = m.time := by rw [hfl.time, hrest0]
  refine ⟨⟨h, g, ?_⟩, fun k hk => ?_, fun hwp hwf => ⟨b w, ?_⟩, fun a hout => ?_, fun hwf => ?_, ⟨((m.park cid key st).core cid).acts, x1, i, ?_⟩, fun k hk => ?_,
    fun a n hn => ?_, fun c off n => ?_, fun c => ?_, ?_⟩
  · rw [Module.act, hcore, Core.act_setAct, htime]
  · rw [hcore, Core.ctx_setAct, freeWin_ctx, hfl.ctx]
    exact leftCtx_act m cid hk
  · have hread := read_flush hb0 hwp hu0 (by rw [hrest0]; exact hwf)
    rw [Module.lmAt, hpid] at hread
    rw [hpark]
    exact hread
  · rw [hpark]
    refine (hfl.mem a (by rw [Module.lmAt, hpid]; exact hout)).trans ?_
    rw [hrest0]
  · rw [hpark]
    exact hfl.wf (by rw [hrest0]; exact hwf)
  · rw [hcore, hi, hc1, hc0]
    rfl
  · rw [Module.act, hcore, Core.act_setAct_other _ _ _ _ hk, hi, hc1, hc0]
    rfl
  · rw [hpark]
    exact watched_onCore (fun c => by obtain ⟨i, hi⟩ := freeWin_idle c (some w'); rw [hi]; rfl) (hfl.watched a n (leftCtx_watched _ _ hn))
  · rw [hpark]
    refine (hfl.usable c off n).trans ?_
    rw [hrest0]; rfl
  · rw [hpark]
    exact (hfl.pid c).trans (hpid c)
  · have h0 : SameRest m m0 := by rw [hrest0]
    rw [hpark]
    exact (h0.trans hfl.rest).trans rfl

/-- Where every word of the write-back can be written, an activation that leaves its context is parked. -/
theorem parkOrTrap_sound {m : Module} {cid key : Nat} {w : Win} (hw : (m.act cid key).win = some w)
    (hb : m.flushBad cid (m.act cid key).wp w = none) (st : ActSt) : m.parkOrTrap cid key st = m.park cid key st := by
  have hg : (m.act cid key).win.getD {} = w := by rw [hw]; rfl
  unfold Module.parkOrTrap
  dsimp only
  rw [hg, hb]

end Sys2Proof.Machine

namespace Sys2Proof.Claims
open Sys2Proof.Machine

/-- Settles O35: the activation is parked, and its control words decode to what they were with the wait in them. -/
theorem suspensionWritesBack : Obligations.SuspensionWritesBack := by
  intro s pc k a v dst w hst hctx hwin hb hwf hwp hu t
  let w1 : Win := { s.win with ctl := { s.win.ctl with waitk := BitVec.ofNat 4 k, waita := a, waitv := v } }
  let m : Module := (s.m.setWin s.cid s.key w1).onAct s.cid s.key fun x =>
    { x with wait := w, dst := dst, grace := none, stepAt := if swSs s.sw then some pc else x.stepAt }
  have hact : m.act s.cid s.key =
      { s.act with win := some w1, wait := w, dst := dst, grace := none, stepAt := if swSs s.sw then some pc else s.act.stepAt } := by
    rw [Module.act_onAct, Module.setWin, Module.act_onAct]
    rfl
  have hwin1 : (m.act s.cid s.key).win = some w1 := by rw [hact]
  have hb1 : m.flushBad s.cid (m.act s.cid s.key).wp w1 = none := by rw [hact]; exact hb
  have hu1 : Unwatched m (m.lmAt s.cid (m.act s.cid s.key).wp) 1344 := by
    rw [hact]
    exact ⟨watched_onCore (fun _ => rfl) (watched_onCore (fun _ => rfl) hu.1), hu.2⟩
  have ht : t.m = m.park s.cid s.key .suspended := parkOrTrap_sound hwin1 hb1 _
  have hp := parked_of_sound hwin1 hb1 hu1 .suspended
  rw [← ht] at hp
  obtain ⟨h, g, hta⟩ := hp.act
  obtain ⟨b, hread⟩ := hp.ctl (by rw [hact]; exact hwp) hwf
  rw [hact] at hta hread
  have hloc : t.m.lmAt s.cid (s.act.wp + 1280) = m.lmAt s.cid (s.act.wp + 1280) := by
    rw [Module.lmAt, hp.pid]; rfl
  refine ⟨by rw [hta], by rw [hta], by rw [hta], by rw [hta], hp.ctx s.ctx (by rw [hact]; exact hst), ?_⟩
  rw [hloc, hread, Ctl.decode_encode]
  exact ⟨rfl, rfl, rfl, rfl, rfl, rfl, rfl, rfl⟩

end Sys2Proof.Claims
end

section
/-!
PROOFS. What a fault leaves behind (R345, R347, R349, R352): the record of an upcall in its slot, the entry of the supervisor queue, and
the activation as each finds it.
-/
namespace Sys2Proof.Machine
open Sys2Proof.Claims

/-! ## Supervisor traps -/

/-- The activation stopped, before the entry of the supervisor queue is written. -/
def Module.stoppedAct (m : Module) (cid key : Nat) : Module :=
  let m := (m.park cid key .faulted).onCore cid fun c => (c.dropMon key).onAct key fun a => { a with wait := .nothing }
  { m with bwait := m.bwait.filter (fun w => !(w.cid == cid && w.key == key))
           bdone := m.bdone.filter (fun w => !(w.cid == cid && w.key == key)) }

/-- The entry after the last one written, in bytes that nobody watches. -/
theorem pushSup_free {m : Module} {cid : Nat} {r : FaultRec} (hv : (m.supEntry cid (m.core cid).sup.next).v = false) :
    m.pushSup cid r = some ((m.lmPut cid (supOff (m.core cid).sup.next) { r with v := true, lost := (m.core cid).sup.lost }.encode).onCore cid
      fun c => { c with sup := { (m.core cid).sup with next := ((m.core cid).sup.next + 1) % 15, lost := 0 } }) := by
  unfold Module.pushSup
  dsimp only
  rw [hv, if_neg (by decide)]

theorem trapAct_eq {m : Module} {cid key : Nat} {r : FaultRec} (hk : key < 64)
    (hv : ((m.stoppedAct cid key).supEntry cid ((m.stoppedAct cid key).core cid).sup.next).v = false) :
    let n := m.stoppedAct cid key
    let q := (n.core cid).sup
    m.trapAct cid key r = ((n.lmPut cid (supOff q.next) { r with v := true, lost := q.lost }.encode).onCore cid fun c =>
      { c with sup := { q with next := (q.next + 1) % 15, lost := 0 } }).onCore cid fun c =>
      { c with sup := { c.sup with keys := Tab.put c.sup.keys q.next key } } := by
  have hp := pushSup_free (r := r) hv
  have hne : ¬ key = 64 := by omega
  unfold Module.trapAct
  dsimp only
  rw [if_neg hne]
  show (match (m.stoppedAct cid key).pushSup cid r with | some m' => _ | none => _) = _
  rw [hp]
  rfl

/-- What the entry of a trap is written into. -/
structure Stopped (m n : Module) (cid key : Nat) (w : Win) : Prop where
  act : (n.act cid key).st = .faulted ∧ (n.act cid key).win = none
  ctx : ∀ k, (m.act cid key).st = .issuing k → ((n.core cid).ctx k).act = none
  ctl : (m.act cid key).wp % 64 = 0 → Mem.wf m.mem = true →
    ∃ b, Mem.read n.mem (m.lmAt cid ((m.act cid key).wp + 1280)) 64 = { w.ctl with budget := b }.encode
  mem : ∀ a, a < m.lmAt cid (m.act cid key).wp ∨ m.lmAt cid (m.act cid key).wp + 1344 ≤ a → Mem.get n.mem a = Mem.get m.mem a
  wf : Mem.wf m.mem = true → Mem.wf n.mem = true
  sup : (n.core cid).sup = (m.core cid).sup
  desc : (n.core cid).desc = (m.core cid).desc
  pid : ∀ c, n.pid c = m.pid c
  unwatched : ∀ a k, Unwatched m a k → Unwatched n a k

theorem watched_onCore_sub {m : Module} {loc n cid : Nat} {f : Core → Core} (hf : ∀ c, ∀ o ∈ (f c).mons, o ∈ c.mons)
    (h : m.watched loc n = []) : (m.onCore cid f).watched loc n = [] := by
  rw [watched_eq_nil_iff] at h ⊢
  intro e he o ho
  rcases Tab.mem_put he with he | rfl
  · exact h e he o ho
  · replace ho := hf _ o ho
    rcases Tab.get_mem {} m.cores cid with hc | hc
    · exact h _ hc o ho
    · rw [Module.core, hc] at ho
      cases ho

theorem stopped_of_sound {m : Module} {cid key : Nat} {w : Win} (hw : (m.act cid key).win = some w)
    (hb : m.flushBad cid (m.act cid key).wp w = none) (hu : Unwatched m (m.lmAt cid (m.act cid key).wp) 1344) :
    Stopped m (m.stoppedAct cid key) cid key w := by
  have hp := parked_of_sound hw hb hu .faulted
  obtain ⟨h, g, ha⟩ := hp.act
  obtain ⟨acts, x, i, hc⟩ := hp.core
  have hcore : (m.stoppedAct cid key).core cid =
      (((m.park cid key .faulted).core cid).dropMon key).onAct key fun a => { a with wait := .nothing } :=
    Module.core_onCore (m.park cid key .faulted) cid fun c => (c.dropMon key).onAct key fun a => { a with wait := .nothing }
  have hact : (m.stoppedAct cid key).act cid key = { (m.park cid key .faulted).act cid key with wait := .nothing } := by
    rw [Module.act, hcore, Core.act_onAct]; rfl
  refine ⟨?_, fun k hk => ?_, hp.ctl, hp.mem, hp.wf, ?_, ?_, hp.pid, fun a k hu => ⟨?_, ?_⟩⟩
  · rw [hact, ha]
    exact ⟨rfl, rfl⟩
  · rw [hcore]
    exact hp.ctx k hk
  · rw [hcore]
    show ((m.park cid key .faulted).core cid).sup = _
    rw [hc]
  · rw [hcore]
    show ((m.park cid key .faulted).core cid).desc = _
    rw [hc]
  · refine watched_onCore_sub (f := fun c => (c.dropMon key).onAct key fun a => { a with wait := .nothing }) (fun c o ho => ?_)
      (hp.watched a k hu.1)
    replace ho : o ∈ c.mons.filter (·.key ≠ key) := ho
    exact List.mem_of_mem_filter ho
  · have hbw : (m.park cid key .faulted).bwait = m.bwait := by rw [hp.rest]
    show List.filter _ ((m.park cid key .faulted).bwait.filter _) = []
    rw [hbw, List.filter_eq_nil_iff]
    exact fun w hw => List.filter_eq_nil_iff.mp hu.2 w (List.mem_of_mem_filter hw)

theorem FaultRec.encode_length (r : FaultRec) : r.encode.length = 64 := leBytes_length ..

theorem lmAt_eq (m : Module) (cid off : Nat) : m.lmAt cid off = m.pid cid * 2 ^ 19 + off := rfl

theorem above_workspace {p wp i b : Nat} (h : wp + 1344 ≤ 0x7FC40) (hb : p + supOff i ≤ b) : p + wp + 1344 ≤ b := by
  rw [supOff] at hb
  omega
theorem below_queue {p wp i a : Nat} (h : wp + 1344 ≤ 0x7FC40) (ha : a < p + (wp + 1280) + 64) : a < p + supOff i := by
  rw [supOff]
  omega

/-- Reads of LM above the descriptor are reads of memory. -/
theorem lmRead_sup (m : Module) (cid i : Nat) : m.lmRead cid (supOff i) 64 = Mem.read m.mem (m.lmAt cid (supOff i)) 64 :=
  have h : 0x7FC40 ≤ supOff i := Nat.le_add_right ..
  lmRead_eq_read (by simp only [meet, Bool.and_eq_false_iff, decide_eq_false_iff_not]; omega)

theorem read_congr {mem mem' : List Host.Cell} {a n : Nat} (h : ∀ b, a ≤ b → b < a + n → Mem.get mem' b = Mem.get mem b) :
    Mem.read mem' a n = Mem.read mem a n := by
  rw [Mem.read_eq_map, Mem.read_eq_map]
  refine List.map_congr_left fun k hk => h (a + k) (by omega) ?_
  have := List.mem_range.mp hk
  omega

/-- The entries of the queue stand above the workspaces. -/
theorem Stopped.supEntry {m n : Module} {cid key : Nat} {w : Win} (h : Stopped m n cid key w) (hal : (m.act cid key).wp + 1344 ≤ 0x7FC40)
    (i : Nat) : n.supEntry cid i = m.supEntry cid i := by
  have hl : n.lmAt cid (supOff i) = m.lmAt cid (supOff i) := by rw [Module.lmAt, h.pid]; rfl
  have hr : Mem.read n.mem (m.lmAt cid (supOff i)) 64 = Mem.read m.mem (m.lmAt cid (supOff i)) 64 := by
    refine read_congr fun b hb _ => h.mem b (.inr ?_)
    exact above_workspace hal hb
  rw [Module.supEntry, Module.supEntry, lmRead_sup, lmRead_sup, hl, hr]

end Sys2Proof.Machine

namespace Sys2Proof.Claims
open Sys2Proof.Machine

/-- Settles O52: the activation is parked, and the entry is written where nothing of its workspace lies. -/
theorem supervisorTrap : Obligations.SupervisorTrap := by
  intro m cid key w f pc hw hk hup hside hwf hb hal hwp hok hnext hv hu hu2 m'
  have hs := stopped_of_sound hw hb hu
  let n := m.stoppedAct cid key
  let q := (m.core cid).sup
  let e : FaultRec := { recordOf m cid w f pc with kind := 1, lost := q.lost }
  have hsup : (n.core cid).sup = q := hs.sup
  have hloc : ∀ off, n.lmAt cid off = m.lmAt cid off := fun off => by rw [Module.lmAt, hs.pid]; rfl
  have hg : (m.act cid key).win.getD {} = w := by rw [hw]; rfl
  have htrap : m' = m.trapAct cid key { recordOf m cid w f pc with kind := 1 } := by
    have hno : ¬ m.upcallOk cid key w f = true := fun h => hup ((upcallOk_iff hw).mp h)
    show m.takeFault cid key f pc = _
    unfold Module.takeFault
    rw [hside]
    dsimp only [Module.sides, List.foldl_nil]
    rw [hg, if_neg hno]
    rfl
  have heq := trapAct_eq (r := { recordOf m cid w f pc with kind := 1 }) hk (by rw [hs.supEntry hal, hs.sup]; exact hv)
  dsimp only at heq
  rw [← htrap, hs.sup] at heq
  have hun : Unwatched n (n.lmAt cid (supOff q.next)) e.encode.length := by
    rw [hloc, FaultRec.encode_length]
    exact hs.unwatched _ _ hu2
  have hwr := written_lmPut hun
  have hread := read_lmPut hun (hs.wf hwf)
  replace heq : m' = ((n.lmPut cid (supOff q.next) e.encode).onCore cid fun c => { c with sup := { q with next := (q.next + 1) % 15, lost := 0 } }).onCore
    cid fun c => { c with sup := { c.sup with keys := Tab.put c.sup.keys q.next key } } := heq
  rw [hloc, FaultRec.encode_length] at hread hwr
  generalize n.lmPut cid (supOff q.next) e.encode = p at heq hwr hread
  have hpid : m'.pid cid = m.pid cid := by
    rw [heq]
    exact (hwr.pid cid).trans (hs.pid cid)
  obtain ⟨x, hx⟩ := hwr.core cid
  have hcore : m'.core cid = { n.core cid with ctxs := x, sup := { q with next := (q.next + 1) % 15, lost := 0, keys := Tab.put q.keys q.next key } } := by
    rw [heq, Module.core_onCore, Module.core_onCore, hx]
  have hact : m'.act cid key = n.act cid key := by rw [Module.act, hcore]; rfl
  have hctx : ∀ k, ((m'.core cid).ctx k).act = ((n.core cid).ctx k).act := fun k => by
    rw [← hwr.ctx cid k, hcore, hx]
    rfl
  refine ⟨by rw [hact]; exact hs.act.1, by rw [hact]; exact hs.act.2, fun k hk => (hctx k).trans (hs.ctx k hk), ?_, ?_, by rw [hcore]⟩
  · obtain ⟨b, hc⟩ := hs.ctl hwp hwf
    have hr : Mem.read m'.mem (m.lmAt cid ((m.act cid key).wp + 1280)) 64 = Mem.read n.mem (m.lmAt cid ((m.act cid key).wp + 1280)) 64 := by
      rw [heq]
      refine read_congr fun a _ ha => hwr.mem a (.inl ?_)
      exact below_queue hal ha
    rw [hr, hc, Ctl.decode_encode]
  · show m'.lmRead cid (supOff q.next) 64 = e.encode
    rw [lmRead_sup, Module.lmAt, hpid, heq]
    exact hread

/-- A module whose fault records of core 0 lie from LM 0x7F000 up, so that the record of slot 32 lies on the descriptor of the pool; an
activation stands there with an empty window. -/
def recordOnDescriptor : Module :=
  ({} : Module).onCore 0 fun c => { c with
    spec := { c.spec with frec := 0x800000000007F000#64 }, acts := [(32, { win := some {} })] }

theorem recordOnDescriptor_upcalls : Upcalls recordOnDescriptor 0 32 {} { cause := .illop } where
  win := rfl
  slot := by decide
  cause := by simp [UpcallCause]
  hnd := rfl
  user := by decide
  upc := by decide
  en := by decide
  words := by decide +kernel

/-- Refutes O51: in that state the record's slot lies on the descriptor of the pool, whose bytes reads of LM take from the core and not
from memory (R41), so the 64 bytes there do not read as the record: the first is 0, and the cause is 1. -/
theorem not_upcallEntry : ¬ Obligations.UpcallEntry := by
  intro h
  have hread := (h recordOnDescriptor 0 32 {} { cause := .illop } 0 recordOnDescriptor_upcalls rfl rfl ⟨rfl, rfl⟩).2.2.1
  exact absurd (congrArg (·.getD 0 0#8) hread) (by decide +kernel)

end Sys2Proof.Claims
end

section
/-!
PROOFS. The deque (R39, R40, R50, R54): task records are words side by side, and a record pushed is the one that the next take finds.
-/
namespace Sys2Proof.Machine
open Sys2Proof.Claims

/-! ## Task records (R50) -/

/-- Word i of words side by side. -/
theorem word_flatMap (l : List Nat) {i x : Nat} (h : l[i]? = some x) : ((l.flatMap (leBytes 8)).drop (8 * i)).take 8 = leBytes 8 x := by
  induction l generalizing i with
  | nil => cases h
  | cons y l ih =>
    have hlen := leBytes_length 8 y
    rw [List.flatMap_cons]
    cases i with
    | zero =>
      obtain rfl : y = x := by simpa using h
      rw [Nat.mul_zero, List.drop_zero, List.take_append_of_le_length (by omega), List.take_of_length_le (by omega)]
    | succ i =>
      rw [List.drop_append, List.drop_of_length_le (by omega), List.nil_append, hlen, show 8 * (i + 1) - 8 = 8 * i by omega]
      exact ih (by simpa using h)

/-- The words of a task record. -/
def TaskRec.words (r : TaskRec) : List Nat :=
  [r.pc.toNat, r.joina.toNat, r.dom % 8 + r.rm % 8 * 2 ^ 3 + r.rshc.toNat * 2 ^ 6, r.parent.toNat]
    ++ (upFrom 0 8).map fun k => (r.g.getD k 0).toNat

theorem TaskRec.encode_eq (r : TaskRec) : r.encode = r.words.flatMap (leBytes 8) := by
  rw [TaskRec.words, List.flatMap_append, List.flatMap_map]
  simp only [TaskRec.encode, List.flatMap_cons, List.flatMap_nil, List.append_assoc, List.append_nil, List.nil_append]

theorem TaskRec.word (r : TaskRec) {i x : Nat} (h : r.words[i]? = some x) :
    BitVec.ofNat 64 (leNat ((r.encode.drop (8 * i)).take 8)) = BitVec.ofNat 64 x := by
  rw [TaskRec.encode_eq, word_flatMap _ h, leNat_leBytes, ← BitVec.toNat_inj, BitVec.toNat_ofNat, BitVec.toNat_ofNat]
  exact Nat.mod_mod _ _

theorem TaskRec.encode_length (r : TaskRec) : r.encode.length = 96 := by
  simp [TaskRec.encode, leBytes_length, upFrom_zero, List.length_flatMap]

/-- Decoding the bytes of a task record gives it back. -/
theorem TaskRec.decode_encode {r : TaskRec} (hd : r.dom < 8) (hm : r.rm < 8) (hg : r.g.length = 8) : TaskRec.decode r.encode = r := by
  have hword2 : (BitVec.ofNat 64 (r.dom % 8 + r.rm % 8 * 2 ^ 3 + r.rshc.toNat * 2 ^ 6)).toNat = r.dom + r.rm * 8 + r.rshc.toNat * 64 := by
    rw [BitVec.toNat_ofNat]
    omega
  have hregs : (upFrom 0 8).map (fun k => BitVec.ofNat 64 (leNat ((r.encode.drop (8 * (4 + k))).take 8))) = r.g := by
    refine List.ext_getElem (by simp [upFrom_zero, hg]) fun i h1 h2 => ?_
    have hi : r.words[4 + i]? = some r.g[i].toNat := by
      rw [TaskRec.words, List.getElem?_append_right (by simp), upFrom_zero]
      have hi8 : i < 8 := hg ▸ h2
      simp [hi8, h2]
    rw [List.getElem_map]
    simp only [upFrom_zero, List.getElem_range]
    rw [r.word hi, BitVec.ofNat_toNat, BitVec.setWidth_eq]
  rw [TaskRec.decode]
  dsimp only
  rw [hregs, r.word (i := 0) rfl, r.word (i := 1) rfl, r.word (i := 2) rfl, r.word (i := 3) rfl]
  have hdom : bits (BitVec.ofNat 64 (r.dom % 8 + r.rm % 8 * 2 ^ 3 + r.rshc.toNat * 2 ^ 6)) 2 0 = r.dom := by
    rw [bits, hword2, Nat.shiftRight_eq_div_pow]
    omega
  have hrm : bits (BitVec.ofNat 64 (r.dom % 8 + r.rm % 8 * 2 ^ 3 + r.rshc.toNat * 2 ^ 6)) 5 3 = r.rm := by
    rw [bits, hword2, Nat.shiftRight_eq_div_pow]
    omega
  have hrshc : (BitVec.ofNat 64 (r.dom % 8 + r.rm % 8 * 2 ^ 3 + r.rshc.toNat * 2 ^ 6)).extractLsb' 6 32 = r.rshc := by
    rw [← BitVec.toNat_inj, BitVec.extractLsb'_toNat, hword2, Nat.shiftRight_eq_div_pow]
    omega
  rw [hdom, hrm, hrshc]
  simp only [BitVec.ofNat_toNat, BitVec.setWidth_eq]

/-! ## Push and take -/

theorem dqOff_bounds (i : Nat) : 0x7E000 ≤ dqOff i ∧ dqOff i + 96 ≤ 0x7F800 := by
  rw [dqOff]
  omega

/-- What a push that nobody watches leaves. -/
theorem core_dqPush {m : Module} {cid : Nat} {r : TaskRec} (hu : Unwatched m (m.lmAt cid (dqOff (m.core cid).desc.lifo)) 96) :
    ∃ x, (m.dqPush cid r).core cid = { m.core cid with
      ctxs := x, dqAt := some m.time
      desc := { (m.core cid).desc with lifo := ((m.core cid).desc.lifo + 1) % 64, n := (m.core cid).desc.n + 1 } } := by
  have hw := written_lmPut (bs := r.encode) (r.encode_length.symm ▸ hu)
  obtain ⟨x, hx⟩ := hw.core cid
  refine ⟨x, ?_⟩
  rw [Module.dqPush]
  dsimp only
  rw [Module.core_onCore, hx, hw.time]

theorem dqRead_core (m : Module) (cid i c : Nat) : (m.dqRead cid i).core c = m.core c := by
  have h : (m.dqRead cid i).cores = (m.touched cid (dqOff i) 96).cores := Module.inspect_cores ..
  have h2 : (m.touched cid (dqOff i) 96).cores = m.cores := by
    unfold Module.touched
    split
    · split <;> rfl
    · rfl
  rw [Module.core, h, h2]; rfl

end Sys2Proof.Machine

namespace Sys2Proof.Claims
open Sys2Proof.Machine

/-- Settles O40: the take looks where the push wrote. -/
theorem dequePushThenPop : Obligations.DequePushThenPop := by
  intro m cid r hwf hn hlifo hok hbad hd hm hg hu
  obtain ⟨x, hcore⟩ := core_dqPush (r := r) hu
  let d := (m.core cid).desc
  have hw := written_lmPut (bs := r.encode) (r.encode_length.symm ▸ hu)
  have hread := read_lmPut (bs := r.encode) (r.encode_length.symm ▸ hu) hwf
  rw [TaskRec.encode_length] at hread
  replace hlifo : d.lifo < 64 := hlifo
  have hat : ∀ off, (m.dqPush cid r).lmAt cid off = m.lmAt cid off := fun off => by
    rw [Module.lmAt]
    exact congrArg (lmLoc · off) (hw.pid cid)
  have hrec : (m.dqPush cid r).dqRec cid d.lifo = some r := by
    have h1 : (m.dqPush cid r).bad ((m.dqPush cid r).lmAt cid (dqOff d.lifo)) 96 = false := by
      rw [hat]
      exact hw.bad _ _ hbad
    have h2 : (m.dqPush cid r).dqOk cid = true := (hw.usable cid 0x7E000 0x1800).trans hok
    have h3 : (m.dqPush cid r).lmRead cid (dqOff d.lifo) 96 = r.encode := by
      obtain ⟨-, hb⟩ := dqOff_bounds d.lifo
      rw [lmRead_eq_read (by simp only [meet, Bool.and_eq_false_iff, decide_eq_false_iff_not]; omega), hat]
      exact hread
    rw [Module.dqRec, h1, h2, h3, TaskRec.decode_encode hd hm hg]
    rfl
  refine ⟨((m.dqPush cid r).dqRead cid d.lifo).onCore cid fun c => { c with
      desc := { ((m.dqPush cid r).core cid).desc with lifo := d.lifo, n := ((m.dqPush cid r).core cid).desc.n - 1 }
      dqAt := some (m.dqPush cid r).time }, ?_, ?_, ?_⟩
  · have hd' : ((m.dqPush cid r).core cid).desc = { d with lifo := (d.lifo + 1) % 64, n := d.n + 1 } := by rw [hcore]
    have hn : ¬ ((m.dqPush cid r).core cid).desc.n = 0 := by rw [hd']; exact Nat.succ_ne_zero _
    have hi : (((m.dqPush cid r).core cid).desc.lifo + 63) % 64 = d.lifo := by rw [hd']; dsimp only; omega
    unfold Module.dqPop
    dsimp only
    rw [if_neg hn, hi, hrec]
    rfl
  · rw [Module.core_onCore, hcore]
    rfl
  · rw [hcore]

end Sys2Proof.Claims
end

section
/-!
PROOFS. The instructions that begin, move and end activations (R43, R44, R50–R53, R58, R59).
-/
namespace Sys2Proof.Machine
open Sys2Proof.Claims

variable {β : Type}

/-! ## Cycles counted -/

theorem counted_key (s : State) : (counted s).key = s.key := by
  simp only [State.key, counted, State.core, Module.onAct, Module.core_onCore, Core.ctx_onAct]

theorem counted_act (s : State) : (counted s).act = s.act.count s.m.time := by
  rw [State.act, counted_key]
  exact Module.act_onAct ..

/-- Counting changes the budget of the window alone. -/
theorem counted_win (s : State) (hw : s.act.win = some s.win) :
    ∃ b, (counted s).win = { s.win with ctl := { s.win.ctl with budget := b } } := by
  obtain ⟨h, g, b, ha⟩ := s.act.count_eq s.m.time
  refine ⟨b s.win, ?_⟩
  rw [State.win, counted_act, ha, hw]
  rfl

theorem counted_spec (s : State) : (counted s).core.spec = s.core.spec := by
  simp only [State.core, counted, Module.onAct, Module.core_onCore, Core.onAct_spec]

@[simp] theorem counted_cid (s : State) : (counted s).cid = s.cid := rfl

theorem countNow_bind (s : State) (f : Unit → Run β) : (Run.countNow >>= f) s = f () (counted s) := Run.bind_ok rfl

theorem noUpcall_bind {s : State} (h : swUpc s.sw = false) (f : Unit → Run β) : (noUpcall >>= f) s = f () s := by
  refine Run.bind_ok ?_
  rw [noUpcall, Run.get_bind, h]
  rfl

theorem begun_spec (s : State) : s.begun.core.spec = s.core.spec := by
  rw [State.core, State.begun_cid, State.begun_core]
  rfl

theorem begun_act_win (s : State) : s.begun.act.win = some s.begun.win := by rw [State.begun_act]

theorem State.act_setWin_win (s : State) (w : Win) : (s.setWin w).act.win = some w := by
  rw [State.act, State.key_setWin]
  show ((s.m.setWin s.cid s.key w).act s.cid s.key).win = _
  rw [Module.setWin, Module.act_onAct]

/-! ## END and YIELD -/

theorem endAct_leaves {s : State} {m' : Module} (hr : s.Running) (hk : s.key ≠ 64) (hl : s.ldQ = []) (hs : s.sdQ = [])
    (hj : s.win.ctl.joina ≠ 0#64 → Settled s.begun) (he : s.begun.m.endJoin s.cid s.begun.win.ctl = some m') :
    exec .endAct s = .next (s.leave { s.begun with
      m := (if swUpc s.sw then m'.clearV s.cid (s.win.ctl.waitv.toNat % 2 ^ 19) else m').release s.cid s.key }) := by
  have hkey : (s.begun.key == 64) = false := by rw [State.begun_key]; simpa using hk
  have hjoin : s.begun.win.ctl.joina = s.win.ctl.joina := by rw [State.begun_win]
  refine runInstr_leaves hr false _ ?_
  rw [Run.get_bind, hkey, Run.stopIf_false, noQueue_bind ⟨by rw [State.begun_ldQ, hl], by rw [State.begun_sdQ, hs]⟩]
  have hrel : ∀ f : Unit → Run After, (if s.begun.win.ctl.joina ≠ 0#64 then releases >>= f else f ()) s.begun =
      f () s.begun := fun f => by
    split
    next hn => exact releases_bind (hj (hjoin ▸ hn)) f
    · rfl
  refine (hrel _).trans ?_
  rw [State.begun_cid, he]
  have hw : s.begun.win.ctl.waitv = s.win.ctl.waitv := by rw [State.begun_win]
  have hsw : s.begun.win.ctl.sw = s.sw := State.begun_sw s
  simp only [Run.onM_bind, Run.pure_run, State.begun_key, hw, hsw]

theorem yield_leaves {s : State} (hr : s.Running) (h : MaySleep s) :
    let b := counted s.begun
    let c := { b.win.ctl with waitk := 7#4, cls := if s.win.ctl.path = 5#3 then s.win.ctl.cls else 4#3, budget := s.core.spec.budget }
    let t := b.setWin { b.win with ctl := c }
    let m := t.m.onAct s.cid s.key fun a => { a with grace := none, stepAt := if swSs s.sw then some s.win.ctl.pc else a.stepAt }
    exec .yield s = .next (s.leave { t with m := m.parkOrTrap s.cid s.key .ready }) := by
  obtain ⟨bud, hwin⟩ := counted_win s.begun (begun_act_win s)
  have hpath : (counted s.begun).win.ctl.path = s.win.ctl.path := by rw [hwin, State.begun_win]
  have hcls : (counted s.begun).win.ctl.cls = s.win.ctl.cls := by rw [hwin, State.begun_win]
  have hsw : (counted s.begun).sw = s.sw := by rw [State.sw, hwin, State.begun_win]; rfl
  have hspec : (counted s.begun).core.spec.budget = s.core.spec.budget := by rw [counted_spec, begun_spec]
  have hkey : (counted s.begun).key = s.key := by rw [counted_key, State.begun_key]
  refine runInstr_leaves hr false _ ?_
  rw [mayWait_bind h, noHandler_bind (by rw [State.begun_win]; exact h.hnd), countNow_bind, Run.get_bind]
  simp only [Run.onCtl_bind, Run.onM_bind, Run.pure_run]
  rw [hkey, hsw, hspec, hpath, hcls]
  rfl

end Sys2Proof.Machine

namespace Sys2Proof.Claims
open Sys2Proof.Machine

/-- SPAWN from a state in which its operands have been read and its task and join word are right. -/
theorem spawn_run {f : SpawnF} {s s1 s2 : State} {l : List Word}
    (hr : Reads s [⟨f.b, f.kb, .addr⟩, ⟨f.c, f.kc, .addr⟩] (some (.reg, f.a)) l s1)
    (hbad : ∀ k, k < 8 → s.win.live k = true → s.win.bad.contains k = false) (ha : bits (arg l 1) 2 0 = 0) (hn : bit (arg l 1) 63 = false)
    (h : (if 64 ≤ s1.core.desc.n then writeDst f.a 1
      else do
        Run.stopIf (!s1.m.dqOk s1.cid) .deadbank 0x7E000
        releases
        Run.stallIf (!s1.m.dqFree s1.cid)
        Run.onM fun m => m.dqPush s1.cid (spawned s s1 f.dom (arg l 0) (arg l 1))
        writeDst f.a 0 : Run Unit) (readEight s s1) = .ok ((), s2)) : exec (.spawn f) s = .next (s.retire s2) := by
  obtain ⟨w, hs1, -, -, hctl⟩ := operands_addr_state (by simp) hr.2
  have hlive : s.begun.win.live = s.win.live := by rw [State.begun_win]; rfl
  have hgr : s.begun.win.gr = s.win.gr := by rw [State.begun_win]; rfl
  have hany : ((upFrom 0 8).any fun k => s.begun.win.live k && s.begun.win.bad.contains k) = false := by
    rw [List.any_eq_false]
    intro k hk
    have hb : s.begun.win.bad = s.win.bad := by rw [State.begun_win]
    rw [hlive, hb]
    cases hl : s.win.live k
    · simp
    · rw [hbad k (mem_upFrom_zero.mp hk) hl]
      simp
  have hwin : s1.win.ctl = { s.begun.win.ctl with liveg := w.ctl.liveg } := by rw [hs1, State.win_setWin, hctl]
  have hdom : s1.win.ctl.dom = s.win.ctl.dom := by rw [hwin, State.begun_win]
  have hsw : s1.sw = s.sw := by rw [State.sw, hwin, State.begun_win]; rfl
  refine run_retires hr.1 _ ((Run.get_bind ..).trans ((Run.bind_ok hr.2).trans ((Run.get_bind ..).trans ?_)))
  dsimp only
  rw [hany, hlive, hgr, hdom, hsw]
  have h3 : decide (bits (arg l 1) 2 0 ≠ 0) = false := by simp [ha]
  simp only [Bool.false_eq_true, if_false, Run.pure_bind', Run.onWin_bind, h3, Run.stopIf_false, hn]
  exact h

/-- MIGR from a state in which its operand has been read, up to the choice that its target makes. -/
theorem migr_run {f : Src1} {s s1 : State} {l : List Word} {d : Nat} (hr : Reads s [⟨f.b, f.kb, .addr⟩] none l s1) (h : MaySleep s)
    (hg : bits s1.win.ctl.liveg 31 10 = 0) (hv : s1.win.ctl.livev = 0#16) (ho : s1.m.ownerCore s1.cid (arg l 0).toNat = some d) :
    let b := counted s1
    (d = s1.cid → exec (.migr f) s = .next (s.retire b)) ∧
    (∀ k, d ≠ s1.cid → Settled b → b.m.unsent s1.cid s1.aid = false → b.m.freeReply s1.cid = some k →
      (leaving s b d k (arg l 0)).flushBad s1.cid s1.act.wp b.win = none →
      exec (.migr f) s = .next (s.leave (migrating s b d k (arg l 0)))) := by
  obtain ⟨w, hs1, -, -, hctl⟩ := operands_addr_state (by simp) hr.2
  have hact1 : s1.act.win = some s1.win := by rw [hs1, State.act_setWin_win, State.win_setWin]
  have hwin : s1.win.ctl = { s.begun.win.ctl with liveg := w.ctl.liveg } := by rw [hs1, State.win_setWin, hctl]
  have hhnd : s1.win.ctl.hnd = false := by rw [hwin, State.begun_win]; exact h.hnd
  have hupc : swUpc s1.sw = false := by rw [State.sw, hwin, State.begun_win]; exact h.upc
  obtain ⟨bud, hcw⟩ := counted_win s1 hact1
  have hg' : bits (counted s1).win.ctl.liveg 31 10 = 0 := by rw [hcw]; exact hg
  have hv' : (counted s1).win.ctl.livev = 0#16 := by rw [hcw]; exact hv
  have haid : (counted s1).aid = s1.aid := by simp only [State.aid, hcw]; rfl
  have hwp : (counted s1).act.wp = s1.act.wp := by
    obtain ⟨h, g, b, ha⟩ := s1.act.count_eq s1.m.time
    rw [counted_act, ha]
  have hstop : (decide (bits (counted s1).win.ctl.liveg 31 10 ≠ 0) || decide ((counted s1).win.ctl.livev ≠ 0#16)) = false := by
    simp [hg', hv']
  have howner : (counted s1).m.ownerCore (counted s1).cid (arg l 0).toNat = some d := ho
  refine ⟨fun hd => runInstr_retires hr.1 false _ ?_, fun k hd hset hun hfree hb => runInstr_leaves hr.1 false _ ?_⟩
  · rw [noQueue_bind ⟨by rw [State.begun_ldQ]; exact h.queue.1, by rw [State.begun_sdQ]; exact h.queue.2⟩, Run.bind_ok hr.2, noHandler_bind hhnd,
      noUpcall_bind hupc, countNow_bind, Run.get_bind]
    dsimp only
    rw [hstop, Run.stopIf_false, howner]
    exact congrFun (if_pos hd) _
  · have hun' : (counted s1).m.unsent (counted s1).cid (counted s1).aid = false := by rw [haid]; exact hun
    have hfree' : (counted s1).m.freeReply (counted s1).cid = some k := hfree
    have hb' : (leaving s (counted s1) d k (arg l 0)).flushBad (counted s1).cid (counted s1).act.wp (counted s1).win = none := by
      rw [hwp]; exact hb
    rw [noQueue_bind ⟨by rw [State.begun_ldQ]; exact h.queue.1, by rw [State.begun_sdQ]; exact h.queue.2⟩, Run.bind_ok hr.2, noHandler_bind hhnd,
      noUpcall_bind hupc, countNow_bind, Run.get_bind]
    dsimp only
    rw [hstop, Run.stopIf_false, howner]
    refine (congrFun (if_neg hd) _).trans ?_
    rw [releases_bind hset, hun', Run.stallIf_false, hfree']
    dsimp only
    generalize hfb : Module.flushBad _ _ _ _ = o
    obtain rfl : o = none := hfb.symm.trans hb'
    rfl

/-- Settles O38. -/
theorem activationInstructions : Obligations.ActivationInstructions := by
  refine ⟨fun s m' hr hk hl hs hj he => endAct_leaves hr hk hl hs hj he, fun s hr h => yield_leaves hr h,
    fun f s s1 s2 l hr hbad ha hn => ⟨fun hfull hw => spawn_run hr hbad ha hn ?_, fun hroom hok hfree hset hw => spawn_run hr hbad ha hn ?_⟩, ?_⟩
  · rw [if_pos hfull]
    exact hw
  · rw [if_neg (by omega), hok, hfree]
    simp only [Bool.not_true, Run.stopIf_false, Run.stallIf_false]
    rw [releases_bind hset, Run.stallIf_false, Run.onM_bind]
    exact hw
  · exact fun f s s1 l d hr h hg hv ho => migr_run hr h hg hv ho

end Sys2Proof.Claims
end

section
/-!
PROOFS. Accesses to memory change no activation's handler mark and no status word (R36, R94, R228).
-/
namespace Sys2Proof.Machine
open Sys2Proof.Claims

variable {α β : Type}

/-! ## Handlers -/

/-- The handler mark and the status word of control words. -/
def Ctl.marks (c : Ctl) : Bool × Word := (c.hnd, c.sw)
/-- Those of a bound activation. -/
def Act.marks (a : Act) : Option (Bool × Word) := a.win.map fun w => w.ctl.marks

/-- From m to m' no bound activation has changed its handler mark or its status word, and every context holds what it held. -/
structure Calm (m m' : Module) : Prop where
  marks : ∀ cid key, (m'.act cid key).marks = (m.act cid key).marks
  ctx : ∀ cid k, ((m'.core cid).ctx k).act = ((m.core cid).ctx k).act

theorem Calm.refl (m : Module) : Calm m m := ⟨fun _ _ => rfl, fun _ _ => rfl⟩
theorem Calm.trans {a b c : Module} (h : Calm a b) (h' : Calm b c) : Calm a c :=
  ⟨fun i k => (h'.marks i k).trans (h.marks i k), fun i k => (h'.ctx i k).trans (h.ctx i k)⟩

theorem calm_of_cores {m m' : Module} (h : m'.cores = m.cores) : Calm m m' := by
  have hc : ∀ cid, m'.core cid = m.core cid := fun cid => by rw [Module.core, h]; rfl
  exact ⟨fun cid key => by rw [Module.act, hc]; rfl, fun cid k => by rw [hc]⟩

theorem calm_onCore (m : Module) (cid : Nat) {f : Core → Core} (hf : (f (m.core cid)).acts = (m.core cid).acts)
    (hx : ∀ k, ((f (m.core cid)).ctx k).act = ((m.core cid).ctx k).act) : Calm m (m.onCore cid f) := by
  refine ⟨fun i k => ?_, fun i k => ?_⟩ <;> by_cases h : i = cid
  · subst h; rw [Module.act, Module.core_onCore, Core.act, hf]; rfl
  · rw [Module.act, Module.core_onCore_other _ _ _ _ h]; rfl
  · subst h; rw [Module.core_onCore]; exact hx k
  · rw [Module.core_onCore_other _ _ _ _ h]

theorem calm_onAct (m : Module) (cid key : Nat) {f : Act → Act} (hf : (f (m.act cid key)).marks = (m.act cid key).marks) :
    Calm m (m.onAct cid key f) := by
  refine ⟨fun i k => ?_, fun i k => ?_⟩ <;> by_cases h : i = cid
  · subst h
    rw [Module.act, Module.onAct, Module.core_onCore]
    by_cases hk : k = key
    · subst hk; rw [Core.act_onAct]; exact hf
    · rw [Core.act, Core.onAct, Core.setAct, Tab.get_put_other _ _ _ _ _ hk]; rfl
  · rw [Module.act, Module.onAct, Module.core_onCore_other _ _ _ _ h]; rfl
  · subst h; rw [Module.onAct, Module.core_onCore]; rfl
  · rw [Module.onAct, Module.core_onCore_other _ _ _ _ h]

theorem calm_foldl (g : Module → β → Module) (hg : ∀ m b, Calm m (g m b)) : ∀ (l : List β) (m : Module), Calm m (l.foldl g m)
  | [], m => .refl m
  | b :: l, m => (hg m b).trans (calm_foldl g hg l (g m b))

/-! ## What a write wakes -/

theorem calm_touched (m : Module) (cid off n : Nat) : Calm m (m.touched cid off n) :=
  ⟨fun i k => by rw [(written_touched m cid off n 0 0).act], fun i k => (written_touched m cid off n 0 0).ctx i k⟩

theorem calm_setCtl (m : Module) (cid key : Nat) {c : Ctl} (hc : c.marks = (m.ctlOf cid key).marks) : Calm m (m.setCtl cid key c) := by
  cases h : (m.act cid key).win with
  | some w =>
    rw [Module.setCtl_bound h]
    refine calm_onAct m cid key ?_
    have : m.ctlOf cid key = w.ctl := by rw [Module.ctlOf, h]
    simp only [Act.marks, h, Option.map_some, hc, this]
  | none =>
    rw [Module.setCtl_unbound h]
    generalize c.encode = bs
    split
    · exact (calm_touched m cid ((m.act cid key).wp + 1280) 64).trans (calm_of_cores rfl)
    · exact .refl m

theorem calm_wake (m : Module) (cid key : Nat) (r : Option Word) : Calm m (m.wake cid key r) := by
  unfold Module.wake
  dsimp only
  refine Calm.trans (calm_setCtl m cid key ?_) (calm_onAct _ cid key rfl)
  rfl

theorem calm_fire (m : Module) (cid key : Nat) : Calm m (m.fire cid key) := by
  unfold Module.fire
  split
  · exact (calm_onCore m cid rfl fun _ => rfl).trans (calm_wake ..)
  · exact calm_onAct m cid key rfl
  · exact .refl m

theorem calm_dropResv (m : Module) (loc n : Nat) :
    Calm m { m with cores := m.cores.map fun e => (e.1, e.2.dropResv loc n) } := by
  have h : ∀ cid, ({ m with cores := m.cores.map fun e => (e.1, e.2.dropResv loc n) } : Module).core cid = (m.core cid).dropResv loc n :=
    fun cid => by exact Tab.get_map (d := ({} : Core)) (e := ({} : Core)) (fun c => c.dropResv loc n) rfl m.cores cid
  exact ⟨fun cid key => by rw [Module.act, h]; rfl, fun cid k => by rw [h]; exact dropResv_act ..⟩

theorem calm_noteLines (m : Module) (loc n : Nat) : Calm m (m.noteLines loc n) :=
  (calm_dropResv m loc n).trans (calm_foldl (fun m (p : Nat × Nat) => m.fire p.1 p.2) (fun m p => calm_fire m p.1 p.2) _ _)

theorem calm_noteBars (m : Module) (loc n : Nat) : Calm m (m.noteBars loc n) :=
  (calm_of_cores (m := m) (m' := { m with bwait := (m.bwait.partition fun w => meet w.loc 32 loc n).2 }) rfl).trans
    (calm_foldl (fun m (w : BWait) => m.wake w.cid w.key (some 1)) (fun m w => calm_wake m w.cid w.key (some 1))
      (m.bwait.partition fun w => meet w.loc 32 loc n).1 _)

theorem calm_putBytes (m : Module) (loc : Nat) (bs : List Byte) (bar : Bool) : Calm m (m.putBytes loc bs bar) := by
  have h : Calm m (Module.noteLines { m with mem := Mem.write m.mem loc bs, quar := clearQuar m.quar loc bs.length
                                             upsets := clearUpset m.upsets loc bs.length } loc bs.length) := by
    refine Calm.trans (calm_of_cores ?_) (calm_noteLines ..)
    rfl
  unfold Module.putBytes
  dsimp only
  split
  · exact h
  · exact h.trans (calm_noteBars ..)

/-! ## Records and errors -/

theorem calm_contain (m : Module) (cid : Nat) (r : FaultRec) : Calm m (m.contain cid r) := by
  unfold Module.contain
  split
  next m' h =>
    unfold Module.pushSup at h
    dsimp only at h
    split at h
    · cases h
    · cases h
      exact ((calm_touched ..).trans (calm_putBytes ..)).trans (calm_onCore _ cid rfl fun _ => rfl)
  · exact calm_onCore m cid rfl fun _ => rfl

theorem calm_siteContain (m : Module) (s : Nat) (r : FaultRec) : Calm m (m.siteContain s r) := by
  unfold Module.siteContain
  split
  · exact calm_contain ..
  · exact calm_of_cores rfl

theorem calm_noRoom (m : Module) (loc : Nat) : Calm m (m.noRoom loc) := by
  have h : Calm m (m.onSite (siteOfLoc loc) fun x => { x with mc := (m.site (siteOfLoc loc)).mc.retry }) := calm_of_cores rfl
  unfold Module.noRoom
  dsimp only
  split
  · exact (h.trans (calm_siteContain ..)).trans (calm_of_cores rfl)
  · exact h

theorem wordLost_cores (m : Module) (loc : Nat) : (m.wordLost loc).cores = m.cores := by
  unfold Module.wordLost
  dsimp only
  split
  · split <;> rfl
  · rfl

theorem calm_inspect (m : Module) (loc n : Nat) : Calm m (m.inspect loc n) :=
  (calm_of_cores (m := m) (m' := { m with upsets := (m.upsets.partition fun u => meet u.1 4 loc n).2 }) rfl).trans
    (calm_foldl _ (fun m u => by
      split
      · exact calm_of_cores (wordLost_cores ..)
      · exact calm_of_cores rfl) _ _)

/-! ## Lines of the stash -/

theorem calm_loseLine (m : Module) (cid line : Nat) : Calm m (m.loseLine cid line) :=
  (calm_onCore m cid (f := fun c => { c.dropResv line 1 with stash := Tab.del c.stash line, atom := Tab.del c.atom line }) rfl
      fun _ => dropResv_act ..).trans
    (calm_foldl (fun m (o : Monitor) => m.fire cid o.key) (fun m o => calm_fire m cid o.key) _ _)

theorem calm_setLine (m : Module) (cid line st : Nat) : Calm m (m.setLine cid line st) := by
  unfold Module.setLine
  split
  · exact calm_loseLine ..
  · exact calm_onCore m cid rfl fun _ => rfl

theorem calm_placeLine {m m' : Module} {line : Nat} {data : List Byte} {bad : List Nat} {whole : Bool}
    (h : m.placeLine line data bad whole = some m') : Calm m m' := by
  obtain ⟨mc, -, rfl⟩ := Option.map_eq_some_iff.mp h
  exact calm_of_cores rfl

theorem calm_writeBack {m m' : Module} {cid line st : Nat} (h : m.writeBack cid line st = .ok () m') : Calm m m' := by
  unfold Module.writeBack at h
  split at h
  · cases h; exact .refl m
  · split at h
    · split at h
      next hp => cases h; exact (calm_placeLine hp).trans (calm_setLine ..)
      next => cases h
    · cases h; exact calm_setLine ..

theorem calm_share (m : Module) (line : Nat) (keep : Option Nat) : Calm m (m.share line keep) :=
  calm_foldl _ (fun m c => by
    split
    next h => exact calm_writeBack h
    next => exact calm_noRoom ..) _ _

theorem calm_dramRead {m m' : Module} {loc n : Nat} {bs : List Byte} (h : m.dramRead loc n = .ok bs m') : Calm m m' := by
  unfold Module.dramRead at h
  dsimp only at h
  split at h
  · cases h
  · cases h
    exact calm_foldl _ (fun m l => (calm_share ..).trans (calm_inspect ..)) _ _

theorem calm_grant {m m' : Module} {line cid : Nat} {own : Bool} {x : Nat × List Byte × List Nat}
    (h : m.grant line cid own = .ok x m') : Calm m m' := by
  have hdrop : ∀ n : Module, Calm n (((m.holders line).filter (· ≠ cid)).foldl (fun m c => m.loseLine c line) n) :=
    calm_foldl _ (fun m c => calm_loseLine ..) _
  unfold Module.grant at h
  split at h
  · cases h
  · generalize hl : m.lineNow line = l at h
    obtain ⟨data, bad⟩ := l
    dsimp only at h
    split at h
    · split at h
      · cases h; exact .refl m
      · split at h
        next hp =>
          split at h
          · cases h; exact (calm_placeLine hp).trans (hdrop _)
          · cases h; exact (calm_placeLine hp).trans (calm_share ..)
        next => cases h; exact (calm_noRoom ..).trans (hdrop _)
    · split at h
      · cases h; exact hdrop m
      · cases h; exact calm_share ..

/-! ## Operations on the module -/

/-- The operation changes no handler mark where it is done. -/
structure Calms (x : MM α) : Prop where
  calm : ∀ {m : Module} {a : α} {m' : Module}, x m = .ok (a, m') → Calm m m'

theorem calms_bind {x : MM α} {f : α → MM β} (hx : Calms x) (hf : ∀ a, Calms (f a)) : Calms (x >>= f) := ⟨fun {m} {b} {m'} h => by
  cases hr : x m with
  | error e => rw [show (x >>= f) m = .error e by simp only [bind, StateT.bind, Except.bind, hr]] at h; cases h
  | ok r =>
    rw [show (x >>= f) m = f r.1 r.2 by simp only [bind, StateT.bind, Except.bind, hr]] at h
    exact (hx.calm hr).trans ((hf r.1).calm h)⟩

theorem calms_pure (a : α) : Calms (pure a : MM α) := ⟨fun {m} _ _ h => by cases h; exact .refl m⟩
theorem calms_get : Calms (get : MM Module) := ⟨fun {m} _ _ h => by cases h; exact .refl m⟩
theorem calms_fault (f : FInfo) : Calms (MM.fault f : MM α) := ⟨fun h => by cases h⟩
theorem calms_raise (c : Cause) (a : Nat) : Calms (MM.raise c a : MM α) := calms_fault _
theorem calms_stall : Calms (MM.stall : MM α) := ⟨fun h => by cases h⟩
theorem calms_stopIf (b : Bool) (c : Cause) (a : Nat) : Calms (MM.stopIf b c a) := by
  unfold MM.stopIf
  split
  · exact calms_raise ..
  · exact calms_pure _
theorem calms_upd {f : Module → Module} (hf : ∀ m, Calm m (f m)) : Calms (MM.upd f) := ⟨fun {m} _ _ h => by cases h; exact hf m⟩
theorem calms_home {f : Module → HomeRes α} (hf : ∀ {m a m'}, f m = .ok a m' → Calm m m') : Calms (MM.home f) := ⟨fun {m} {a} {m'} h => by
  unfold MM.home at h
  split at h
  next hm => cases h; exact hf hm
  next => cases h
  next => cases h⟩
theorem calms_ite {c : Prop} [Decidable c] {x y : MM α} (hx : Calms x) (hy : Calms y) : Calms (if c then x else y) := by
  split
  · exact hx
  · exact hy

/-! ## Accesses -/

theorem calms_xlate (home va cid : Nat) (a : Acc) (super : Bool) : Calms (xlate home va cid a super) := ⟨fun {m} {r} {m'} h => by
  have hfold : ∀ (n : Module) (l : List Nat) (g : Site → Site), Calm n ((l.foldl (fun m l => m.inspect l 8) n).onSite home g) :=
    fun n l g => (calm_foldl _ (fun m l => calm_inspect m l 8) l n).trans (calm_of_cores rfl)
  unfold xlate at h
  dsimp only at h
  split at h
  · split at h
    · cases h; exact .refl m
    · split at h
      · split at h
        · cases h
          refine Calm.trans (calm_of_cores ?_) (hfold _ _ _)
          rfl
        · split at h <;> cases h
      · split at h <;> cases h
      · split at h <;> cases h
      · cases h
  · split at h
    · split at h
      · cases h; exact hfold _ _ _
      · split at h <;> cases h
    · split at h <;> cases h
    · split at h <;> cases h
    · cases h⟩

theorem calms_readWords (loc n va : Nat) : Calms (readWords loc n va) :=
  calms_bind calms_get fun _ => calms_ite (calms_fault _) (calms_upd fun _ => calm_inspect ..)

theorem calms_lmCheck (by_ t off n : Nat) (k : LmAcc) (super : Bool) (va : Nat) : Calms (lmCheck by_ t off n k super va) := by
  refine calms_bind calms_get fun m => calms_bind (calms_stopIf ..) fun _ => ?_
  split
  · exact calms_raise ..
  · exact calms_raise ..
  · exact calms_stall
  · exact calms_bind (calms_upd fun _ => calm_of_cores rfl) fun _ => calms_ite (calms_readWords ..) (calms_pure _)

theorem calms_lmLoad (by_ t off n : Nat) (super : Bool) (va : Nat) : Calms (lmLoad by_ t off n super va) :=
  calms_bind (calms_lmCheck ..) fun _ => calms_bind calms_get fun _ => calms_pure _

theorem calms_keyLm (by_ t va : Nat) : Calms (keyLm by_ t va) := by
  refine calms_bind calms_get fun m => ?_
  have hrest : Calms (do
      MM.stopIf (!m.reach (siteOf by_) (siteOf t)) .noroute va
      MM.stopIf (siteOf by_ ≠ siteOf t && (m.core by_).spec.pk ≠ (m.core t).spec.pk) .pkey va) :=
    calms_bind (calms_stopIf ..) fun _ => calms_stopIf ..
  exact calms_ite (calms_bind calms_stall fun _ => hrest) hrest

theorem calms_keyHome (by_ home va : Nat) : Calms (keyHome by_ home va) := by
  refine calms_bind calms_get fun m => ?_
  have hrest : Calms (do
      MM.stopIf (!m.reach (siteOf by_) home) .noroute va
      MM.stopIf ((m.core by_).spec.pk ≠ (m.site home).pkey) .pkey va) :=
    calms_bind (calms_stopIf ..) fun _ => calms_stopIf ..
  exact calms_ite (calms_bind calms_stall fun _ => hrest) hrest

theorem calms_dramAt (cid home va : Nat) (a : Acc) (super : Bool) : Calms (dramAt cid home va a super) :=
  calms_bind (calms_keyHome ..) fun _ => calms_bind (calms_xlate ..) fun _ => calms_pure _

theorem calms_homeRead (loc n va : Nat) : Calms (homeRead loc n va) :=
  calms_bind calms_get fun _ => calms_ite (calms_fault _) (calms_home calm_dramRead)

theorem calms_waitOwn (cid aid loc : Nat) : Calms (waitOwn cid aid loc) :=
  calms_bind calms_get fun _ => calms_ite calms_stall (calms_pure _)

theorem calms_stashRoom (cid who va : Nat) : Calms (stashRoom cid who va) := by
  refine calms_bind calms_get fun m => ?_
  split
  · exact calms_home calm_writeBack
  · exact calms_pure _

theorem calms_atomRoom (cid who : Nat) : Calms (atomRoom cid who) := by
  refine calms_bind calms_get fun m => ?_
  split
  · exact calms_ite calms_stall (calms_home calm_writeBack)
  · exact calms_pure _

theorem calms_fillLine (cid who loc va : Nat) (own atom : Bool) : Calms (fillLine cid who loc va own atom) := by
  refine calms_bind calms_get fun m => ?_
  split
  · refine calms_ite (calms_bind (calms_home calm_grant) fun _ => calms_upd fun m => ?_) (calms_upd fun m => calm_onCore m cid rfl fun _ => rfl)
    exact (calm_noteBars ..).trans (calm_onCore _ cid rfl fun _ => rfl)
  · refine calms_bind (calms_home calm_grant) fun r => ?_
    have hput : ∀ x : SLine, Calms (MM.upd fun m => (if own then m.noteBars (lineOf loc) 64 else m).onCore cid fun c =>
        if atom then { c with atom := [(lineOf loc, x)] } else { c with stash := Tab.put c.stash (lineOf loc) x, uses := c.uses + 1 }) :=
      fun x => calms_upd fun m => by
        refine Calm.trans (b := if own then m.noteBars (lineOf loc) 64 else m) ?_ (calm_onCore _ cid ?_ fun _ => ?_)
        · split
          · exact calm_noteBars ..
          · exact .refl m
        · split <;> rfl
        · split <;> rfl
    exact calms_ite (calms_bind (calms_atomRoom ..) fun _ => hput _) (calms_bind (calms_stashRoom ..) fun _ => hput _)

theorem calms_fillRead (cid who loc va : Nat) (own atom : Bool) : Calms (fillRead cid who loc va own atom) := ⟨fun {m} {a} {m'} h => by
  unfold fillRead at h
  split at h
  · cases h; exact calm_noRoom ..
  · exact (calms_fillLine ..).calm h⟩

theorem calms_ownWords (cid loc n va : Nat) : Calms (ownWords cid loc n va) := by
  refine calms_bind calms_get fun m => ?_
  split
  · exact calms_stopIf ..
  · exact calms_readWords ..

theorem calms_lineOrHome (cid loc n va : Nat) : Calms (lineOrHome cid loc n va) :=
  calms_bind calms_get fun _ => calms_ite (calms_pure _) (calms_homeRead ..)

theorem calms_readOwn (cid aid loc : Nat) (bs : List Byte) : Calms (readOwn cid aid loc bs) := by
  refine calms_bind calms_get fun m => calms_ite calms_stall (calms_bind (calms_upd fun m => ?_) fun _ => calms_pure _)
  split
  · exact .refl m
  · exact calm_of_cores rfl

theorem calms_coreDramAt (cid home va : Nat) (a : Acc) (super : Bool) : Calms (coreDramAt cid home va a super) :=
  calms_bind calms_get fun _ => calms_ite (calms_bind (calms_xlate ..) fun _ => calms_pure _) (calms_dramAt ..)

theorem calms_dramLoad (cid who home va n : Nat) (a : Acc) (super : Bool) : Calms (dramLoad cid who home va n a super) := by
  refine calms_bind (calms_coreDramAt ..) fun r => calms_bind calms_get fun m => calms_ite calms_stall (calms_ite ?_ ?_)
  · exact calms_bind (calms_ownWords ..) fun _ => calms_bind (calms_fillRead ..) fun _ =>
      calms_bind (calms_lineOrHome ..) fun _ => calms_readOwn ..
  · exact calms_bind (calms_homeRead ..) fun _ => calms_readOwn ..

theorem blockRead_cores (m : Module) (gid b : Nat) : (m.blockRead gid b).cores = m.cores := by
  unfold Module.blockRead
  dsimp only
  split <;> rfl

theorem calms_groupRead (gid off n va : Nat) : Calms (groupRead gid off n va) := by
  refine calms_bind ?_ fun _ => calms_pure _
  refine calms_bind calms_get fun m => ?_
  dsimp only
  split
  · exact calms_bind (calms_upd fun _ => calm_of_cores rfl) fun _ => calms_pure _
  · have hrest : ∀ (b : Bool) (d : List Byte), Calms (do
        MM.upd fun m => m.blockRead gid (off / 256)
        MM.stopIf b .staletbl va
        MM.upd fun m => m.onGroup gid fun g =>
          { g with bufs := (if 64 ≤ g.bufs.length then g.bufs.drop 1 else g.bufs) ++ [(off / 256, d)] }
        return d) := fun b d =>
      calms_bind (calms_upd fun _ => calm_of_cores (blockRead_cores ..)) fun _ => calms_bind (calms_stopIf ..) fun _ =>
        calms_bind (calms_upd fun _ => calm_of_cores rfl) fun _ => calms_pure _
    exact calms_ite (calms_bind (calms_fault _) fun _ => hrest _ _) (hrest _ _)

theorem calms_sysAt (cid va : Nat) (a : Acc) (super : Bool) : Calms (sysAt cid va a super) := by
  refine calms_bind (calms_xlate ..) fun r => calms_bind calms_get fun m => calms_ite ?_ ?_
  · exact calms_bind (calms_stopIf ..) fun _ => calms_pure _
  · refine calms_bind (calms_stopIf ..) fun _ => calms_ite (calms_bind calms_stall fun _ => ?_) ?_
    all_goals exact calms_bind (calms_stopIf ..) fun _ => calms_bind (calms_stopIf ..) fun _ => calms_pure _

theorem calms_peerAsk (cid : Nat) (p : Packet) : Calms (peerAsk cid p) := ⟨fun {m} {a} {m'} h => by
  have hside : ∀ k, Calm m (m.side (.slot cid k)) := fun k =>
    calm_onCore m cid (f := fun c => { c with ni := { c.ni with slots := Tab.del c.ni.slots k } }) rfl fun _ => rfl
  unfold peerAsk at h
  split at h
  · split at h
    · cases h
    · cases h; exact hside _
    · cases h
  · cases h⟩

/-- No load changes a handler mark. -/
theorem calms_loadAt (cid who va n : Nat) (super stash : Bool) : Calms (loadAt cid who va n super stash) := by
  refine calms_bind calms_get fun m => ?_
  split
  · exact calms_bind (calms_keyLm ..) fun _ => calms_lmLoad ..
  · exact calms_groupRead ..
  · exact calms_ite (calms_dramLoad ..) (calms_bind (calms_dramAt ..) fun _ => calms_homeRead ..)
  · refine calms_bind (calms_sysAt ..) fun r => ?_
    split
    · exact calms_bind calms_get fun _ => calms_pure _
    · exact calms_peerAsk ..
  · exact calms_raise ..
  · exact calms_raise ..
  · exact calms_raise ..

/-- Nor does JOIN's read of its word. -/
theorem calms_joinRead (cid who va : Nat) (super : Bool) : Calms (joinRead cid who va super) := by
  refine calms_bind (calms_stopIf ..) fun _ => calms_bind calms_get fun m => ?_
  split
  · exact calms_bind (calms_loadAt ..) fun _ => calms_pure _
  · exact calms_bind (calms_dramAt ..) fun _ => calms_bind (calms_loadAt ..) fun _ => calms_pure _
  · exact calms_raise ..
  · exact calms_bind (calms_loadAt ..) fun _ => calms_pure _

/-- Nor does finding a barrier object. -/
theorem calms_barAt (cid va : Nat) (super : Bool) : Calms (barAt cid va super) := by
  refine calms_bind (calms_stopIf ..) fun _ => calms_bind calms_get fun m => ?_
  split
  · exact calms_bind (calms_keyLm ..) fun _ => calms_bind (calms_lmCheck ..) fun _ => calms_pure _
  · exact calms_bind (calms_dramAt ..) fun _ => calms_bind (calms_homeRead ..) fun _ => calms_pure _
  · exact calms_raise ..
  · exact calms_raise ..
  · exact calms_raise ..

/-- The focused activation is a handler after an operation on the module if it was one before. -/
theorem Calm.win_marks {s : State} {m : Module} (h : Calm s.m m) : ({ s with m := m } : State).win.ctl.marks = s.win.ctl.marks := by
  have hwin : ∀ a : Act, (a.win.getD {}).ctl.marks = a.marks.getD (false, 0#64) := fun a => by
    unfold Act.marks
    cases a.win <;> rfl
  have hkey : ({ s with m := m } : State).key = s.key := congrArg (·.getD 64) (h.ctx s.cid s.ctx)
  rw [State.win, State.win, hwin, hwin, State.act, hkey]
  exact congrArg (·.getD (false, 0#64)) (h.marks s.cid s.key)

theorem Calm.win_hnd {s : State} {m : Module} (h : Calm s.m m) : ({ s with m := m } : State).win.ctl.hnd = s.win.ctl.hnd :=
  congrArg Prod.fst h.win_marks
theorem Calm.status {s : State} {m : Module} (h : Calm s.m m) : ({ s with m := m } : State).sw = s.sw := congrArg Prod.snd h.win_marks

end Sys2Proof.Machine
end

section
/-!
PROOFS. Waits (R53, R224, R236, R237, R436, R437, R500).
-/
namespace Sys2Proof.Machine
open Sys2Proof.Claims

variable {β : Type}

/-- An instruction that may suspend has its operands, and no handler runs it. -/
theorem waiting_run {l : List Src} {dst : Option (Put × Opnd)} {s s1 : State} {vs : List Word} {γ : Type} {pre : Run γ} {a : γ}
    (hsl : MaySleep s) (hsrc : ∀ o ∈ l, o.use = .addr) (ho : operands l dst s.begun = .ok (vs, s1)) (hpre : pre s.begun = .ok (a, s1))
    (f : γ → Run β) : (mayWait >>= fun _ => pre >>= fun x => noHandler >>= fun _ => f x) s.begun = f a s1 :=
  (mayWait_bind hsl _).trans ((Run.bind_ok hpre).trans (noHandler_bind ((hnd_of_reads hsrc ho).trans hsl.hnd) _))

end Sys2Proof.Machine

namespace Sys2Proof.Claims
open Sys2Proof.Machine

/-- Settles O34: each condition is one branch of its instruction. -/
theorem waitInstructions : Obligations.WaitInstructions := by
  refine ⟨?_, ?_⟩
  · intro f s s1 l ⟨hr, ho⟩ st
    have hop : jobOperand f s.begun = .ok ((bits (arg l 0) 15 0, st), s1) := (Run.bind_ok ho).trans rfl
    refine ⟨fun s2 hw => run_retires hr _ ((Run.bind_ok hop).trans hw), fun hsl hst s2 hw => ?_, fun hsl hst => ?_⟩
    · refine runInstr_retires hr _ _ ((waiting_run hsl (by simp) ho hop _).trans ?_)
      dsimp only
      rw [if_pos hst]
      exact (Run.bind_ok hw).trans rfl
    · refine runInstr_leaves hr _ _ ((waiting_run hsl (by simp) ho hop _).trans ?_)
      dsimp only
      rw [if_neg (by rcases hst with h | h <;> simp [h])]
      rfl
  · intro f s s1 l ⟨hr, ho⟩ hsl
    refine ⟨fun hn s2 hw => ?_, fun hn => ?_, fun hres s2 hw => ?_, fun r hres hfull s2 hw => ?_, fun r hres hroom => ?_,
      fun v loc m' hj => ?_⟩
    · refine runInstr_retires hr _ _ ((waiting_run hsl (by simp) ho ho _).trans ?_)
      rw [if_pos hn]
      exact (Run.bind_ok hw).trans rfl
    · refine runInstr_leaves hr _ _ ((waiting_run hsl (by simp) ho ho _).trans ?_)
      rw [if_neg (by omega)]
      rfl
    · refine runInstr_retires hr _ _ ((waiting_run hsl (by simp) ho ho _).trans ?_)
      rw [Run.get_bind, hres]
      exact (Run.bind_ok hw).trans rfl
    · refine runInstr_retires hr _ _ ((waiting_run hsl (by simp) ho ho _).trans ?_)
      rw [Run.get_bind, hres]
      dsimp only
      rw [if_neg (by omega)]
      exact (Run.bind_ok (x := Run.onCore _) (t := unreserved s1) rfl).trans ((Run.bind_ok hw).trans rfl)
    · intro n m
      refine runInstr_leaves hr _ _ ((waiting_run hsl (by simp) ho ho _).trans ?_)
      rw [Run.get_bind, hres]
      dsimp only
      rw [if_pos hroom]
      have hmon : Run.onCore (fun c => { c.onCtx s1.ctx fun y => { y with resv := none } with mons := c.mons ++ [⟨r.line, s1.key⟩] }) s1 =
          .ok ((), { s1 with m := m }) := by
        have hm : m = s1.m.onCore s1.cid _ := Module.onCore_onCore s1.m s1.cid (fun c => c.onCtx s1.ctx fun y => { y with resv := none })
          (fun c => { c with mons := c.mons ++ [⟨r.line, s1.key⟩] })
        rw [hm]
        rfl
      exact (Run.bind_ok hmon).trans rfl
    · have hhnd : ({ s1 with m := m' } : State).win.ctl.hnd = false := by
        rw [((calms_joinRead ..).calm hj).win_hnd, hnd_of_reads (by simp) ho, hsl.hnd]
      refine ⟨fun hv s2 hw => ?_, fun hv => ?_⟩
      · refine runInstr_retires hr _ _ ((mayWait_bind hsl _).trans ((Run.bind_ok ho).trans ?_))
        rw [Run.get_bind]
        refine (Run.lift_ok hj).trans ((noHandler_bind hhnd _).trans ?_)
        rw [if_pos hv]
        exact (Run.bind_ok hw).trans rfl
      · intro mon m
        refine runInstr_leaves hr _ _ ((mayWait_bind hsl _).trans ((Run.bind_ok ho).trans ?_))
        rw [Run.get_bind]
        refine (Run.lift_ok hj).trans ((noHandler_bind hhnd _).trans ?_)
        rw [if_neg (by omega)]
        by_cases hm : mon = true
        · dsimp only [m]
          rw [show (loc.isSome && decide (s1.core.mons.length < 16)) = true from hm, if_pos rfl, if_pos hm]
          rw [hm]
          rfl
        · dsimp only [m]
          rw [show (loc.isSome && decide (s1.core.mons.length < 16)) = false from Bool.eq_false_iff.mpr hm, if_neg (by simp), if_neg hm]
          rw [Bool.eq_false_iff.mpr hm]
          rfl

end Sys2Proof.Claims
end

section
/-!
PROOFS. Barrier instructions (R226, R227, R231, R402).
-/
namespace Sys2Proof.Machine
open Sys2Proof.Claims

variable {α β : Type}

/-- What a body that goes through did at each of its two parts. -/
theorem Run.of_bind_ok {x : Run α} {f : α → Run β} {s t : State} {b : β} (h : (x >>= f) s = .ok (b, t)) :
    ∃ a u, x s = .ok (a, u) ∧ f a u = .ok (b, t) := by
  cases hx : x s with
  | error e => rw [Run.bind_error hx] at h; cases h
  | ok r => exact ⟨r.1, r.2, rfl, by rwa [Run.bind_ok hx] at h⟩

/-- An access changes the module alone. -/
theorem Run.of_lift_ok {x : MM α} {s t : State} {a : α} (h : Run.lift x s = .ok (a, t)) : ∃ m, x s.m = .ok (a, m) ∧ t = { s with m := m } := by
  unfold Run.lift at h
  split at h
  next hx => cases h; exact ⟨_, hx, rfl⟩
  next => cases h

/-- Finding a barrier object makes no handler and ends none. -/
theorem hnd_of_barOperands {f : BarF} {s s1 : State} {r : Nat × Bool × Word × Word} (h : barOperands f s.begun = .ok (r, s1)) :
    s1.win.ctl.hnd = s.win.ctl.hnd := by
  obtain ⟨l, t, ho, h⟩ := Run.of_bind_ok h
  rw [Run.get_bind] at h
  obtain ⟨p, u, hb, h⟩ := Run.of_bind_ok h
  obtain ⟨m, hm, rfl⟩ := Run.of_lift_ok hb
  have h1 : ({ t with m := m } : State).win.ctl.hnd = s.win.ctl.hnd := by
    rw [((calms_barAt ..).calm hm).win_hnd, hnd_of_reads (by simp) ho]
  dsimp only at h
  split at h
  · obtain ⟨_, v, hw, h⟩ := Run.of_bind_ok h
    obtain ⟨m', hm', rfl⟩ := Run.of_lift_ok hw
    cases h
    rw [← h1]
    exact ((calms_waitOwn ..).calm hm').win_hnd (s := { t with m := m })
  · cases h
    exact h1

/-- An access that its home performs. -/
theorem Run.home_ok {f : Module → HomeRes α} {g : α → Run β} {s : State} {m : Module} {a : α} (h : f s.m = .ok a m) :
    (Run.lift (MM.home f) >>= g) s = g a { s with m := m } :=
  Run.lift_ok (by unfold MM.home; rw [h])

/-- What a unit still holds for an activation has been joined by it. -/
theorem Site.answered_of_joined {x : Site} {loc cid key i r : Nat} {b : Combine} (hj : x.joined loc cid key = some (i, b))
    (hr : b.res = some r) : x.answered loc cid key = some (i, b, r) := by
  rw [Site.answered, hj]
  simp [hr]

/-- An instruction that leaves a request to another unit lets the cycle pass. -/
theorem run_asks {s : State} {c : Nat} {a : Ask} (h : s.Running) (body : Run Unit) (hb : body s.begun = .error (.ask c a)) :
    run body s = .next (s.rollback (s.groupNow.base.putAsk c a)) := by
  rw [run, runInstr_running h]
  simp only [bind, StateT.bind, Except.bind, hb]
  rfl

end Sys2Proof.Machine

namespace Sys2Proof.Claims
open Sys2Proof.Machine

/-- Settles O31: each condition is one branch of its instruction. -/
theorem barrierInstructionsComplete : Obligations.BarrierInstructionsComplete := by
  intro f s s1 loc dram c va hr ho
  have hhnd : ∀ h : MaySleep s, s1.win.ctl.hnd = false := fun h => (hnd_of_barOperands ho).trans h.hnd
  refine ⟨fun s2 hbusy hn hw => ?_, fun m' s2 hbusy h0 hn hp hw => ?_, fun r m' s2 hset hans hc hb hw => ?_,
    fun i b r s2 hset hj hres hw => ?_, fun s2 hset hv hw => ?_, fun s2 hset hv hn hw => ?_, fun done m' s2 hset hv hn hb hw => ?_,
    fun hsl s2 v hv hw => ?_, fun hsl hv hph => ?_, fun g hg hset => ?_⟩
  · refine run_retires hr _ ((Run.bind_ok ho).trans ((Run.get_bind _ s1).trans ?_))
    rw [hbusy, Run.stopIf_false, if_pos hn]
    exact hw
  · refine run_retires hr _ ((Run.bind_ok ho).trans ((Run.get_bind _ s1).trans ?_))
    rw [hbusy, Run.stopIf_false, if_neg (by omega)]
    exact (Run.home_ok hp).trans hw
  · refine run_retires hr _ ((releases_bind hset _).trans ((Run.bind_ok ho).trans ((Run.get_bind _ s1).trans ?_)))
    dsimp only
    rw [hans]
    have hno : ((s1.m.barObj loc).v && decide (bits c 31 0 ≠ 0) && decide (bits c 31 0 < 2 ^ 24) && s1.m.isNetBar loc) = false := by
      rcases hc with h | h | h | h
      · simp [h]
      · simp [h]
      · simp only [decide_eq_false (Nat.not_lt.mpr h), Bool.and_false, Bool.false_and]
      · simp [h]
    dsimp only
    rw [hno]
    rw [if_neg Bool.false_ne_true, Run.onM_bind]
    generalize s1.m.leaveComb (siteOf s1.cid) s1.cid s1.key = n at hb ⊢
    generalize bits c 31 0 = k at hb ⊢
    exact (Run.home_ok (s := { s1 with m := n }) hb).trans hw
  · refine run_retires hr _ ((releases_bind hset _).trans ((Run.bind_ok ho).trans ((Run.get_bind _ s1).trans ?_)))
    dsimp only
    rw [Site.answered_of_joined hj hres]
    exact hw
  · refine run_retires hr _ ((releases_bind hset _).trans ((Run.bind_ok ho).trans ((Run.get_bind _ s1).trans ?_)))
    rw [hv]
    exact hw
  · refine run_retires hr _ ((releases_bind hset _).trans ((Run.bind_ok ho).trans ((Run.get_bind _ s1).trans ?_)))
    rw [hv, Bool.not_true, if_neg Bool.false_ne_true, if_pos hn]
    exact hw
  · refine run_retires hr _ ((releases_bind hset _).trans ((Run.bind_ok ho).trans ((Run.get_bind _ s1).trans ?_)))
    rw [if_neg (by rw [hv]; exact Bool.false_ne_true), if_neg (by omega)]
    generalize ((s1.m.barObj loc).pend + bits c 31 0) % 2 ^ 32 = k at hb ⊢
    exact (Run.home_ok (f := fun m => m.barChange loc dram { s1.m.barObj loc with pend := k }) hb).trans hw
  · refine runInstr_retires hr _ _ ((mayWait_bind hsl _).trans ((Run.bind_ok ho).trans ((noHandler_bind (hhnd hsl) _).trans ((Run.get_bind _ s1).trans ?_))))
    dsimp only
    rcases hv with ⟨hv, rfl⟩ | ⟨hv, hph, rfl⟩
    · rw [hv]
      exact (Run.bind_ok hw).trans rfl
    · rw [hv, Bool.not_true, if_neg Bool.false_ne_true, if_pos hph]
      exact (Run.bind_ok hw).trans rfl
  · intro room m
    refine runInstr_leaves hr _ _ ((mayWait_bind hsl _).trans ((Run.bind_ok ho).trans ((noHandler_bind (hhnd hsl) _).trans ((Run.get_bind _ s1).trans ?_))))
    dsimp only
    rw [hv, Bool.not_true, if_neg Bool.false_ne_true, if_neg (by simp [hph])]
    dsimp only [m, room]
    by_cases hroom : (s1.m.bwait.filter fun w => placeOf w.loc == placeOf loc).length < Config.barRoom
    · rw [if_pos hroom, if_pos hroom]
      rfl
    · rw [if_neg hroom, if_neg hroom]
      rfl
  · subst hg
    refine ⟨fun s2 hv hw => ?_, fun m' s2 hv hp hw => ?_⟩
    · refine run_retires hr _ ((releases_bind hset _).trans ((Run.bind_ok ho).trans ((Run.get_bind _ s1).trans ?_)))
      rw [hv]
      exact hw
    · refine run_retires hr _ ((releases_bind hset _).trans ((Run.bind_ok ho).trans ((Run.get_bind _ s1).trans ?_)))
      rw [if_neg (by rw [hv]; exact Bool.false_ne_true)]
      exact (Run.home_ok (f := fun m => m.barPut loc dram (barEncode (m.barWord loc) { s1.m.barObj loc with v := false })) hp).trans hw

end Sys2Proof.Claims
end

section
/-!
PROOFS. Arrivals at barrier objects (R226, R227, R231).
-/
namespace Sys2Proof.Machine
open Sys2Proof.Claims

/-! ## The object's number -/

/-- Every field of an object is within its width. -/
structure BarObj.Fits (o : BarObj) : Prop where
  target : o.target < 2 ^ 24
  count : o.count < 2 ^ 24
  pend : o.pend < 2 ^ 32
  scope : o.scope < 16

theorem barDecode_fits (x : Nat) : (barDecode x).Fits :=
  ⟨Nat.mod_lt _ (by decide), Nat.mod_lt _ (by decide), Nat.mod_lt _ (by decide), Nat.mod_lt _ (by decide)⟩

theorem arrived_fits {o : BarObj} (h : o.Fits) (c : Nat) : (arrived o c).Fits := by
  obtain ⟨ht, hc, hp, hs⟩ := h
  unfold arrived
  dsimp only
  split
  · exact ⟨ht, Nat.two_pow_pos 24, hp, hs⟩
  · exact ⟨ht, (Nat.min_le_right ..).trans_lt ht, hp, hs⟩

/-- An object's fields over a number, the bits between them being the number's. -/
def BarObj.fields (old : Nat) (o : BarObj) : List (Nat × Nat) :=
  [(24, o.target), (8, fieldOf old 31 24), (24, o.count), (8, fieldOf old 63 56), (32, o.pend), (1, o.phase.toNat), (1, o.v.toNat), (4, o.scope),
    (154, old / 2 ^ 102)]

theorem BarObj.fieldsFit {old : Nat} (hold : old < 2 ^ 256) {o : BarObj} (h : o.Fits) : FieldsFit (o.fields old) := by
  obtain ⟨ht, hc, hp, hs⟩ := h
  have h1 : fieldOf old 31 24 < 2 ^ 8 := Nat.mod_lt _ (by decide)
  have h2 : fieldOf old 63 56 < 2 ^ 8 := Nat.mod_lt _ (by decide)
  have h3 : old / 2 ^ 102 < 2 ^ 154 := Nat.div_lt_of_lt_mul (by rw [← Nat.pow_add]; exact hold)
  simp only [FieldsFit, BarObj.fields, List.forall_mem_cons, List.not_mem_nil, false_imp_iff, implies_true, and_true]
  have := o.phase.toNat_le
  have := o.v.toNat_le
  exact ⟨ht, h1, hc, h2, hp, by omega, by omega, hs, h3⟩

theorem barEncode_eq (old : Nat) (o : BarObj) : barEncode old o = packed (o.fields old) := by
  simp only [barEncode, BarObj.fields, packed]
  generalize fieldOf old 31 24 = a
  generalize fieldOf old 63 56 = b
  generalize old / 2 ^ 102 = c
  omega

/-- The bytes of an object hold it. -/
theorem barDecode_encode {old : Nat} (hold : old < 2 ^ 256) {o : BarObj} (h : o.Fits) : barDecode (leNat (leBytes 32 (barEncode old o))) = o := by
  have hf : HoldsFields (leNat (leBytes 32 (barEncode old o))) 0 (o.fields old) := by
    rw [barEncode_eq]
    exact holdsFields_bytes (BarObj.fieldsFit hold h) (by simp [BarObj.fields])
  generalize leNat (leBytes 32 (barEncode old o)) = x at hf
  simp only [BarObj.fields, HoldsFields, Nat.zero_add, Nat.reduceAdd] at hf
  obtain ⟨ht, -, hc, -, hp, hph, hv, hs, -⟩ := hf
  simp only [barDecode, fieldOf, Nat.reduceAdd, Nat.reduceSub, ht, hc, hp, hph, hv, hs, toNat_beq_one]

theorem leNat_lt (l : List Byte) : leNat l < 256 ^ l.length := by
  induction l with
  | nil => exact Nat.one_pos
  | cons b l ih =>
    have := b.isLt
    rw [leNat, List.length_cons, Nat.pow_succ]
    omega

/-! ## An arrival is one put -/

/-- What the change of a valid object by an arrival puts in its place. -/
theorem arriveAt_eq {m : Module} {loc : Nat} (dram : Bool) (c : Nat) (hv : (m.barObj loc).v = true) :
    let done := min ((m.barObj loc).count + c) (m.barObj loc).target = (m.barObj loc).target ∧ (m.barObj loc).pend = 0
    m.arriveAt loc dram c = (m.barPut loc dram (barEncode (m.barWord loc) (arrived (m.barObj loc) c))).bind fun _ n =>
      .ok (arrivalAnswer (m.barObj loc) c) (if done then n.phaseDone loc else n) := by
  intro done
  have hdone : ((m.barObj loc).v && min ((m.barObj loc).count + c) (m.barObj loc).target == (m.barObj loc).target &&
      (m.barObj loc).pend == 0) = decide done := by
    rw [hv, Bool.true_and]
    by_cases h1 : min ((m.barObj loc).count + c) (m.barObj loc).target = (m.barObj loc).target <;>
      by_cases h2 : (m.barObj loc).pend = 0 <;> simp [done, h1, h2]
  unfold Module.arriveAt
  dsimp only
  rw [if_neg (by rw [hv]; exact Bool.false_ne_true), Module.barChange]
  dsimp only
  rw [hdone]
  have harr : (if decide done = true then
      { m.barObj loc with count := 0, phase := !(m.barObj loc).phase }
      else { m.barObj loc with count := min ((m.barObj loc).count + c) (m.barObj loc).target }) = arrived (m.barObj loc) c := by
    unfold arrived
    by_cases hd : done
    · rw [if_pos (decide_eq_true hd), if_pos hd]
    · rw [if_neg (by simpa using hd), if_neg hd]
  rw [harr]
  cases m.barPut loc dram (barEncode (m.barWord loc) (arrived (m.barObj loc) c)) with
  | full l => rfl
  | defer l k w => rfl
  | ok u n =>
    unfold arrivalAnswer
    by_cases hd : done
    · simp only [HomeRes.bind, decide_eq_true hd, if_pos hd, if_pos (show min ((m.barObj loc).count + c) (m.barObj loc).target =
        (m.barObj loc).target ∧ (m.barObj loc).pend = 0 from hd)]
      rfl
    · simp only [HomeRes.bind, decide_eq_false hd, if_neg hd, if_neg (show ¬ (min ((m.barObj loc).count + c) (m.barObj loc).target =
        (m.barObj loc).target ∧ (m.barObj loc).pend = 0) from hd)]
      rfl

/-- An arrival of a count within its bounds is one of the object's own. -/
theorem bara_eq {m : Module} {loc c : Nat} (dram : Bool) (hc : c < 2 ^ 24) : m.bara loc dram c = m.arriveAt loc dram c := by
  rw [Module.bara, decide_eq_false (Nat.not_le.mpr hc), Bool.and_false, if_neg Bool.false_ne_true]

/-! ## Waiters -/

/-- Completion leaves every object, memory and the registration of network barriers as they are. -/
theorem phaseDone_unwaited {m : Module} {loc : Nat} (hw : m.bwait.filter (fun w => w.loc == loc) = []) (hn : m.isNetBar loc = false) :
    m.phaseDone loc = m := by
  have hk : m.bwait.filter (fun w => !(w.loc == loc)) = m.bwait :=
    List.filter_eq_self.mpr fun w h => by simpa using List.filter_eq_nil_iff.mp hw w h
  rw [Module.phaseDone, if_neg (by rw [hn]; exact Bool.false_ne_true), Module.wakeBar, List.partition_eq_filter_filter]
  dsimp only
  rw [hw, show (Bool.not ∘ fun w : BWait => w.loc == loc) = fun w => !(w.loc == loc) from rfl, hk]
  rfl

theorem phaseDone_network {m : Module} {loc : Nat} (hn : m.isNetBar loc = true) : m.phaseDone loc =
    { m with bwait := m.bwait.filter (fun w => w.loc ≠ loc), bdone := m.bdone ++ m.bwait.filter fun w => w.loc = loc } := by
  have h1 : (m.bwait.filter fun w => w.loc == loc) = m.bwait.filter fun w => w.loc = loc := List.filter_congr fun w _ => rfl
  have h2 : m.bwait.filter (Bool.not ∘ fun w => w.loc == loc) = m.bwait.filter fun w => w.loc ≠ loc := List.filter_congr fun w _ => by
    by_cases h : w.loc = loc <;> simp [h]
  rw [Module.phaseDone, if_pos hn, List.partition_eq_filter_filter]
  dsimp only
  rw [h1, h2]

/-- Nobody waits on an object whose bytes nobody watches. -/
theorem unwaited {m : Module} {a n loc : Nat} (h : Unwatched m a n) (hl : a ≤ loc) (hn : loc + 32 ≤ a + n) :
    m.bwait.filter (fun w => w.loc == loc) = [] := by
  rw [List.filter_eq_nil_iff]
  intro w hw hloc
  have := List.filter_eq_nil_iff.mp h.2 w hw
  simp only [meet, Bool.not_eq_true, Bool.and_eq_false_iff, decide_eq_false_iff_not] at this
  have hloc : w.loc = loc := by simpa using hloc
  omega

/-! ## Objects in LM -/

/-- A barrier operation's write fires no barrier: bytes on whose lines no monitor stands are stored and nothing else happens. -/
theorem putBytes_bar {m : Module} {loc : Nat} {bs : List Byte} (h : m.watched loc bs.length = []) : m.putBytes loc bs true = m.stored loc bs := by
  have hn := noteLines_unwatched (m := { m with mem := Mem.write m.mem loc bs, quar := clearQuar m.quar loc bs.length
                                                upsets := clearUpset m.upsets loc bs.length }) (loc := loc) (n := bs.length) h
  unfold Module.putBytes
  dsimp only
  rw [hn]
  rfl

/-- The owner that the LPCT names for a location holds it. -/
theorem lmAt_lmOwner {m : Module} {loc c off : Nat} (h : m.lmOwner loc = some (c, off)) : m.lmAt c off = loc := by
  obtain ⟨k, hk, he⟩ := Option.map_eq_some_iff.mp h
  obtain ⟨rfl, rfl⟩ := Prod.mk.inj he
  have hp := List.find?_some hk
  simp only [Bool.and_eq_true, beq_iff_eq] at hp
  rw [Module.lmAt, lmLoc, hp.2]
  omega

/-- An object in LM is put as a store of its bytes. -/
theorem barPut_lm {m : Module} {loc x : Nat} (hw : m.watched loc 32 = []) (hp : PlainLm m loc 32) :
    m.barPut loc false x = .ok () (m.stored loc (leBytes 32 x)) := by
  have hlen := leBytes_length 32 x
  rw [Module.barPut, if_neg Bool.false_ne_true]
  generalize leBytes 32 x = bs at hlen ⊢
  cases ho : m.lmOwner loc with
  | none => exact congrArg (HomeRes.ok ()) (putBytes_bar (by rw [hlen]; exact hw))
  | some p =>
    obtain ⟨c, off⟩ := p
    obtain ⟨hwr, hd⟩ := hp c off ho
    have hmerge := merge_whole (w := (m.core c).writable) (old := m.lmRead c off bs.length) rfl (lmRead_length ..) (by rw [hlen]; exact hwr)
    have hst : m.lmStore c off bs true = m.putBytes (m.lmAt c off) bs true := by
      unfold Module.lmStore
      dsimp only
      rw [if_neg (by rw [hlen, meet_of_sub hd (by decide)]; exact Bool.false_ne_true)]
      exact congrArg (fun l => m.putBytes (m.lmAt c off) l true) hmerge
    rw [lmAt_lmOwner ho] at hst
    exact congrArg (HomeRes.ok ()) (hst.trans (putBytes_bar (by rw [hlen]; exact hw)))

/-- Its number is that of the bytes of memory there. -/
theorem barWord_lm {m : Module} {loc : Nat} (hl : isLm loc = true) (hp : PlainLm m loc 32) : m.barWord loc = leNat (Mem.read m.mem loc 32) := by
  refine congrArg leNat ?_
  rw [if_pos hl]
  cases ho : m.lmOwner loc with
  | none => rfl
  | some p =>
    obtain ⟨c, off⟩ := p
    exact (lmRead_eq_read (hp c off ho).2).trans (by rw [lmAt_lmOwner ho])

theorem writable_stored (m : Module) (loc : Nat) (bs : List Byte) (c : Nat) : ((m.stored loc bs).core c).writable = (m.core c).writable := by
  rw [core_stored]
  rfl

/-- What has been put in LM is the object there. -/
theorem barObj_stored {m : Module} {loc : Nat} {o : BarObj} (hl : isLm loc = true) (hwf : Mem.wf m.mem = true) (hp : PlainLm m loc 32) (ho : o.Fits) :
    (m.stored loc (leBytes 32 (barEncode (m.barWord loc) o))).barObj loc = o := by
  have hold : m.barWord loc < 2 ^ 256 := by
    rw [barWord_lm hl hp]
    have := leNat_lt (Mem.read m.mem loc 32)
    rwa [Mem.read_length] at this
  have hlen := leBytes_length 32 (barEncode (m.barWord loc) o)
  have hdec := barDecode_encode hold ho
  generalize leBytes 32 (barEncode (m.barWord loc) o) = bs at hlen hdec
  have hread := Mem.read_write_same hwf loc bs
  rw [hlen] at hread
  have hp' : PlainLm (m.stored loc bs) loc 32 := fun c off h => by
    rw [writable_stored]
    exact hp c off h
  rw [Module.barObj, barWord_lm hl hp', stored_mem, hread]
  exact hdec

/-! ## Objects in DRAM -/

/-- A line that no core holds. -/
theorem holders_eq_nil {m : Module} {line : Nat} : m.holders line = [] ↔ ∀ e ∈ m.cores, e.2.held line = none := by
  simp [Module.holders, List.filter_eq_nil_iff]

theorem holders_congr {m m' : Module} (h : m'.cores = m.cores) (line : Nat) : m'.holders line = m.holders line := by
  rw [Module.holders, h]
  rfl

theorem dirtyAt_unheld {m : Module} {line : Nat} (h : m.holders line = []) : m.dirtyAt line = none := by
  rw [Module.dirtyAt, List.findSome?_eq_none_iff]
  intro e he
  rw [holders_eq_nil.mp h e he]
  rfl

theorem lineNow_unheld {m : Module} {line : Nat} (h : m.holders line = []) : (m.lineNow line).1 = Mem.read m.mem line 64 := by
  rw [Module.lineNow, dirtyAt_unheld h]
  rfl

theorem holders_stored {m : Module} {line : Nat} (h : m.holders line = []) (loc : Nat) (bs : List Byte) : (m.stored loc bs).holders line = [] := by
  rw [holders_eq_nil] at h ⊢
  intro e he
  obtain ⟨x, hx, rfl⟩ := List.mem_map.mp he
  exact h x hx

/-- The line that holds an aligned object. -/
theorem linesOf_object {loc : Nat} (h : loc % 32 = 0) : linesOf loc 32 = [lineOf loc] := by
  have hn : (loc + 32 - 1) / 64 + 1 - loc / 64 = 1 := by omega
  rw [linesOf, hn]
  rfl

/-- Its number is that of the bytes of memory there. -/
theorem barWord_dram {m : Module} {loc : Nat} (hl : isLm loc = false) (ha : loc % 32 = 0) (h : m.holders (lineOf loc) = []) :
    m.barWord loc = leNat (Mem.read m.mem loc 32) := by
  refine congrArg leNat ?_
  rw [if_neg (by rw [hl]; exact Bool.false_ne_true), Module.now, linesOf_object ha, List.flatMap_cons, List.flatMap_nil, List.append_nil,
    lineNow_unheld h, Mem.read_eq_map, Mem.read_eq_map]
  refine List.ext_getElem (by simp; omega) fun i h1 h2 => ?_
  simp only [List.getElem_take, List.getElem_drop, List.getElem_map, List.getElem_range]
  rw [← Nat.add_assoc, lineOf, show loc / 64 * 64 + loc % 64 = loc by omega]

theorem placeLine_keeps {m n : Module} {line : Nat} {data : List Byte} {bad : List Nat} {whole : Bool}
    (h : m.placeLine line data bad whole = some n) :
    n.mem = Mem.write m.mem line data ∧ n.cores = m.cores ∧ n.bwait = m.bwait ∧ ∀ s, (n.site s).bars = (m.site s).bars := by
  obtain ⟨mc, -, rfl⟩ := Option.map_eq_some_iff.mp h
  refine ⟨rfl, rfl, rfl, fun s => ?_⟩
  show ((m.onSite (siteOfLoc line) fun y => { y with mc := mc }).site s).bars = _
  by_cases hs : s = siteOfLoc line
  · subst hs
    rw [Module.site_onSite]
  · rw [Module.site_onSite_other _ _ _ _ hs]

/-- A barrier operation's write of an object in a line that no core holds puts the bytes there, where the home places the line. -/
theorem dramWrite_object {m : Module} {loc : Nat} {bs : List Byte} (ha : loc % 32 = 0) (hlen : bs.length = 32) (h : m.holders (lineOf loc) = [])
    (hw : m.watched loc 32 = []) :
    (∃ l, m.dramWrite loc bs true = .full l) ∨
    ∃ data bad whole n, m.placeLine (lineOf loc) data bad whole = some n ∧ m.dramWrite loc bs true = .ok () (n.stored loc bs) := by
  have hdef : m.deferrer (lineOf loc) none = none := by rw [Module.deferrer, h]; rfl
  unfold Module.dramWrite
  rw [hlen, linesOf_object ha, HomeRes.each, Module.lineWrite, hdef]
  dsimp only
  cases hp : m.placeLine (lineOf loc) (overlay (lineOf loc) (m.lineNow (lineOf loc)).1 loc bs) (clearQuar (m.lineNow (lineOf loc)).2 loc bs.length)
      (m.dirtyAt (lineOf loc)).isSome with
  | none => exact .inl ⟨_, rfl⟩
  | some n =>
    refine .inr ⟨_, _, _, n, hp, ?_⟩
    obtain ⟨-, hcores, -, -⟩ := placeLine_keeps hp
    have hn : n.watched loc bs.length = [] := by rw [hlen, watched_congr hcores, hw]
    dsimp only [HomeRes.bind, HomeRes.each]
    rw [holders_congr hcores, h, List.foldl_nil, putBytes_bar hn]

/-! ## Combined arrivals -/

theorem findIdx_none {α : Type} {p : α → Bool} {l : List α} (h : ∀ x ∈ l, p x = false) : findIdx p l = none := by
  induction l with
  | nil => rfl
  | cons x l ih =>
    rw [findIdx, h x (List.mem_cons_self ..), ih fun y hy => h y (List.mem_cons_of_mem _ hy)]
    rfl

theorem findIdx_append {α : Type} {p : α → Bool} {pre post : List α} {b : α} (h : ∀ x ∈ pre, p x = false) (hb : p b = true) :
    findIdx p (pre ++ b :: post) = some (pre.length, b) := by
  induction pre with
  | nil => rw [List.nil_append, findIdx, if_pos hb]; rfl
  | cons x l ih =>
    rw [List.cons_append, findIdx, h x (List.mem_cons_self ..), ih fun y hy => h y (List.mem_cons_of_mem _ hy)]
    rfl

theorem setAt_append {α : Type} (pre post : List α) (b v : α) : setAt (pre ++ b :: post) pre.length v = pre ++ v :: post := by
  induction pre with
  | nil => rfl
  | cons x l ih => rw [List.cons_append, List.length_cons, setAt, ih]; rfl

end Sys2Proof.Machine

namespace Sys2Proof.Claims
open Sys2Proof.Machine

/-- Settles O32: an arrival is one put of the changed object, and the put's bytes are what the next read decodes. -/
theorem barrierArrival : Obligations.BarrierArrival := by
  have hgo : ∀ {m : Module} {loc n : Nat}, (m.barObj loc).v = true → 0 < n → n < 2 ^ 24 → m.isNetBar loc = true →
      ((m.barObj loc).v && decide (n ≠ 0) && decide (n < 2 ^ 24) && m.isNetBar loc) = true := fun hv h0 hn hnet => by
    rw [hv, hnet, decide_eq_true (Nat.ne_of_gt h0), decide_eq_true hn]
    rfl
  refine ⟨fun m loc c hl hwf hv hc hu hnet hp => ?_, fun m loc c hl ha hwf hv hc hh hu hnet => ?_,
    fun f s s1 loc dram c va hr ho hset hans hv h0 hc hnet => ⟨fun hj => run_asks hr _ ?_, fun hj => run_waits hr _ ?_⟩,
    fun m site loc c cid key hfree => ?_, fun m loc c hl hwf hv hw hnet hp => ?_⟩
  · have hput := barPut_lm (x := barEncode (m.barWord loc) (arrived (m.barObj loc) c)) hu.1 hp
    have hobj : (m.stored loc (leBytes 32 (barEncode (m.barWord loc) (arrived (m.barObj loc) c)))).barObj loc = arrived (m.barObj loc) c :=
      barObj_stored hl hwf hp (arrived_fits (barDecode_fits (m.barWord loc)) c)
    refine ⟨_, by rw [bara_eq false hc, arriveAt_eq false c hv, hput]; rfl, ?_⟩
    generalize leBytes 32 (barEncode (m.barWord loc) (arrived (m.barObj loc) c)) = bs at hobj ⊢
    have hdone : (m.stored loc bs).phaseDone loc = m.stored loc bs :=
      phaseDone_unwaited (unwaited (m := m) hu (Nat.le_refl _) (Nat.le_refl _)) hnet
    rw [hdone, ite_self]
    exact hobj
  · intro w
    have hfits : (arrived (m.barObj loc) c).Fits := arrived_fits (barDecode_fits (m.barWord loc)) c
    have hold : m.barWord loc < 2 ^ 256 := by
      rw [barWord_dram hl ha hh]
      have := leNat_lt (Mem.read m.mem loc 32)
      rwa [Mem.read_length] at this
    have hu' : Unwatched m loc 32 := unwatched_sub hu (by rw [lineOf]; omega) (by rw [lineOf]; omega)
    have harr : m.bara loc true c = w.bind fun _ n => .ok (arrivalAnswer (m.barObj loc) c)
        (if min ((m.barObj loc).count + c) (m.barObj loc).target = (m.barObj loc).target ∧ (m.barObj loc).pend = 0 then n.phaseDone loc
         else n) := by
      rw [bara_eq true hc, arriveAt_eq true c hv]
      rfl
    have hdec := barDecode_encode hold hfits
    have hlen := leBytes_length 32 (barEncode (m.barWord loc) (arrived (m.barObj loc) c))
    rw [harr]
    dsimp only [w]
    generalize leBytes 32 (barEncode (m.barWord loc) (arrived (m.barObj loc) c)) = bs at hlen hdec ⊢
    rcases dramWrite_object ha hlen hh hu'.1 with ⟨l, he⟩ | ⟨data, bad, whole, n, hpl, he⟩
    · rw [he]
      rfl
    · rw [he]
      refine ⟨_, rfl, ?_⟩
      obtain ⟨hmem, hcores, hbw, hbars⟩ := placeLine_keeps hpl
      have hnet' : (n.stored loc bs).isNetBar loc = false := by
        rw [← hnet]
        exact congrArg (·.contains loc) (hbars (siteOfObj loc))
      have hbw' : (n.stored loc bs).bwait.filter (fun w => w.loc == loc) = [] := by
        rw [stored_bwait, hbw]
        exact unwaited hu' (Nat.le_refl _) (Nat.le_refl _)
      have hread := Mem.read_write_same (mem := n.mem) (by rw [hmem]; exact Mem.wf_write hwf _ _) loc bs
      rw [hlen] at hread
      have hh' : (n.stored loc bs).holders (lineOf loc) = [] := by
        refine holders_stored ?_ _ _
        rw [Module.holders, hcores]
        exact hh
      rw [phaseDone_unwaited hbw' hnet', ite_self]
      show barDecode ((n.stored loc bs).barWord loc) = _
      rw [barWord_dram hl ha hh', stored_mem, hread]
      exact hdec
  · refine (releases_bind hset _).trans ((Run.bind_ok ho).trans ((Run.get_bind _ s1).trans ?_))
    dsimp only
    rw [hans]
    exact (congrFun (if_pos (hgo hv h0 hc hnet)) s1).trans (congrFun (if_neg (by rw [hj]; exact Bool.false_ne_true)) s1)
  · refine (releases_bind hset _).trans ((Run.bind_ok ho).trans ((Run.get_bind _ s1).trans ?_))
    dsimp only
    rw [hans]
    exact (congrFun (if_pos (hgo hv h0 hc hnet)) s1).trans (congrFun (if_pos hj) s1)
  · have hno : ((m.site site).comb.any fun b => b.waiters.contains (cid, key)) = false := by
      rw [List.any_eq_false]
      intro b hb
      simpa using hfree b hb
    have hout : ((m.putAsk cid (.arrive site loc c cid key)).site site).comb =
        match findIdx (fun b : Combine => b.loc == loc && b.res.isNone && m.time ≤ b.until_) (m.site site).comb with
        | some (i, b) => setAt (m.site site).comb i { b with count := b.count + c, waiters := b.waiters ++ [(cid, key)] }
        | none => (m.site site).comb ++ [⟨loc, c, m.time + 7, [(cid, key)], none⟩] := by
      rw [Module.putAsk, Module.site_onSite, hno, if_neg Bool.false_ne_true]
      generalize findIdx (fun b : Combine => b.loc == loc && b.res.isNone && m.time ≤ b.until_) (m.site site).comb = r
      cases r <;> rfl
    have hjoin : ∀ b : Combine, (b.loc == loc && b.res.isNone && decide (m.time ≤ b.until_)) = true ↔ Joinable m loc b := fun b => by
      rw [Joinable, Bool.and_eq_true, Bool.and_eq_true, beq_iff_eq, Option.isNone_iff_eq_none, decide_eq_true_iff, and_assoc]
    have hnot : ∀ b : Combine, ¬ Joinable m loc b → (b.loc == loc && b.res.isNone && decide (m.time ≤ b.until_)) = false := fun b h =>
      Bool.eq_false_iff.mpr fun hb => h ((hjoin b).mp hb)
    refine ⟨fun hnone => ?_, fun pre b post hl hpre hb => ?_⟩
    · rw [hout, findIdx_none fun b hb => hnot b (hnone b hb)]
    · rw [hout, hl, findIdx_append (fun x hx => hnot x (hpre x hx)) ((hjoin b).mpr hb)]
      exact setAt_append ..
  · intro done
    have hput := barPut_lm (x := barEncode (m.barWord loc) (arrived (m.barObj loc) c)) hw hp
    have hobj : (m.stored loc (leBytes 32 (barEncode (m.barWord loc) (arrived (m.barObj loc) c)))).barObj loc = arrived (m.barObj loc) c :=
      barObj_stored hl hwf hp (arrived_fits (barDecode_fits (m.barWord loc)) c)
    refine ⟨_, by rw [arriveAt_eq false c hv, hput]; rfl, ?_⟩
    generalize leBytes 32 (barEncode (m.barWord loc) (arrived (m.barObj loc) c)) = bs at hobj ⊢
    have hnet' : (m.stored loc bs).isNetBar loc = true := hnet
    by_cases hd : done
    · rw [if_pos hd, if_pos hd, if_pos hd, phaseDone_network hnet']
      exact ⟨hobj, rfl, rfl⟩
    · rw [if_neg hd, if_neg hd, if_neg hd, List.append_nil]
      exact ⟨hobj, rfl, rfl⟩

end Sys2Proof.Claims
end

section
/-!
PROOFS. Vector instructions as contexts commit them (R81–R83, R87, R94, R486–R489, R497, R499).
-/
namespace Sys2Proof.Machine
open Sys2Proof.Claims

/-! ## The table of forms -/

theorem isIntTy_eq (t : BitVec 4) : isIntTy t = !decide (8 ≤ t.toNat) := by
  rw [isIntTy, ← decide_not]
  exact decide_eq_decide.mpr (by omega)

theorem vform_eq (f : VecF) (c d : Option VSrc) (r : Bool) : vform f c d r = { useBC f r with c := c, d := d } := by
  rw [useBC, isIntTy_eq, Bool.not_not]
  rfl

theorem useRed_rm (f : VecF) : (if 8 ≤ f.ty.toNat then some f.rm.toNat else none) = if isIntTy f.ty then none else some f.rm.toNat := by
  rw [isIntTy_eq]
  by_cases h : 8 ≤ f.ty.toNat <;> simp [h]

/-- Each row of the table is what its instruction hands to the vector unit. -/
theorem exec_vector {i : Instr} {u : VUse} (h : vectorRow i = some u) (s : State) : exec i s = runVec i u s := by
  unfold vectorRow at h
  split at h <;> cases h
  all_goals
    simp only [vform_eq, useRed_rm, vload, vstore, vsrc, gsrc]
    rfl

/-! ## Checks -/

theorem vRoleBad_eq_false {vec : Bool} {a : Opnd} : vRoleBad vec a = false ↔ KindOk vec a := by
  cases vec with
  | true => simp [vRoleBad, KindOk]
  | false =>
    have hz : a ≠ opZ ↔ a.toNat ≠ 41 := by rw [Ne, ← BitVec.toNat_inj]; rfl
    simp only [vRoleBad, KindOk, Bool.false_eq_true, if_false, Bool.and_eq_false_iff, decide_eq_false_iff_not, hz]
    omega

/-- Some field names a register of the other kind, or none. -/
def VUse.misroled (u : VUse) : Bool :=
  u.srcs.any (fun x => vRoleBad x.vec x.code) || match u.dst with
    | some (v, a) => vRoleBad v a
    | none => false

theorem misroled_eq_false {u : VUse} : u.misroled = false ↔ RolesOk u := by
  rw [VUse.misroled, RolesOk, Bool.or_eq_false_iff, List.any_eq_false]
  refine and_congr (forall₂_congr fun x _ => by rw [Bool.not_eq_true, vRoleBad_eq_false]) ?_
  rcases u.dst with _ | ⟨v, a⟩
  · simp
  · simp [vRoleBad_eq_false]

/-- Some register that is read is dead. -/
def VUse.dead (u : VUse) (w : Win) : Bool := u.reads.any fun r => if r.1 then !w.liveV r.2 else !w.live r.2

theorem dead_eq_false {u : VUse} {s : State} : u.dead s.win = false ↔ AllLive s u := by
  rw [VUse.dead, AllLive, List.any_eq_false]
  refine forall₂_congr fun r _ => ?_
  cases r.1 <;> simp

theorem vecChecks_eq (u : VUse) (s : State) : vecChecks u s =
    if !swVe s.sw then .error (.fault { cause := .illop })
    else if u.misroled then .error (.fault { cause := .badopnd })
    else if u.dead s.win then .error (.fault { cause := .deadreg })
    else if u.reads.any fun r => !r.1 && s.win.bad.contains r.2 then
      .error (.fault { cause := .uncorr, side := [.reg s.cid s.key ((u.reads.filter fun r => !r.1).map (·.2))] })
    else .ok ((), s) := by
  have hstop : ∀ (b : Bool) (c : Cause) (f : Unit → Run Unit), (Run.stopIf b c >>= f) s = if b then .error (.fault { cause := c }) else f () s :=
    fun b c f => by cases b <;> rfl
  rw [vecChecks, Run.get_bind, hstop]
  split
  · rfl
  rw [hstop]
  refine ite_congr rfl (fun _ => rfl) fun _ => ?_
  rw [hstop]
  refine ite_congr rfl (fun _ => rfl) fun _ => ?_
  split <;> rfl

theorem begun_liveV (s : State) : s.begun.win.liveV = s.win.liveV := by rw [State.begun_win]; rfl
theorem begun_live (s : State) : s.begun.win.live = s.win.live := by rw [State.begun_win]; rfl
theorem begun_bad (s : State) : s.begun.win.bad = s.win.bad := by rw [State.begun_win]
theorem begun_dead (s : State) (u : VUse) : u.dead s.begun.win = u.dead s.win := by
  rw [VUse.dead, VUse.dead, begun_liveV, begun_live]

/-- A vector instruction whose checks fail faults. -/
theorem vector_faults {i : Instr} {u : VUse} {s : State} {f : FInfo} (h : vectorRow i = some u) (hr : s.Running)
    (hc : vecChecks u s.begun = .error (.fault f)) : exec i s = .next (s.faulted f) := by
  rw [exec_vector h, runVec]
  exact runInstr_faults hr _ _ _ (Run.bind_error hc)

end Sys2Proof.Machine

namespace Sys2Proof.Claims
open Sys2Proof.Machine

/-- Settles O47: the checks stand in this order. -/
theorem vectorRefuses : Obligations.VectorRefuses := by
  intro i u s h hr
  have hve : ∀ b : Bool, bit s.sw 3 = b → swVe s.begun.sw = b := fun b hb => by rw [State.begun_sw]; exact hb
  refine ⟨fun h3 => vector_faults h hr ?_, fun h3 hroles => vector_faults h hr ?_, fun h3 hroles hlive => vector_faults h hr ?_⟩
  · rw [vecChecks_eq, hve _ h3]
    rfl
  · have hm : u.misroled = true := Bool.eq_true_of_not_eq_false fun hm => hroles (misroled_eq_false.mp hm)
    rw [vecChecks_eq, hve _ h3, hm]
    rfl
  · have hd : u.dead s.win = true := Bool.eq_true_of_not_eq_false fun hd => hlive (dead_eq_false.mp hd)
    rw [vecChecks_eq, hve _ h3, misroled_eq_false.mpr hroles, begun_dead, hd]
    rfl

end Sys2Proof.Claims
end

section
/-!
PROOFS. What a vector instruction leaves when it commits, and when its result retires (R82, R83, R87, R486–R488).
-/
namespace Sys2Proof.Machine
open Sys2Proof.Claims

/-! ## Commit -/

/-- The counter of RSH taken at commit. -/
theorem takeCounter_bind {β : Type} (u : VUse) (s : State) (f : BitVec 32 → Run β) :
    (takeCounter (u.rm.any fun rm => effMode rm s.sw = 4) >>= f) s = f (swRshc s.sw) (ticked s u) := by
  refine Run.bind_ok ?_
  rw [takeCounter, Run.get_bind, ticked]
  cases u.rm with
  | none => rfl
  | some r =>
    by_cases h : modeOf r s.sw = 4
    · have he : (Option.some r).any (fun rm => effMode rm s.sw = 4) = true := decide_eq_true h
      rw [he]
      dsimp only
      rw [if_pos h]
      rfl
    · have he : (Option.some r).any (fun rm => effMode rm s.sw = 4) = false := decide_eq_false h
      rw [he]
      dsimp only
      rw [if_neg h]
      rfl

/-- The instruction as the vector unit gets it from state s: its operands captured. -/
def VUse.captured (u : VUse) (i : Instr) (s : State) (pc : Word) (n : Nat) : VOp :=
  { i := i, key := s.key, ctx := s.ctx, aid := s.aid, seq := n, pc := pc, sw := s.sw, rshc := swRshc s.sw
    seed := s.core.spec.seed, b := vVal s.win 0 u.b, c := vVal s.win 0 u.c, d := vVal s.win 0 u.d, m := vVal s.win (2 ^ 512 - 1) u.m
    old := match u.dst with
      | some (true, a) => if s.win.liveV a.toNat then s.win.vr a.toNat else 0
      | _ => 0
    bad := u.reads.any fun r => r.1 && s.win.bad.contains (32 + r.2), started := false, pos := 0, got := 0 }

/-- Its registers taken and the instruction put at the end of the core's vector queue. -/
def State.vecPut (t : State) (u : VUse) (time : Nat) (o : VOp) : State :=
  let t := t.setWin (vecRegs time t.win u)
  { t with m := t.m.onCore t.cid fun c => { c with vq := c.vq ++ [o] } }

theorem ticked_cid (s : State) (u : VUse) : (ticked s u).cid = s.cid := by
  unfold ticked
  split
  · split <;> rfl
  · rfl

theorem vectorQueued_eq (i : Instr) (u : VUse) (s : State) (n : Nat) (m : Module) : vectorQueued i u s n m =
    { ticked s.begun u with m := m.regLost s.cid s.key u.readKeys }.vecPut u s.begun.m.time (u.captured i s s.win.ctl.pc n) := by
  have hcid : ∀ w, (({ ticked s.begun u with m := m.regLost s.cid s.key u.readKeys } : State).setWin w).cid = s.cid := fun _ => ticked_cid ..
  unfold vectorQueued State.vecPut
  dsimp only at hcid ⊢
  rw [hcid]
  rfl

theorem captured_begun (u : VUse) (i : Instr) (s : State) (pc : Word) (n : Nat) : u.captured i s.begun pc n = u.captured i s pc n := by
  have hv : ∀ d x, vVal s.begun.win d x = vVal s.win d x := fun d x => by rw [State.begun_win]; cases x <;> rfl
  have hvr : s.begun.win.vr = s.win.vr := by rw [State.begun_win]; rfl
  simp only [VUse.captured, State.begun_key, State.begun_ctx, State.begun_aid, State.begun_sw, begun_spec, hv, begun_liveV, hvr, begun_bad]

theorem vecPush_ok {i : Instr} {u : VUse} {s : State} {n : Nat} {m : Module} (h3 : bit s.sw 3 = true) (hroles : RolesOk u)
    (hlive : AllLive s u) (hsound : Sound s u)
    (hp : (ticked s.begun u).m.cprPush s.cid s.ctx (((encode i).map (·.head)).getD 0) 0 s.win.ctl.pc s.begun.win.ctl = some (n, m)) :
    vecPush i u s.win.ctl.pc s.begun = .ok (.step 0 0, vectorQueued i u s n m) := by
  have hve : swVe s.begun.sw = true := by rw [State.begun_sw]; exact h3
  have hbad : (u.reads.any fun r => !r.1 && s.begun.win.bad.contains r.2) = false := by
    rw [begun_bad, List.any_eq_false]
    intro r hr
    cases h1 : r.1 with
    | true => simp
    | false => simpa using hsound r hr h1
  have hok : vecChecks u s.begun = .ok ((), s.begun) := by
    rw [vecChecks_eq, hve, misroled_eq_false.mpr hroles, begun_dead, dead_eq_false.mpr hlive, hbad]
    rfl
  rw [vecPush, Run.bind_ok hok, Run.get_bind, takeCounter_bind, Run.get_bind]
  dsimp only
  have hp' : (ticked s.begun u).m.cprPush s.begun.cid s.begun.ctx (((encode i).map (·.head)).getD 0) 0 s.win.ctl.pc s.begun.win.ctl =
    some (n, m) := hp
  rw [hp', vectorQueued_eq, ← captured_begun, ← State.begun_key s]
  dsimp only
  rw [Run.onM_bind, Run.onWin_bind, Run.onCore_bind, Run.pure_run, VUse.captured]
  generalize hones : 2 ^ 512 - 1 = ones
  rfl
/-! ## Registers -/

/-- The registers of two windows hold the same and are live alike. -/
structure SameRegs (w x : Win) : Prop where
  v : x.v = w.v
  g : x.g = w.g
  liveg : x.ctl.liveg = w.ctl.liveg
  livev : x.ctl.livev = w.ctl.livev

theorem SameRegs.refl (w : Win) : SameRegs w w := ⟨rfl, rfl, rfl, rfl⟩
theorem SameRegs.trans {w x y : Win} (h : SameRegs w x) (h' : SameRegs x y) : SameRegs w y :=
  ⟨h'.v.trans h.v, h'.g.trans h.g, h'.liveg.trans h.liveg, h'.livev.trans h.livev⟩
theorem SameRegs.vr {w x : Win} (h : SameRegs w x) (r : Nat) : x.vr r = w.vr r := by rw [Win.vr, h.v]; rfl
theorem SameRegs.gr {w x : Win} (h : SameRegs w x) (r : Nat) : x.gr r = w.gr r := by rw [Win.gr, h.g]; rfl
theorem SameRegs.liveV {w x : Win} (h : SameRegs w x) (r : Nat) : x.liveV r = w.liveV r := by rw [Win.liveV, h.livev]; rfl
theorem SameRegs.live {w x : Win} (h : SameRegs w x) (r : Nat) : x.live r = w.live r := by rw [Win.live, h.liveg]; rfl

theorem sameRegs_found (w : Win) (ks : List Nat) : SameRegs w (w.found ks) := by
  unfold Win.found
  dsimp only
  split <;> exact ⟨rfl, rfl, rfl, rfl⟩

theorem sameRegs_touch (time : Nat) (g : Bool × Nat → Nat) (l : List (Bool × Nat)) (w : Win) :
    SameRegs w (l.foldl (fun w r => w.touchBank time (g r)) w) := by
  induction l generalizing w with
  | nil => exact .refl w
  | cons r l ih => exact SameRegs.trans (x := w.touchBank time (g r)) ⟨rfl, rfl, rfl, rfl⟩ (ih _)

theorem Win.liveV_killV (w : Win) (k : Nat) {j : Nat} (hj : j < 16) : (w.killV k).liveV j = (w.liveV j && !(k == j)) := by
  simp only [Win.liveV, Win.killV, bit_setBits_one _ _ _ hj, Nat.zero_testBit]
  by_cases h : j = k
  · simp [h]
  · simp [h, Ne.symm h]
theorem Win.liveV_setV (w : Win) (time k : Nat) (v : Line) {j : Nat} (hj : j < 16) :
    (w.setV time k v).liveV j = if j = k then true else w.liveV j := by
  show bit (setBits w.ctl.livev k k 1) j = _
  rw [bit_setBits_one _ _ _ hj]
  rfl
theorem Win.vr_setV_same (w : Win) (time k : Nat) (v : Line) : (w.setV time k v).vr k = v := by simp [Win.vr, Win.setV]
theorem Win.vr_setV_other (w : Win) (time : Nat) (v : Line) {k j : Nat} (h : j ≠ k) : (w.setV time k v).vr j = w.vr j :=
  Tab.get_put_other _ _ _ _ _ h

/-- The last use that a source field marks. -/
def Win.lastUse (w : Win) (x : VSrc) : Win :=
  if x.k && x.code ≠ opZ then (if x.vec then w.killV x.code.toNat else w.killG x.code.toNat) else w

theorem lastUse_regs (w : Win) (x : VSrc) : (w.lastUse x).v = w.v ∧ (w.lastUse x).g = w.g := by
  unfold Win.lastUse
  split
  · split <;> exact ⟨rfl, rfl⟩
  · exact ⟨rfl, rfl⟩

theorem liveV_lastUse (w : Win) (x : VSrc) {r : Nat} (hr : r < 16) :
    (w.lastUse x).liveV r = true ↔ w.liveV r = true ∧ (x.k = true → x.vec = true → x.code.toNat ≠ r) := by
  have hz : x.code = opZ → x.code.toNat ≠ r := fun h => by rw [h]; simp only [opZ, BitVec.toNat_ofNat]; omega
  unfold Win.lastUse
  split
  next h =>
    obtain ⟨hk, -⟩ := (Bool.and_eq_true _ _).mp h
    split
    next hv => rw [w.liveV_killV _ hr, Bool.and_eq_true]; simp [hk, hv]
    next hv => exact ⟨fun hl => ⟨hl, fun _ hv' => absurd hv' hv⟩, And.left⟩
  next h =>
    refine ⟨fun hl => ⟨hl, fun hk _ => hz ?_⟩, And.left⟩
    simpa [hk] using h

theorem live_lastUse (w : Win) (x : VSrc) {r : Nat} (hr : r < 32) :
    (w.lastUse x).live r = true ↔ w.live r = true ∧ (x.k = true → x.vec = false → x.code.toNat ≠ r) := by
  have hz : x.code = opZ → x.code.toNat ≠ r := fun h => by rw [h]; simp only [opZ, BitVec.toNat_ofNat]; omega
  unfold Win.lastUse
  split
  next h =>
    obtain ⟨hk, -⟩ := (Bool.and_eq_true _ _).mp h
    split
    next hv => exact ⟨fun hl => ⟨hl, fun _ hv' => by rw [hv] at hv'; cases hv'⟩, And.left⟩
    next hv => rw [w.live_killG _ hr, Bool.and_eq_true]; simp [hk, hv]
  next h =>
    refine ⟨fun hl => ⟨hl, fun hk _ => hz ?_⟩, And.left⟩
    simpa [hk] using h

/-- Last uses kill what they name and change no value. -/
structure LastUses (l : List VSrc) (w x : Win) : Prop where
  v : x.v = w.v
  g : x.g = w.g
  liveV : ∀ r, r < 16 → (x.liveV r = true ↔ w.liveV r = true ∧ ∀ o ∈ l, o.k = true → o.vec = true → o.code.toNat ≠ r)
  live : ∀ r, r < 32 → (x.live r = true ↔ w.live r = true ∧ ∀ o ∈ l, o.k = true → o.vec = false → o.code.toNat ≠ r)

theorem lastUses (l : List VSrc) (w : Win) : LastUses l w (l.foldl Win.lastUse w) := by
  induction l generalizing w with
  | nil => exact ⟨rfl, rfl, by simp, by simp⟩
  | cons x l ih =>
    obtain ⟨hv, hg, hlv, hl⟩ := ih (w.lastUse x)
    refine ⟨hv.trans (lastUse_regs w x).1, hg.trans (lastUse_regs w x).2, fun r hr => ?_, fun r hr => ?_⟩
    · rw [List.foldl_cons, hlv r hr, liveV_lastUse w x hr, List.forall_mem_cons, and_assoc]
    · rw [List.foldl_cons, hl r hr, live_lastUse w x hr, List.forall_mem_cons, and_assoc]

/-- The window of a vector instruction that has committed: a register that it does not write keeps its value and is dead where a last
use names it. -/
theorem vecRegs_frame {u : VUse} {w w0 : Win} (h : SameRegs w w0) (time : Nat) :
    (∀ r, r < 16 → (∀ a, u.dst = some (true, a) → a.toNat ≠ r) → (vecRegs time w0 u).vr r = w.vr r ∧
      ((vecRegs time w0 u).liveV r = true ↔ w.liveV r = true ∧ ∀ x ∈ u.srcs, x.k = true → x.vec = true → x.code.toNat ≠ r)) ∧
    (∀ r, r < 32 → (∀ a, u.dst = some (false, a) → a.toNat ≠ r) → (vecRegs time w0 u).gr r = w.gr r ∧
      ((vecRegs time w0 u).live r = true ↔ w.live r = true ∧ ∀ x ∈ u.srcs, x.k = true → x.vec = false → x.code.toNat ≠ r)) := by
  let w1 := (u.reads.foldl (fun w r => w.touchBank time (if r.1 then 4 + r.2 / 4 else r.2 / 8)) w0).found u.readKeys
  have h1 : SameRegs w w1 := h.trans ((sameRegs_touch ..).trans (sameRegs_found ..))
  obtain ⟨hv, hg, hlv, hl⟩ := lastUses u.srcs w1
  let w2 := u.srcs.foldl Win.lastUse w1
  have hvr : ∀ r, w2.vr r = w.vr r := fun r => by rw [← h1.vr, Win.vr, hv]; rfl
  have hgr : ∀ r, w2.gr r = w.gr r := fun r => by rw [← h1.gr, Win.gr, hg]; rfl
  have hreg : vecRegs time w0 u = match u.dst with
    | some (true, a) => w2.setV time a.toNat (if w0.liveV a.toNat then w0.vr a.toNat else 0)
    | some (false, a) => if a = opZ then w2 else w2.setG time a.toNat (if w0.live a.toNat then w0.gr a.toNat else 0)
    | none => w2 := rfl
  simp only [h1.liveV, h1.live] at hlv hl
  rw [hreg]
  refine ⟨fun r hr hd => ?_, fun r hr hd => ?_⟩ <;> split
  case _ a ha =>
    have hne : r ≠ a.toNat := fun he => hd a ha he.symm
    rw [Win.vr_setV_other _ _ _ hne, Win.liveV_setV _ _ _ _ hr, if_neg hne]
    exact ⟨hvr r, hlv r hr⟩
  case _ a ha =>
    split
    · exact ⟨hvr r, hlv r hr⟩
    · exact ⟨hvr r, hlv r hr⟩
  case _ => exact ⟨hvr r, hlv r hr⟩
  case _ a ha => exact ⟨hgr r, hl r hr⟩
  case _ a ha =>
    split
    · exact ⟨hgr r, hl r hr⟩
    · have hne : r ≠ a.toNat := fun he => hd a ha he.symm
      rw [Win.gr_setG_other _ _ _ hne, Win.live_setG _ _ _ _ hr, if_neg hne]
      exact ⟨hgr r, hl r hr⟩
  case _ => exact ⟨hgr r, hl r hr⟩

/-- A result that retires changes its destination alone. -/
theorem vecPut_retires (w : Win) (time : Nat) (dst : Option (Bool × Opnd)) (v : Nat) : RetiresInto w (w.vecPut time dst v) dst v := by
  rcases dst with _ | ⟨vec, a⟩
  · exact ⟨fun _ _ _ => ⟨rfl, rfl⟩, fun _ _ _ => ⟨rfl, rfl⟩, nofun, nofun, rfl, rfl⟩
  cases vec with
  | true =>
    refine ⟨fun r hr hd => ?_, fun _ _ _ => ⟨rfl, rfl⟩, fun b h hb => ?_, nofun, rfl, rfl⟩
    · have hne : r ≠ a.toNat := fun he => hd a rfl he.symm
      exact ⟨Win.vr_setV_other _ _ _ hne, by rw [Win.vecPut, Win.liveV_setV _ _ _ _ hr, if_neg hne]⟩
    · cases h
      exact ⟨Win.vr_setV_same .., by rw [Win.vecPut, Win.liveV_setV _ _ _ _ hb, if_pos rfl]⟩
  | false =>
    by_cases ha : a.toNat < 32
    · have he : w.vecPut time (some (false, a)) v = w.setG time a.toNat (BitVec.ofNat 64 v) := if_pos ha
      rw [he]
      refine ⟨fun _ _ _ => ⟨rfl, rfl⟩, fun r hr hd => ?_, nofun, fun b h hb => ?_, rfl, rfl⟩
      · have hne : r ≠ a.toNat := fun he => hd a rfl he.symm
        exact ⟨Win.gr_setG_other _ _ _ hne, by rw [Win.live_setG _ _ _ _ hr, if_neg hne]⟩
      · cases h
        exact ⟨Win.gr_setG_same .., by rw [Win.live_setG _ _ _ _ hb, if_pos rfl]⟩
    · have he : w.vecPut time (some (false, a)) v = w := if_neg ha
      rw [he]
      exact ⟨fun _ _ _ => ⟨rfl, rfl⟩, fun _ _ _ => ⟨rfl, rfl⟩, nofun, fun b h hb => absurd (by cases h; exact hb) ha, rfl, rfl⟩

/-! ## The machine around the registers -/

/-- The windows of the activations and what the contexts hold. -/
structure SameBound (m m' : Module) : Prop where
  win : ∀ c k, (m'.act c k).win = (m.act c k).win
  ctx : ∀ c k, ((m'.core c).ctx k).act = ((m.core c).ctx k).act

theorem SameBound.trans {a b c : Module} (h : SameBound a b) (h' : SameBound b c) : SameBound a c :=
  ⟨fun i k => (h'.win i k).trans (h.win i k), fun i k => (h'.ctx i k).trans (h.ctx i k)⟩

theorem sameBound_onCore (m : Module) (cid : Nat) {f : Core → Core} (hw : ∀ k, ((f (m.core cid)).act k).win = ((m.core cid).act k).win)
    (hx : ∀ k, ((f (m.core cid)).ctx k).act = ((m.core cid).ctx k).act) : SameBound m (m.onCore cid f) := by
  refine ⟨fun i k => ?_, fun i k => ?_⟩ <;> by_cases h : i = cid
  · subst h; rw [Module.act, Module.core_onCore]; exact hw k
  · rw [Module.act, Module.core_onCore_other _ _ _ _ h]; rfl
  · subst h; rw [Module.core_onCore]; exact hx k
  · rw [Module.core_onCore_other _ _ _ _ h]

theorem SameBound.key {s : State} {m : Module} (h : SameBound s.m m) : ({ s with m := m } : State).key = s.key :=
  congrArg (·.getD 64) (h.ctx s.cid s.ctx)
theorem SameBound.window {s : State} {m : Module} (h : SameBound s.m m) : ({ s with m := m } : State).win = s.win := by
  rw [State.win, State.win, State.act, h.key]
  exact congrArg (·.getD {}) (h.win s.cid s.key)

theorem Written.sameBound {m m' : Module} {loc n : Nat} (h : Written m m' loc n) : SameBound m m' :=
  ⟨fun c k => by rw [h.act], h.ctx⟩

/-- The count of an error that a read has found keeps the registers. -/
theorem regLost_regs {s : State} {m : Module} {cid key : Nat} (hc : s.cid = cid) (hk : s.key = key) (ks : List Nat) (h : SameBound s.m m) :
    SameRegs s.win ({ s with m := m.regLost cid key ks } : State).win ∧ ({ s with m := m.regLost cid key ks } : State).key = key ∧
      (m.regLost cid key ks).mem = m.mem ∧ (m.regLost cid key ks).tiles = m.tiles ∧ (m.regLost cid key ks).groups = m.groups := by
  subst hc hk
  have hkey : ({ s with m := m } : State).key = s.key := h.key
  have hwin : ({ s with m := m } : State).win = s.win := h.window
  unfold Module.regLost
  split
  next w hw =>
    dsimp only
    split
    · exact ⟨by rw [hwin]; exact .refl _, hkey, rfl, rfl, rfl⟩
    · generalize w.hit.filter _ = hit
      have hput := State.win_setWin { s with m := m } { w with hit := hit }
      rw [State.setWin, hkey] at hput
      have hkey' := State.key_setWin { s with m := m } { w with hit := hit }
      rw [State.setWin, hkey] at hkey'
      have hw' : s.win = w := by
        rw [← hwin, State.win, State.act, hkey]
        exact congrArg (·.getD {}) hw
      refine ⟨?_, hkey', rfl, rfl, rfl⟩
      rw [hw']
      exact SameRegs.trans (x := { w with hit := hit }) ⟨rfl, rfl, rfl, rfl⟩ ((congrArg (SameRegs { w with hit := hit }) hput).mpr (.refl _))
  · exact ⟨by rw [hwin]; exact .refl _, hkey, rfl, rfl, rfl⟩

theorem SameRest.units {m m' : Module} (h : SameRest m m') : m'.tiles = m.tiles ∧ m'.groups = m.groups := by
  constructor <;> rw [h]

/-- The next ring entry: nothing but its 32 bytes and the context's sequence number changes. -/
theorem cprPush_written {m m' : Module} {cid k job n : Nat} {h : BitVec 16} {pc : Word} {ctl : Ctl}
    (hp : m.cprPush cid k h job pc ctl = some (n, m'))
    (hu : Unwatched m (m.lmAt cid ((m.core cid).cprAt k ((m.core cid).ctx k).seq.toNat)) 32) :
    SameBound m m' ∧ (∀ a, a < m.lmAt cid ((m.core cid).cprAt k ((m.core cid).ctx k).seq.toNat) ∨
      m.lmAt cid ((m.core cid).cprAt k ((m.core cid).ctx k).seq.toNat) + 32 ≤ a → Mem.get m'.mem a = Mem.get m.mem a) ∧
      m'.tiles = m.tiles ∧ m'.groups = m.groups := by
  unfold Module.cprPush at hp
  dsimp only at hp
  split at hp
  · cases hp
  · obtain ⟨rfl, rfl⟩ := Prod.mk.inj (Option.some.inj hp)
    generalize hb : leBytes 32 _ = bs
    have hlen : bs.length = 32 := by rw [← hb, leBytes_length]
    have hw := written_putWord (bs := bs) (by rw [hlen]; exact hu)
    rw [hlen] at hw
    refine ⟨hw.sameBound.trans (sameBound_onCore _ cid (fun _ => rfl) fun j => ?_), hw.mem, ?_, ?_⟩
    · by_cases hj : j = k
      · subst hj
        rw [Core.ctx_onCtx]
      · exact congrArg Ctx.act (Tab.get_put_other _ _ _ _ _ hj)
    · exact hw.rest.units.1
    · exact hw.rest.units.2

theorem issue_unwatched {m : Module} {loc n : Nat} (h : Unwatched m loc n) (cid k : Nat) : Unwatched (m.issue cid k) loc n := by
  unfold Module.issue
  dsimp only
  split
  · exact ⟨watched_onCore (m := { m with time := m.time + 1 }) (fun _ => rfl) h.1, h.2⟩
  · exact ⟨watched_onCore (fun _ => rfl) h.1, h.2⟩

theorem issue_units (m : Module) (cid k : Nat) : (m.issue cid k).tiles = m.tiles ∧ (m.issue cid k).groups = m.groups := by
  unfold Module.issue
  dsimp only
  split <;> exact ⟨rfl, rfl⟩

/-- A state of the instruction before its ring entry is written, seen from the state s at its dispatch. -/
structure Prepared (s t : State) : Prop where
  cid : t.cid = s.cid
  ctx : t.ctx = s.ctx
  key : t.key = s.key
  open_ : t.open_ = some s.groupNow
  regs : SameRegs s.win t.win
  mem : t.m.mem = s.m.mem
  tiles : t.m.tiles = s.m.tiles
  groups : t.m.groups = s.m.groups
  unwatched : ∀ loc n, Unwatched s.m loc n → Unwatched t.m loc n
  pid : ∀ c, t.m.pid c = s.m.pid c
  core : (t.m.core s.cid).spec = (s.m.core s.cid).spec ∧ (t.m.core s.cid).ctxs = (s.m.core s.cid).ctxs

theorem prepared_setWin {s t : State} (h : Prepared s t) {w : Win} (hw : SameRegs s.win w) : Prepared s (t.setWin w) := by
  obtain ⟨hcid, hctx, hkey, hopen, -, hmem, htiles, hgroups, hun, hpid, hspec, hctxs⟩ := h
  have hcore : (t.setWin w).m.core s.cid = (t.m.core s.cid).onAct t.key fun a => { a with win := some w } := by
    rw [State.setWin_m, Module.setWin, Module.onAct, hcid, Module.core_onCore]
  exact ⟨hcid, hctx, (State.key_setWin ..).trans hkey, hopen, by rw [State.win_setWin]; exact hw, hmem, htiles, hgroups,
    fun loc n hu => ⟨watched_onCore (fun _ => rfl) (hun loc n hu).1, (hun loc n hu).2⟩, hpid, by rw [hcore]; exact ⟨hspec, hctxs⟩⟩

theorem prepared_begun (s : State) : Prepared s s.begun := by
  have hcore := State.begun_core s
  refine ⟨rfl, rfl, State.begun_key s, rfl, by rw [State.begun_win]; exact ⟨rfl, rfl, rfl, rfl⟩, State.begun_mem s,
    (issue_units s.m s.cid s.ctx).1, (issue_units s.m s.cid s.ctx).2, fun loc n hu => ?_, State.begun_pid s,
    by rw [hcore]; exact ⟨rfl, rfl⟩⟩
  have hi := issue_unwatched hu s.cid s.ctx
  exact ⟨watched_onCore (fun _ => rfl) hi.1, hi.2⟩

theorem prepared_ticked (s : State) (u : VUse) : Prepared s (ticked s.begun u) := by
  have hb := prepared_begun s
  have hsw : ∀ x, SameRegs s.win { s.begun.win with ctl := { s.begun.win.ctl with sw := x } } := fun x =>
    hb.regs.trans ⟨rfl, rfl, rfl, rfl⟩
  unfold ticked
  split
  · split
    · exact prepared_setWin hb (hsw _)
    · exact hb
  · exact hb

/-- A commit outside BRK leaves registers, units and memory as they are: STEP waits for the vector unit. -/
theorem retire_queued {s t : State} (hbrk : s.groupNow.brk = none) (hopen : t.open_ = some s.groupNow)
    (hvq : (t.m.core t.cid).vq.any (·.key == s.key) = true) :
    (s.retire t).win = t.win ∧ (s.retire t).m.mem = t.m.mem ∧ (s.retire t).m.tiles = t.m.tiles ∧ (s.retire t).m.groups = t.m.groups := by
  have hall : ∀ (f : Core → Core) (g : Option Group0), (∀ c k, ((f c).act k).win = (c.act k).win) → (∀ c k, ((f c).ctx k).act = (c.ctx k).act) →
      ∀ u : State, u = { t with m := t.m.onCore t.cid f, open_ := g } →
      u.win = t.win ∧ u.m.mem = t.m.mem ∧ u.m.tiles = t.m.tiles ∧ u.m.groups = t.m.groups := by
    rintro f g hw hx u rfl
    exact ⟨(sameBound_onCore t.m t.cid (hw _) (hx _)).window (s := t), rfl, rfl, rfl⟩
  let inst (c : Core) : Core := { c with spec := { c.spec with inst := c.spec.inst + 1#64 } }
  have hcommit : s.retire t = if s.groupNow.ld.isEmpty && s.groupNow.sd.isEmpty then
      (if swSs s.sw then { t with open_ := none, m := (t.m.onCore t.cid inst).stepAfter t.cid s.key { cause := .stepped, seq := 0, job := 0 } s.win.ctl.pc }
       else { t with open_ := none, m := t.m.onCore t.cid inst })
      else { t with open_ := some { s.groupNow with n := s.groupNow.n + 1 }, m := t.m.onCore t.cid inst } := by
    unfold State.retire State.commit
    rw [hopen]
    dsimp only
    rw [hbrk]
    rfl
  rw [hcommit]
  split
  · split
    · have hstep : ((t.m.onCore t.cid inst).core t.cid).vq.any (·.key == s.key) = true := by rw [Module.core_onCore]; exact hvq
      let step (c : Core) : Core := (inst c).onAct s.key fun a => { a with stepAt := some s.win.ctl.pc }
      have hm : (t.m.onCore t.cid inst).stepAfter t.cid s.key { cause := .stepped, seq := 0, job := 0 } s.win.ctl.pc = t.m.onCore t.cid step := by
        rw [Module.stepAfter, if_pos hstep, Module.onAct, Module.onCore_onCore]
        rfl
      refine hall step none (fun c k => ?_) (fun _ _ => rfl) _ (by rw [hm])
      by_cases hk : k = s.key
      · subst hk
        rw [Core.act_onAct]
        rfl
      · exact congrArg Act.win (Core.act_setAct_other _ _ _ _ hk)
    · exact hall inst none (fun _ _ => rfl) (fun _ _ => rfl) _ rfl
  · exact hall inst _ (fun _ _ => rfl) (fun _ _ => rfl) _ rfl

end Sys2Proof.Machine

namespace Sys2Proof.Claims
open Sys2Proof.Machine

/-- Settles O46: the frame goes by the steps of the commit — ring entry, errors found, registers, queue, STEP. -/
theorem vectorInstructionsQueue : Obligations.VectorInstructionsQueue := by
  refine ⟨fun i u s n m h hr h3 hroles hlive hsound hp => ⟨?_, ?_⟩, fun w time dst v => vecPut_retires w time dst v⟩
  · rw [exec_vector h, runVec]
    exact runInstr_retires hr _ _ (vecPush_ok h3 hroles hlive hsound hp)
  · intro loc hbrk hwf hu
    obtain ⟨hcid, hctx, hkey, hopen, hregs, hmem, htiles, hgroups, hun, hpid, hspec, hctxs⟩ := prepared_ticked s u
    have hloc : (ticked s.begun u).m.lmAt s.cid (((ticked s.begun u).m.core s.cid).cprAt s.ctx
        (((ticked s.begun u).m.core s.cid).ctx s.ctx).seq.toNat) = loc := by
      have hc : ((ticked s.begun u).m.core s.cid).ctx s.ctx = (s.m.core s.cid).ctx s.ctx := by rw [Core.ctx, hctxs]; rfl
      rw [hc, Core.cprAt, Core.cprBase, hspec, Module.lmAt, hpid]
      rfl
    obtain ⟨hb, hbytes, hti, hgr⟩ := cprPush_written hp (by rw [hloc]; exact hun loc 32 hu)
    rw [hloc] at hbytes
    obtain ⟨hr0, hk0, hm0, ht0, hg0⟩ := regLost_regs hcid hkey u.readKeys hb
    rw [vectorQueued_eq]
    generalize hs0 : ({ ticked s.begun u with m := m.regLost s.cid s.key u.readKeys } : State) = s0 at hr0 hk0
    have h0 : s0.cid = s.cid ∧ s0.open_ = some s.groupNow ∧ s0.m = m.regLost s.cid s.key u.readKeys := by
      rw [← hs0]
      exact ⟨hcid, hopen, rfl⟩
    obtain ⟨hc0, ho0, hmod⟩ := h0
    generalize ho : u.captured i s s.win.ctl.pc n = o
    have hokey : o.key = s.key := by rw [← ho]; rfl
    let w := vecRegs s.begun.m.time s0.win u
    have hput : (s0.vecPut u s.begun.m.time o).win = w :=
      (sameBound_onCore (s0.setWin w).m (s0.setWin w).cid (f := fun c => { c with vq := c.vq ++ [o] }) (fun _ => rfl) fun _ => rfl).window.trans
        (State.win_setWin ..)
    have hvq : ((s0.vecPut u s.begun.m.time o).m.core (s0.vecPut u s.begun.m.time o).cid).vq.any (·.key == s.key) = true := by
      have : (s0.vecPut u s.begun.m.time o).m.core (s0.vecPut u s.begun.m.time o).cid =
          { (s0.setWin w).m.core s0.cid with vq := ((s0.setWin w).m.core s0.cid).vq ++ [o] } := Module.core_onCore ..
      rw [this, List.any_append, List.any_cons, hokey, beq_self_eq_true, Bool.true_or, Bool.or_true]
    obtain ⟨hwin, hmem', htiles', hgroups'⟩ := retire_queued hbrk (t := s0.vecPut u s.begun.m.time o) ho0 hvq
    obtain ⟨hv, hg⟩ := vecRegs_frame (u := u) (hregs.trans hr0) s.begun.m.time
    refine ⟨fun r h1 h2 => ?_, fun r h1 h2 => ?_, ⟨?_, ?_⟩, fun a ha => ?_⟩
    · rw [hwin, hput]
      exact hv r h1 h2
    · rw [hwin, hput]
      exact hg r h1 h2
    · rw [htiles', ← htiles, ← hti, ← ht0, ← hmod]
      rfl
    · rw [hgroups', ← hgroups, ← hgr, ← hg0, ← hmod]
      rfl
    · rw [hmem', ← hmem, ← hbytes a ha, ← hm0, ← hmod]
      rfl

end Sys2Proof.Claims
end

section
/-!
PROOFS. The special registers (R92–R95, R410–R412).
-/
namespace Sys2Proof.Machine
open Sys2Proof.Claims

variable {α β : Type}

/-! ## Reading operands leaves the status word -/

/-- Whatever the operation does where it goes through, the status word of the focused activation stays. -/
structure KeepsStatus (x : Run α) : Prop where
  sw : ∀ {s : State} {a : α} {t : State}, x s = .ok (a, t) → t.sw = s.sw

theorem keepsStatus_bind {x : Run α} {f : α → Run β} (hx : KeepsStatus x) (hf : ∀ a, KeepsStatus (f a)) : KeepsStatus (x >>= f) :=
  ⟨fun h => by obtain ⟨a, u, hu, ht⟩ := Run.of_bind_ok h; exact ((hf a).sw ht).trans (hx.sw hu)⟩
theorem keepsStatus_read {f : State → Run β} (hf : ∀ s b t, f s s = .ok (b, t) → t.sw = s.sw) : KeepsStatus (get >>= f) :=
  ⟨fun h => hf _ _ _ (by rwa [Run.get_bind] at h)⟩
theorem keepsStatus_pure (a : α) : KeepsStatus (pure a : Run α) := ⟨fun h => by cases h; rfl⟩
theorem keepsStatus_fault (f : FInfo) : KeepsStatus (Run.fault f : Run α) := ⟨fun h => by cases h⟩
theorem keepsStatus_raise (c : Cause) (a : Nat) : KeepsStatus (Run.raise c a : Run α) := keepsStatus_fault _
theorem keepsStatus_stall : KeepsStatus (Run.stall : Run α) := ⟨fun h => by cases h⟩
theorem keepsStatus_ite {c : Prop} [Decidable c] {x y : Run α} (hx : KeepsStatus x) (hy : KeepsStatus y) : KeepsStatus (if c then x else y) := by
  split
  · exact hx
  · exact hy
theorem keepsStatus_stopIf (b : Bool) (c : Cause) (a : Nat) : KeepsStatus (Run.stopIf b c a) :=
  keepsStatus_ite (keepsStatus_raise ..) (keepsStatus_pure _)
theorem keepsStatus_stallIf (b : Bool) : KeepsStatus (Run.stallIf b) := keepsStatus_ite keepsStatus_stall (keepsStatus_pure _)
theorem keepsStatus_lift {x : MM α} (hx : Calms x) : KeepsStatus (Run.lift x) :=
  ⟨fun h => by obtain ⟨m, hm, rfl⟩ := Run.of_lift_ok h; exact (hx.calm hm).status⟩
theorem keepsStatus_onM {f : Module → Module} (hf : ∀ m, Calm m (f m)) : KeepsStatus (Run.onM f) := ⟨fun h => by cases h; exact (hf _).status⟩
theorem keepsStatus_onWin {f : Win → Win} (hf : ∀ w, (f w).ctl.sw = w.ctl.sw) : KeepsStatus (Run.onWin f) :=
  ⟨fun {s} _ _ h => by cases h; rw [State.sw, State.win_setWin, hf]; rfl⟩

/-- A change of the ports of a core. -/
theorem calm_ports (m : Module) (cid : Nat) (f : Core → Ports) : Calm m (m.onCore cid fun c => { c with ports := f c }) :=
  calm_onCore m cid rfl fun _ => rfl

theorem calm_credited {m m' : Module} (h : Calm m m') (l : List (Nat × Nat × Nat)) : Calm m { m' with credits := l } := ⟨h.marks, h.ctx⟩

theorem keepsStatus_sendLink (right : Bool) (v : Word) : KeepsStatus (sendLink right v) :=
  ⟨fun {s} _ t h => by
    rw [sendLink_eq] at h
    split at h
    · cases h
    · cases h
      exact (calm_ports s.m _ fun c => if right then { c.ports with flyL := c.ports.flyL ++ [v] } else { c.ports with flyR := c.ports.flyR ++ [v] }).status⟩

theorem keepsStatus_popLink (left k : Bool) : KeepsStatus (popLink left k) :=
  ⟨fun {s} v t h => by
    have hp : ∀ vs, (popped s left vs).sw = s.sw := fun vs =>
      (calm_ports s.m s.cid fun c => if left then { c.ports with nbl := vs } else { c.ports with nbr := vs }).status
    rw [popLink_eq] at h
    split at h
    · cases h
    next w vs _ =>
      split at h
      · exact ((keepsStatus_bind (keepsStatus_sendLink left w) fun _ => keepsStatus_pure w).sw h).trans (hp vs)
      · cases h
        exact hp vs⟩

theorem calms_idxAt (c : CpCmd) (q i : Nat) : Calms (c.idxAt q i) := by
  unfold CpCmd.idxAt
  split
  · exact calms_bind (calms_loadAt ..) fun _ => calms_pure _
  · exact calms_bind (calms_loadAt ..) fun _ => calms_pure _
  · exact calms_pure _
  · exact calms_pure _

theorem calms_popBound (m0 : Module) (cid : Nat) (b : SBind) : Calms (m0.popBound cid b) := by
  unfold Module.popBound
  split
  · exact calms_raise ..
  · refine calms_ite (calms_raise ..) (calms_ite ?_ (calms_ite (calms_raise ..) calms_stall))
    refine calms_bind (calms_bind (calms_idxAt ..) fun _ => calms_pure _) fun a => ?_
    split
    · exact calms_bind (calms_lmCheck ..) fun _ => calms_pure _
    · exact calms_raise ..

theorem keepsStatus_popStream (n : Nat) : KeepsStatus (popStream n) := by
  refine keepsStatus_bind ⟨fun h => by cases h; rfl⟩ fun s => ?_
  split
  · refine keepsStatus_bind (keepsStatus_lift (calms_popBound ..)) fun v => keepsStatus_bind (keepsStatus_onM fun m => ?_) fun _ => keepsStatus_pure v
    unfold Module.stepBind
    exact calm_ports m s.cid _
  · split
    next r _ =>
      split
      · refine keepsStatus_bind (keepsStatus_onM fun m => ?_) fun _ => keepsStatus_pure _
        dsimp only
        split
        · exact calm_credited (calm_ports m s.cid _) _
        · exact calm_ports m s.cid _
      · exact keepsStatus_ite (keepsStatus_raise ..) keepsStatus_stall
    · exact keepsStatus_raise ..

theorem found_sw (w : Win) (ks : List Nat) : (w.found ks).ctl.sw = w.ctl.sw := by
  unfold Win.found
  dsimp only
  split <;> rfl

theorem keepsStatus_readSrc (o : Src) : KeepsStatus (readSrc o) := by
  refine keepsStatus_read fun s v t h => ?_
  split at h
  · rw [Run.onWin_bind] at h
    cases h
    rw [State.sw, State.win_setWin, found_sw]
    rfl
  split at h
  · cases hg : s.open_ with
    | none => rw [hg] at h; cases h
    | some g =>
      rw [hg] at h
      cases hq : g.ld with
      | nil => simp only [hq] at h; cases h
      | cons e rest => simp only [hq] at h; cases h; rfl
  split at h
  · cases hg : s.open_ with
    | none => rw [hg] at h; cases h
    | some g =>
      rw [hg] at h
      cases hq : g.sd with
      | nil => simp only [hq] at h; cases h
      | cons e rest => simp only [hq] at h; cases h; rfl
  split at h
  · exact (keepsStatus_popLink ..).sw h
  split at h
  · exact (keepsStatus_popLink ..).sw h
  split at h
  · exact (keepsStatus_popStream _).sw h
  · cases h; rfl

theorem keepsStatus_readList : ∀ l : List Src, KeepsStatus (readList l)
  | [] => keepsStatus_pure _
  | o :: l => keepsStatus_bind (keepsStatus_readSrc o) fun _ => keepsStatus_bind (keepsStatus_readList l) fun _ => keepsStatus_pure _

theorem keepsStatus_operands (l : List Src) (dst : Option (Put × Opnd)) : KeepsStatus (operands l dst) := by
  refine ⟨fun {s} vs t h => ?_⟩
  rw [operands_eq] at h
  split at h
  · cases h
  split at h
  · cases h
  split at h
  · cases h
  refine (keepsStatus_bind (keepsStatus_readList l) fun vs => keepsStatus_bind (keepsStatus_onWin fun w => ?_) fun _ => keepsStatus_pure vs).sw h
  rw [killAll_eq]

/-- A destination adds a check and takes nothing from a read. -/
theorem operands_without {l : List Src} {dst : Option (Put × Opnd)} {s t : State} {vs : List Word} (h : operands l dst s = .ok (vs, t)) :
    operands l none s = .ok (vs, t) := by
  rw [operands_eq] at h ⊢
  split at h
  · cases h
  next hroles =>
  have hsrc : (l.any s.srcBad || s.popsBad l || (none : Option (Put × Opnd)).any fun d => s.dstBad d.1 d.2) = false := by
    cases hb : l.any s.srcBad || s.popsBad l
    · rfl
    · exact absurd (by rw [hb]; rfl) hroles
  rw [hsrc]
  exact h

theorem readList_length : ∀ {l : List Src} {s t : State} {vs : List Word}, readList l s = .ok (vs, t) → vs.length = l.length
  | [], _, _, _, h => by cases h; rfl
  | o :: l, s, t, vs, h => by
    obtain ⟨v, u, -, h⟩ := Run.of_bind_ok h
    obtain ⟨ws, u', hl, h⟩ := Run.of_bind_ok h
    cases h
    exact congrArg (· + 1) (readList_length hl)

/-- What a look at the one source of an instruction gives. -/
theorem peek_reads {o : Src} {dst : Option (Put × Opnd)} {s t : State} {vs : List Word} (h : operands [o] dst s = .ok (vs, t)) :
    peek o s = .ok (some (arg vs 0), s) := by
  obtain ⟨-, -, u, hu⟩ := operands_ok h
  obtain ⟨v, rfl⟩ := List.length_eq_one_iff.mp (readList_length hu)
  rw [peek, operands_without h]
  rfl

/-! ## Who may access which register (R92) -/

theorem csrAcc_unnamed {n : Nat} (h : 40 ≤ n) : csrAcc n = none := by
  unfold csrAcc
  split
  case h_19 => exact if_neg (by omega)
  all_goals omega

/-- The table of R92, read as the sets of registers that each mode reads and writes. -/
theorem csrAcc_eq (n : Nat) : (SpecialReg n → csrAcc n = some
      (if n = 2 then .rw else if n ≤ 7 ∨ n = 0x013 then .ro else .none_, if n ≤ 2 ∨ n = 5 ∨ 0x010 ≤ n then .rw else .ro)) ∧
    (¬ SpecialReg n → csrAcc n = none) := by
  by_cases h : n < 40
  · have hall : ∀ k : Fin 40, ((k.val ≤ 7 ∨ (0x010 ≤ k.val ∧ k.val ≤ 0x019) ∨ (0x020 ≤ k.val ∧ k.val ≤ 0x027)) → csrAcc k = some
        (if k.val = 2 then .rw else if k.val ≤ 7 ∨ k.val = 0x013 then .ro else .none_,
          if k.val ≤ 2 ∨ k.val = 5 ∨ 0x010 ≤ k.val then .rw else .ro)) ∧
      (¬ (k.val ≤ 7 ∨ (0x010 ≤ k.val ∧ k.val ≤ 0x019) ∨ (0x020 ≤ k.val ∧ k.val ≤ 0x027)) → csrAcc k = none) := by decide
    exact hall ⟨n, h⟩
  · exact ⟨fun hs => by unfold SpecialReg at hs; omega, fun _ => csrAcc_unnamed (by omega)⟩

theorem csrFault_unnamed {n : Nat} (h : ¬ SpecialReg n) (super write : Bool) : csrFault n super write = some .illop := by
  rw [csrFault, (csrAcc_eq n).2 h]

theorem csrFault_super {n : Nat} (h : SpecialReg n) (write : Bool) :
    csrFault n true write = if write = true ∧ ¬ (n ≤ 2 ∨ n = 5 ∨ 0x010 ≤ n) then some Cause.illop else none := by
  rw [csrFault, (csrAcc_eq n).1 h]
  by_cases hn : n ≤ 2 ∨ n = 5 ∨ 0x010 ≤ n <;> cases write <;> simp [hn]

theorem csrFault_user {n : Nat} (h : SpecialReg n) (write : Bool) :
    csrFault n false write = if ¬ (n ≤ 7 ∨ n = 0x013) ∨ (write = true ∧ n ≠ 2) then some Cause.priv else none := by
  rw [csrFault, (csrAcc_eq n).1 h]
  by_cases h2 : n = 2
  · subst h2; cases write <;> rfl
  · by_cases hn : n ≤ 7 ∨ n = 0x013 <;> cases write <;> simp [h2, hn]

theorem csrFault_mayRead {s : State} {n : Nat} (h : MayRead s n) : csrFault n s.super false = none := by
  obtain ⟨hs, hm⟩ := h
  cases hsup : s.super with
  | true => rw [csrFault_super hs]; rfl
  | false =>
    have hu : n ≤ 7 ∨ n = 0x013 := hm.resolve_left (by simp [hsup])
    rw [csrFault_user hs, if_neg (by simp [hu])]

theorem csrFault_mayWrite {s : State} {n : Nat} (h : MayWrite s n) : csrFault n s.super true = none := by
  unfold MayWrite at h
  cases hsup : s.super with
  | true =>
    rw [hsup, if_pos rfl] at h
    have hs : SpecialReg n := by unfold SuperWrites at h; unfold SpecialReg; omega
    have hw : n ≤ 2 ∨ n = 5 ∨ 0x010 ≤ n := by unfold SuperWrites at h; omega
    rw [csrFault_super hs, if_neg (by simp [hw])]
  | false =>
    rw [hsup, if_neg Bool.false_ne_true] at h
    subst h
    rfl

theorem csrCheck_bind {n : Nat} {write : Bool} {s : State} (h : csrFault n s.super write = none) (f : Unit → Run β) :
    (csrCheck n write >>= f) s = f () s := by
  refine Run.bind_ok ((Run.get_bind _ s).trans ?_)
  rw [h]
  rfl

theorem csrCheck_fault {n : Nat} {write : Bool} {s : State} {c : Cause} (h : csrFault n s.super write = some c) (f : Unit → Run β) :
    (csrCheck n write >>= f) s = .error (.fault { cause := c }) := by
  refine Run.bind_error ((Run.get_bind _ s).trans ?_)
  rw [h]
  rfl

/-! ## Values and writes (R93–R95, R411, R412) -/

theorem csrValue_bind (n : Nat) (s : State) (f : Word → Run β) : (csrValue n >>= f) s = f (specialValue s n) s :=
  Run.bind_ok ((Run.get_bind _ s).trans rfl)

theorem swDenied_eq_false {s : State} {v : Word} (h : s.super = true ∨ bits v 2 0 = bits s.sw 2 0) : s.swDenied v = false := by
  unfold State.swDenied
  rcases h with h | h <;> simp [h]

theorem writeSw_ok {s : State} {v : Word} (h : s.super = true ∨ bits v 2 0 = bits s.sw 2 0) (hrm : bits v 6 4 ≤ 4) :
    writeSw v s = .ok ((), s.setWin { s.win with ctl := { s.win.ctl with
      sw := swOr (v &&& BitVec.ofNat 64 swBits) (if s.win.orNow.1 = s.m.time then s.win.orNow.2 else 0)
      livev := if bit s.win.ctl.sw 3 = true ∧ bit v 3 = false then 0#16 else s.win.ctl.livev } }) := by
  have hr : decide (5 ≤ swRm v) = false := decide_eq_false (by show ¬ 5 ≤ bits v 6 4; omega)
  rw [writeSw, Run.get_bind, swDenied_eq_false h, Run.stopIf_false, hr, Run.stopIf_false]
  have hv : (swVe s.sw && !swVe v) = decide (bit s.win.ctl.sw 3 = true ∧ bit v 3 = false) := by
    show (bit s.win.ctl.sw 3 && !bit v 3) = _
    cases bit s.win.ctl.sw 3 <;> cases bit v 3 <;> rfl
  simp only [hv, decide_eq_true_eq]
  rfl

/-- The effect of a write for the registers that have a check of their own. -/
theorem csrWrite_cpr (v : Word) (s : State) : csrWrite 0x016 v s =
    (do Run.stallIf (s.m.cprBusy s.cid); Run.onM fun m => m.setCpr s.cid v : Run Unit) s := rfl
theorem csrWrite_frec (v : Word) (s : State) : csrWrite 0x017 v s =
    (do Run.stopIf (s.core.frecBad v) .badopnd; onSpec fun p => { p with frec := keepBits v 0x800000000007F000 } : Run Unit) s := rfl
theorem csrWrite_stash (v : Word) (s : State) : csrWrite 0x018 v s =
    (do
      Run.stopIf (s.core.stashBad v) .badopnd
      Run.stallIf (s.core.allLines.any fun l => s.core.defers s.m.time l (some s.ctx))
      Run.lift (MM.home fun m => m.flushLines s.cid s.core.allLines)
      Run.onM fun m => m.setStash s.cid (keepBits v 0xFF) : Run Unit) s := rfl
theorem csrWrite_mxw (v : Word) (s : State) : csrWrite 0x019 v s =
    (do Run.stopIf (bits v 3 0 = 0) .badopnd; onSpec fun p => { p with mxw := v.extractLsb' 0 4 } : Run Unit) s := rfl
/-- Any other register is a guard. -/
theorem csrWrite_guard {n : Nat} (v : Word) (s : State) (h : ∀ k ∈ [0, 1, 2, 5, 16, 17, 18, 19, 20, 21, 22, 23, 24, 25], n ≠ k) :
    csrWrite n v s =
      onSpec (fun p => { p with guards := Tab.put p.guards (n - 0x020) (keepBits v 0x003F1FFF0007FFC0) }) s := by
  unfold csrWrite
  rw [Run.get_bind]
  split
  case h_15 => rfl
  all_goals exact absurd rfl (h _ (by decide))

theorem csrWrite_ok {n : Nat} {v : Word} {s t : State} (h : SpecialWritten n v s t) : csrWrite n v s = .ok ((), t) := by
  unfold SpecialWritten at h
  split at h
  case h_1 => subst h; unfold csrWrite; rw [Run.get_bind]; rfl
  case h_2 => subst h; unfold csrWrite; rw [Run.get_bind]; rfl
  case h_3 =>
    obtain ⟨hd, hrm, rfl⟩ := h
    unfold csrWrite
    rw [Run.get_bind]
    exact writeSw_ok hd hrm
  case h_4 => subst h; unfold csrWrite; rw [Run.get_bind]; rfl
  case h_5 =>
    subst h
    unfold csrWrite
    rw [Run.get_bind]
    dsimp only
    cases bit v 63 <;> rfl
  case h_6 => subst h; unfold csrWrite; rw [Run.get_bind]; rfl
  case h_7 => subst h; unfold csrWrite; rw [Run.get_bind]; rfl
  case h_8 => subst h; unfold csrWrite; rw [Run.get_bind]; rfl
  case h_9 => subst h; unfold csrWrite; rw [Run.get_bind]; rfl
  case h_10 => subst h; unfold csrWrite; rw [Run.get_bind]; rfl
  case h_11 =>
    obtain ⟨hb, hother, hcsa⟩ := h
    rw [csrWrite_cpr, hb, Run.stallIf_false, Run.onM_run, Module.setCpr]
    split
    next hc => rw [hcsa hc]; rfl
    next hc => rw [hother hc]; rfl
  case h_12 =>
    obtain ⟨hb, rfl⟩ := h
    rw [csrWrite_frec, hb, Run.stopIf_false]
    rfl
  case h_13 =>
    obtain ⟨hb, hl, m, hm, rfl⟩ := h
    have hany : (s.core.allLines.any fun l => s.core.defers s.m.time l (some s.ctx)) = false :=
      List.any_eq_false.mpr fun l hm => by simp [hl l hm]
    rw [csrWrite_stash, hb, Run.stopIf_false, hany, Run.stallIf_false]
    exact (Run.home_ok (f := fun m => m.flushLines s.cid s.core.allLines) hm).trans rfl
  case h_14 =>
    obtain ⟨hb, rfl⟩ := h
    rw [csrWrite_mxw, decide_eq_false hb, Run.stopIf_false]
    rfl
  case h_15 =>
    subst h
    rw [csrWrite_guard v s (by simp_all)]
    rfl

theorem begun_super (s : State) : s.begun.super = s.super := by rw [State.super, State.sw, State.begun_win]; rfl
theorem begun_sw (s : State) : s.begun.sw = s.sw := by rw [State.sw, State.begun_win]; rfl

/-- A value that may be written to the status word after the operands are read might have been written before. -/
theorem swDenied_before {n : Nat} {v : Word} {s t u : State} (hsw : t.sw = s.sw) (h : SpecialWritten n v t u) : (n == 2 && s.swDenied v) = false := by
  by_cases hn : n = 2
  · subst hn
    obtain ⟨hd, -, -⟩ := h
    rw [State.super, hsw] at hd
    rw [swDenied_eq_false hd]
    rfl
  · rw [beq_eq_false_iff_ne.mpr hn]
    rfl

end Sys2Proof.Machine

namespace Sys2Proof.Claims
open Sys2Proof.Machine

/-- An access that R92 refuses raises its cause before any operand is read. -/
theorem csr_refused {n : Nat} {write : Bool} {s : State} {c : Cause} (hr : s.Running) (h : csrFault n s.super write = some c) (f : Unit → Run Unit) :
    run (csrCheck n write >>= f) s = .next (s.faulted { cause := c }) :=
  run_faults hr _ (csrCheck_fault (by rw [begun_super]; exact h) f)

theorem csrWrite_refused {i : Instr} {n : Nat} {s : State} {c : Cause} (hr : s.Running)
    (hi : (∃ f : CsrwF, i = .csrw f ∧ f.n.toNat = n) ∨ (∃ f : CsrxF, i = .csrx f ∧ f.n.toNat = n)) (h : csrFault n s.super true = some c) :
    exec i s = .next (s.faulted { cause := c }) := by
  rcases hi with ⟨f, rfl, rfl⟩ | ⟨f, rfl, rfl⟩
  · exact csr_refused hr h _
  · exact csr_refused hr h _

/-- Settles O49: the access check of R92 as the sets of registers that each mode reads and writes, then the value and the write of each
register; a read of operands leaves the status word, so that the look ahead of CSRX finds what the write finds. -/
theorem specialRegisters : Obligations.SpecialRegisters := by
  refine ⟨fun f s t u hm ho hw => ?_, fun f s t u l hm ho hw => ?_, fun f s t u v l hm ho hw hd => ?_, fun f s hr => ⟨fun hs => ?_, fun hs hu hn => ?_⟩,
    fun i n s hr hi => ⟨fun hs => ?_, fun hs hsup hn => ?_, fun hs hu hn => ?_⟩⟩
  · obtain ⟨hr, ho⟩ := ho
    refine run_retires hr _ ((csrCheck_bind (by rw [begun_super]; exact csrFault_mayRead hm) _).trans ((Run.bind_ok ho).trans ?_))
    exact (csrValue_bind ..).trans hw
  · obtain ⟨hr, ho⟩ := ho
    exact run_retires hr _ ((csrCheck_bind (by rw [begun_super]; exact csrFault_mayWrite hm) _).trans ((Run.bind_ok ho).trans (csrWrite_ok hw)))
  · obtain ⟨hr, ho⟩ := ho
    have hsw : t.sw = s.begun.sw := (keepsStatus_operands ..).sw ho
    refine run_retires hr _ ((csrCheck_bind (by rw [begun_super]; exact csrFault_mayWrite hm) _).trans ((Run.bind_ok (peek_reads ho)).trans ?_))
    refine (Run.get_bind _ s.begun).trans ?_
    have hden : (f.n.toNat == 2 && (some (arg l 0)).any s.begun.swDenied) = false := swDenied_before hsw hw
    rw [hden, Run.stopIf_false]
    exact (Run.bind_ok ho).trans ((csrValue_bind ..).trans ((Run.bind_ok (csrWrite_ok hw)).trans hd))
  · exact csr_refused hr (csrFault_unnamed hs ..) _
  · refine csr_refused hr ?_ _
    rw [hu, csrFault_user hs, if_pos (.inl hn)]
  · exact csrWrite_refused hr hi (csrFault_unnamed hs ..)
  · refine csrWrite_refused hr hi ?_
    rw [hsup, csrFault_super hs, if_pos ⟨rfl, fun h => hn (by unfold SuperWrites; unfold SpecialReg at hs; omega)⟩]
  · refine csrWrite_refused hr hi ?_
    rw [hu, csrFault_user hs, if_pos (.inr ⟨rfl, hn⟩)]

end Sys2Proof.Claims
end

section
/-!
PROOFS. Accesses to special registers that have waited (R94, R188, R412).
-/
namespace Sys2Proof.Claims
open Sys2Proof.Machine

/-- The event of a waiting access runs the CSR instruction that it finds, and gives the focus back. -/
theorem exec_retried {e i : Instr} {n cid ctx : Nat} {s t : State} (h : Retried e i n cid ctx s t) (hn : csrNumber i = some n)
    (hi : runCsr i = exec i) {v : State} (hv : exec i t = .next v) : exec e s = .next (backTo s v) := by
  have he : exec e s = csrEvent n cid ctx s := by
    rcases h.which with ⟨rfl, rfl⟩ | ⟨rfl, rfl⟩ | ⟨rfl, rfl⟩ <;> rfl
  have hu : ({ t with m := s.settled } : State) = { s with m := s.settled, cid := cid, ctx := ctx, open_ := none } := by rw [h.rest]
  have hready : (({ s with m := s.settled, cid := cid, ctx := ctx, open_ := none } : State).core.ctx ctx).act.isNone = false ∧
      ({ s with m := s.settled, cid := cid, ctx := ctx, open_ := none } : State).act.win.isNone = false := by
    have hrun := h.runs
    rw [hu] at hrun
    exact ⟨congrArg Option.isNone hrun.ctx, congrArg Option.isNone hrun.win⟩
  obtain ⟨hact, hwin⟩ := hready
  rw [he, csrEvent]
  refine (if_neg (by rw [hact, hwin, h.issues]; decide)).trans ?_
  rw [h.found]
  refine (if_pos hn).trans ?_
  have ht : ({ ({ s with m := s.settled, cid := cid, ctx := ctx, open_ := none } : State) with m := t.m } : State) = t := h.rest.symm
  rw [ht, hi, hv]
  rfl

/-- Settles O56: the event finds the CSR instruction, whose completion is that of the instruction itself. -/
theorem waitingWritesRetried : Obligations.WaitingWritesRetried := by
  obtain ⟨hread, hwrite, hswap, -⟩ := specialRegisters
  refine ⟨fun e f n cid ctx s t t1 u l h hn hm ho hw => ?_, fun e f n cid ctx s t t1 u v l h hn hm ho hw hd => ?_,
    fun e f n cid ctx s t t1 u h hn hm ho hw => ?_⟩ <;> subst hn
  · exact exec_retried h rfl rfl (hwrite f t t1 u l hm ho hw)
  · exact exec_retried h rfl rfl (hswap f t t1 u v l hm ho hw hd)
  · exact exec_retried h rfl rfl (hread f t t1 u hm ho hw)

end Sys2Proof.Claims
end

section
/-!
PROOFS. The events of a core (R43–R48, R52–R57, R62–R66, R71, R84, R88, R90, R224, R228, R237, R352, R487, R488).
-/
namespace Sys2Proof.Claims
open Sys2Proof.Machine

/-- An event whose function of the settled module answers m' happens. -/
theorem event_happens {s : State} {m' : Module} {f : Module → Option Module} (hf : f s.settled = some m') :
    event f s = .next { s with m := m', open_ := none } := by
  rw [event, hf]

/-! ## Waits -/

theorem waitOf_waits {m : Module} {cid key : Nat} {w : WaitOn} (h : WaitsFor m cid key w) : m.waitOf cid key = some w := by
  obtain ⟨a, ha, hs, rfl⟩ := h
  rw [Module.waitOf, ha, Option.bind_some, if_pos hs]

theorem joinReread_happens {s : State} {m' : Module} {cid key : Nat} (h : waitEvent (.joinReread cid key) s.settled m') :
    Happens (.joinReread cid key) s m' := by
  obtain ⟨va, pc, mon, next, hw, ht, h⟩ := h
  refine (event_happens ?_ : execJoinReread cid key s = _)
  rw [waitOf_waits hw, Option.bind_some]
  dsimp only
  rw [if_neg (by omega)]
  rcases h with ⟨v, old, n, hj, rfl⟩ | ⟨f, hj, rfl⟩ <;> rw [hj] <;> rfl

theorem waitExpiry_happens {s : State} {m' : Module} {cid key : Nat} (h : waitEvent (.waitExpiry cid key) s.settled m') :
    Happens (.waitExpiry cid key) s m' := by
  obtain ⟨t, hw, ht, rfl⟩ := h
  refine (event_happens ?_ : execWaitExpiry cid key s = _)
  rw [waitOf_waits hw, Option.bind_some]
  exact if_neg (by omega)

theorem waitrsTimeout_happens {s : State} {m' : Module} {cid key : Nat} (h : waitEvent (.waitrsTimeout cid key) s.settled m') :
    Happens (.waitrsTimeout cid key) s m' := by
  obtain ⟨t, hw, ht, rfl⟩ := h
  refine (event_happens ?_ : execWaitrsTimeout cid key s = _)
  rw [waitOf_waits hw, Option.bind_some]
  exact if_neg (by omega)

theorem barwRetry_happens {s : State} {m' : Module} {cid key : Nat} (h : waitEvent (.barwRegistrationRetry cid key) s.settled m') :
    Happens (.barwRegistrationRetry cid key) s m' := by
  obtain ⟨loc, next, k, hw, ht, rfl⟩ := h
  refine (event_happens ?_ : execBarwRegistrationRetry cid key s = _)
  dsimp only
  rw [waitOf_waits hw, Option.bind_some]
  dsimp only
  rw [if_neg (by omega)]
  cases hv : (s.settled.barObj loc).v with
  | false => rfl
  | true =>
    by_cases hp : (s.settled.barObj loc).phase = bit (s.settled.ctlOf cid key).waitv 0
    · simp only [hp, ne_eq, not_true_eq_false, Bool.not_true, Bool.false_eq_true, Bool.true_eq_false, if_false, decide_eq_true_eq]
      split <;> rfl
    · simp only [hp, ne_eq, not_false_eq_true, Bool.not_true, Bool.false_eq_true, Bool.true_eq_false, if_false, if_true]

/-! ## Links and register banks -/

theorem neighbourWordArrival_happens {s : State} {m' : Module} {cid : Nat} {left : Bool}
    (h : waitEvent (.neighbourWordArrival cid left) s.settled m') : Happens (.neighbourWordArrival cid left) s m' := by
  obtain ⟨v, vs, h⟩ := h
  refine (event_happens ?_ : execNeighbourWordArrival cid left s = _)
  dsimp only
  cases left with
  | true =>
    obtain ⟨hf, hn, rfl⟩ := h
    rw [if_pos rfl, hf]
    exact if_pos hn
  | false =>
    obtain ⟨hf, hn, rfl⟩ := h
    rw [if_neg Bool.false_ne_true, hf]
    exact if_pos hn

theorem registerBankIdle_happens {s : State} {m' : Module} {cid key bank : Nat} (h : waitEvent (.registerBankIdle cid key bank) s.settled m') :
    Happens (.registerBankIdle cid key bank) s m' := by
  obtain ⟨w, hw, hb, hl, hr, ht, rfl⟩ := h
  refine (event_happens ?_ : execRegisterBankIdle cid key bank s = _)
  rw [hw, Option.bind_some, if_neg]
  simp [hl, hr, Win.idle, ht]
  omega

theorem groomerVisit_happens {s : State} {m' : Module} {pid off err : Nat} (h : waitEvent (.groomerVisit pid off err) s.settled m') :
    Happens (.groomerVisit pid off err) s m' := by
  obtain ⟨hp, ho, h4, hb, hf, rfl⟩ := h
  refine (event_happens ?_ : execGroomerVisit pid off err s = _)
  dsimp only
  rw [if_neg (by simp [hf, h4]; omega)]
  simp only [apply_ite some, Bool.or_eq_true, decide_eq_true_eq]

theorem lmBankWakeComplete_happens {s : State} {m' : Module} {pid bank : Nat} (h : waitEvent (.lmBankWakeComplete pid bank) s.settled m') :
    Happens (.lmBankWakeComplete pid bank) s m' := by
  obtain ⟨hb, ht, rfl⟩ := h
  refine (event_happens ?_ : execLmBankWakeComplete pid bank s = _)
  dsimp only
  exact if_pos (by simp [hb, ht])

/-! ## The vector unit -/

theorem vectorInstructionStart_happens {s : State} {m' : Module} {cid : Nat} (h : waitEvent (.vectorInstructionStart cid) s.settled m') :
    Happens (.vectorInstructionStart cid) s m' := by
  obtain ⟨k, o, ho, rfl⟩ := h
  refine (event_happens ?_ : execVectorInstructionStart cid s = _)
  dsimp only
  rw [ho]
  rfl

theorem vectorRetirement_happens {s : State} {m' : Module} {cid : Nat} (h : waitEvent (.vectorRetirement cid) s.settled m') :
    Happens (.vectorRetirement cid) s m' := by
  obtain ⟨o, rest, hq, hs, hc, n, v, fl, hr, rfl⟩ := h
  refine (event_happens ?_ : vecEvent false cid s = _)
  dsimp only
  have hnot : (s.settled.core cid).vcancel.contains o.key = false := by simpa using hc
  have hf : s.settled.vecFaults cid = false := by rw [Module.vecFaults, hq]; dsimp only; rw [hnot, hr]; rfl
  rw [hq, List.head?_cons, Option.bind_some, hs, hf]
  refine (if_pos rfl).trans ?_
  rw [Module.vecTurn, hq]
  dsimp only
  rewrite [hnot, if_neg Bool.false_ne_true, hr]
  rfl

theorem vectorLateFault_happens {s : State} {m' : Module} {cid : Nat} (h : waitEvent (.vectorLateFault cid) s.settled m') :
    Happens (.vectorLateFault cid) s m' := by
  obtain ⟨o, rest, hq, hs, hc, n, f, hr, rfl⟩ := h
  refine (event_happens ?_ : vecEvent true cid s = _)
  have hnot : (s.settled.core cid).vcancel.contains o.key = false := by simpa using hc
  have hf : s.settled.vecFaults cid = true := by rw [Module.vecFaults, hq]; dsimp only; rw [hnot, hr]; rfl
  rw [hq, List.head?_cons, Option.bind_some, hs, hf]
  refine (if_pos rfl).trans ?_
  rw [Module.vecTurn, hq]
  dsimp only
  rw [hnot, if_neg Bool.false_ne_true, hr]

theorem icacheFill_happens {s : State} {m' : Module} {cid ctx : Nat} (h : waitEvent (.icacheFill cid ctx) s.settled m') :
    Happens (.icacheFill cid ctx) s m' := by
  obtain ⟨key, w, b, hi, hk, hw, hl, hb⟩ := h
  refine (event_happens ?_ : execIcacheFill cid ctx s = _)
  dsimp only
  rw [hk, Option.bind_some, hw, Option.bind_some, if_neg, hb]
  have hany : (((s.settled.core cid).ctx ctx).line.any fun l => l.base == w.ctl.pc.toNat / 64 * 64) = false := by
    cases hx : ((s.settled.core cid).ctx ctx).line with
    | none => rfl
    | some l => exact beq_eq_false_iff_ne.mpr (hl l hx)
  rw [hi, hany]
  decide

end Sys2Proof.Claims
end

section
/-!
PROOFS. The scheduler of a core and work stealing (R43–R48, R54–R57, R62–R66, R88, R328, R352).
-/
namespace Sys2Proof.Machine

/-! ## A context that is open after a record has been taken was open before -/

/-- From m to m' memory, cores, bindings, and what the banks can do stay. -/
structure Looked (m m' : Module) : Prop where
  mem : m'.mem = m.mem
  cores : m'.cores = m.cores
  pid : ∀ c, m'.pid c = m.pid c
  usable : ∀ c off k, m'.lmUsable c off k = m.lmUsable c off k

theorem Looked.trans {a b c : Module} (h : Looked a b) (h' : Looked b c) : Looked a c :=
  ⟨h'.mem.trans h.mem, h'.cores.trans h.cores, fun k => (h'.pid k).trans (h.pid k), fun k o n => (h'.usable k o n).trans (h.usable k o n)⟩

theorem looked_touched (m : Module) (cid off n : Nat) : Looked m (m.touched cid off n) := by
  have hw := written_touched m cid off n 0 0
  have h : (m.touched cid off n).mem = m.mem ∧ (m.touched cid off n).cores = m.cores := by
    unfold Module.touched
    split
    · split <;> exact ⟨rfl, rfl⟩
    · exact ⟨rfl, rfl⟩
  exact ⟨h.1, h.2, hw.pid, hw.usable⟩

/-- A read that finds no uncorrectable word leaves every bank as it is. -/
theorem looked_inspect {m : Module} {loc n : Nat} (h : m.bad loc n = false) : Looked m (m.inspect loc n) := by
  have hphys : (m.inspect loc n).phys = m.phys := by
    have hsoft : ∀ u ∈ (m.upsets.partition fun u => meet u.1 4 loc n).1, u.2 = false := fun u hu => by
      rw [List.partition_eq_filter_filter] at hu
      obtain ⟨hm, hl⟩ := List.mem_filter.mp hu
      rw [Module.bad, Bool.or_eq_false_iff, List.any_eq_false, List.any_eq_false] at h
      simpa [hl] using h.2 u hm
    have hfold : ∀ (l : List (Nat × Bool)) (x : Module), (∀ u ∈ l, u.2 = false) →
        (l.foldl (fun m u => if u.2 then m.wordLost u.1 else m.onSite (siteOfWord u.1) fun x => { x with errC := x.errC + 1 }) x).phys = x.phys := by
      intro l
      induction l with
      | nil => exact fun _ _ => rfl
      | cons u l ih =>
        intro x hl
        rw [List.foldl_cons, ih _ fun v hv => hl v (List.mem_cons_of_mem _ hv), hl u List.mem_cons_self]
        rfl
    exact hfold _ _ hsoft
  refine ⟨m.inspect_mem loc n, m.inspect_cores loc n, fun c => m.inspect_pid loc n c, fun c off k => ?_⟩
  rw [Module.lmUsable_eq, Module.lmUsable_eq, m.inspect_pid, Module.phy, hphys]
  rfl

/-- What the choice of a context for a trap depends on. -/
theorem trapFirst_congr {m m' : Module} {cid : Nat} (hmem : m'.mem = m.mem) (hp : ∀ c, m'.pid c = m.pid c)
    (hu : ∀ off k, m'.lmUsable cid off k = m.lmUsable cid off k) (hs : (m'.core cid).sup = (m.core cid).sup)
    (hx : (m'.core cid).ctxs = (m.core cid).ctxs) (k : Nat) : m'.trapFirst cid k = m.trapFirst cid k := by
  have hroom : m'.trapRoom cid = m.trapRoom cid := funext fun k => by
    rw [Module.trapRoom, Module.trapRoom, Core.ctx, hx, hu]
    rfl
  have hentry : ∀ i, i < 15 → m'.supEntry cid i = m.supEntry cid i := fun i hi => by
    have hoff : meet (supOff i) 64 0x7F800 0x40 = false := by
      rw [supOff, meet, Bool.and_eq_false_iff]
      exact .inl (decide_eq_false (by omega))
    rw [Module.supEntry, Module.supEntry, lmRead_eq_read hoff, lmRead_eq_read hoff, hmem, Module.lmAt, hp]
    rfl
  have hold : m'.oldestSup cid = m.oldestSup cid := by
    rw [Module.oldestSup, Module.oldestSup, hs]
    refine List.find?_congr fun i hi => ?_
    obtain ⟨j, -, rfl⟩ := List.mem_map.mp hi
    rw [hentry _ (Nat.mod_lt _ (by decide))]
  rw [Module.trapFirst, Module.trapFirst, Module.trapDue, Module.trapDue, hs, hold, hroom]

theorem openContext_dqPop {m n : Module} {cid : Nat} {r : TaskRec} (h : m.dqPop cid = some (r, n)) : n.openContext cid = m.openContext cid := by
  unfold Module.dqPop at h
  dsimp only at h
  split at h
  · cases h
  generalize hi : ((m.core cid).desc.lifo + 63) % 64 = i at h
  obtain ⟨rec, hrec, he⟩ := Option.map_eq_some_iff.mp h
  have hbad : m.bad (m.lmAt cid (dqOff i)) 96 = false := by
    unfold Module.dqRec at hrec
    split at hrec
    · cases hrec
    next hb => exact Bool.eq_false_iff.mpr fun hb' => hb (by rw [hb']; rfl)
  have hbad' : (m.touched cid (dqOff i) 96).bad (m.lmAt cid (dqOff i)) 96 = false := (written_touched m cid (dqOff i) 96 0 0).bad _ _ hbad
  have hl : Looked m (m.dqRead cid i) := (looked_touched m cid (dqOff i) 96).trans (looked_inspect hbad')
  have hcore : (m.dqRead cid i).core cid = m.core cid := by rw [Module.core, hl.cores]; rfl
  cases he
  have hpid := hl.pid
  rw [Module.openContext, Module.openContext]
  have hctx : ((m.dqRead cid i).onCore cid fun c => { c with
      desc := { (m.core cid).desc with lifo := i, n := (m.core cid).desc.n - 1 }, dqAt := some m.time }).core cid =
      { m.core cid with desc := { (m.core cid).desc with lifo := i, n := (m.core cid).desc.n - 1 }, dqAt := some m.time } := by
    rw [Module.core_onCore, hcore]
  have hfirst := trapFirst_congr (m := m) (cid := cid) (m' := (m.dqRead cid i).onCore cid fun c => { c with
      desc := { (m.core cid).desc with lifo := i, n := (m.core cid).desc.n - 1 }, dqAt := some m.time })
    hl.mem hpid (fun off k => hl.usable cid off k) (by rw [hctx]) (by rw [hctx])
  rw [hctx, funext hfirst]
  rfl

end Sys2Proof.Machine

namespace Sys2Proof.Claims
open Sys2Proof.Machine

/-! ## What starts -/

theorem activationBinding_happens {s : State} {m' : Module} {cid key : Nat} (h : schedulerEvent (.activationBinding cid key) s.settled m') :
    Happens (.activationBinding cid key) s m' := by
  obtain ⟨hst, hb, ⟨a, ha⟩, rfl⟩ := h
  refine (event_happens ?_ : execActivationBinding cid key s = _)
  dsimp only
  rw [ha]
  exact if_pos (by simp [hst, hb])

theorem contextEntry_happens {s : State} {m' : Module} {cid ctx : Nat} (h : schedulerEvent (.contextEntry cid ctx) s.settled m') :
    Happens (.contextEntry cid ctx) s m' := by
  obtain ⟨key, a, hf, hst, ht, hc, hx, h5, h6, rfl⟩ := h
  refine (event_happens ?_ : execContextEntry cid ctx s = _)
  dsimp only
  rw [hf, Option.bind_some]
  refine if_neg ?_
  simp only [hst, ht, hx, Bool.not_true, Bool.false_or, Bool.or_false, Option.isSome_none, Bool.or_eq_true, decide_eq_true_eq, Bool.and_eq_true]
  rintro ((hc' | ⟨hn, hr⟩) | ⟨hn, hr⟩)
  · omega
  · rw [h5 hn] at hr; cases hr
  · rw [h6 hn] at hr; cases hr

theorem taskStart_happens {s : State} {m' : Module} {cid : Nat} (h : schedulerEvent (.taskStart cid) s.settled m') :
    Happens (.taskStart cid) s m' := by
  obtain ⟨r, n, hst, hb, hf, hp, hm⟩ := h
  refine (event_happens ?_ : execTaskStart cid s = _)
  have hopen : (s.settled.openContext cid).isNone = false := by
    rw [← openContext_dqPop hp]
    unfold Module.startNew at hm
    cases ho : n.openContext cid with
    | none => rw [ho] at hm; cases hm
    | some k => rfl
  rw [hst, hopen, hb, hf, if_neg (by decide), hp]
  exact hm

theorem workRangeStart_happens {s : State} {m' : Module} {cid : Nat} (h : schedulerEvent (.workRangeStart cid) s.settled m') :
    Happens (.workRangeStart cid) s m' := by
  obtain ⟨e, l, r, hg, hst, hb, ht, hr, hm⟩ := h
  refine (event_happens ?_ : execWorkRangeStart cid s = _)
  dsimp only
  rw [hg]
  dsimp only
  rw [hst, hb, ht, if_neg (by decide), hr]
  exact hm

theorem trapActivationCreation_happens {s : State} {m' : Module} {cid ctx : Nat}
    (h : schedulerEvent (.trapActivationCreation cid ctx) s.settled m') : Happens (.trapActivationCreation cid ctx) s m' := by
  obtain ⟨hst, hd, hc, hx, hr, rfl⟩ := h
  refine (event_happens ?_ : execTrapActivationCreation cid ctx s = _)
  exact if_pos (by simp [hst, hd, hc, hx, hr])

theorem deferredTrapEntry_happens {s : State} {m' : Module} {cid : Nat} (h : schedulerEvent (.deferredTrapEntry cid) s.settled m') :
    Happens (.deferredTrapEntry cid) s m' := by
  obtain ⟨hd, hv, rfl⟩ := h
  refine (event_happens ?_ : execDeferredTrapEntry cid s = _)
  rw [List.any_eq_true.mpr hd, hv]
  rfl

/-! ## Displacement and aging -/

theorem trapOpen_iff {m : Module} {cid : Nat} :
    ((upFrom 0 4).any fun k => ((m.core cid).ctx k).act.isNone && m.trapRoom cid k) = true ↔ TrapOpen m cid := by
  rw [List.any_eq_true]
  refine exists_congr fun k => ?_
  rw [show k ∈ upFrom 0 4 ↔ k < 4 by rw [upFrom_zero]; exact List.mem_range, Bool.and_eq_true, Option.isNone_iff_eq_none]

theorem drained_of {m d : Module} {cid key : Nat} (h : m.drain cid key = (true, d)) (f : Module → Option Module) : m.drained cid key f = f d := by
  rw [Module.drained, h]
  rfl

theorem displacement_happens {s : State} {m' : Module} {cid : Nat} (h : schedulerEvent (.displacement cid) s.settled m') :
    Happens (.displacement cid) s m' := by
  obtain ⟨trap, v, a, d, hst, htrap, hdue, hv, hd, h⟩ := h
  refine (event_happens ?_ : execDisplacement cid s = _)
  dsimp only
  have ht : (s.settled.trapDue cid && !(upFrom 0 4).any fun k => ((s.settled.core cid).ctx k).act.isNone && s.settled.trapRoom cid k) = trap := by
    rw [Bool.eq_iff_iff, Bool.and_eq_true, Bool.not_eq_true', ← Bool.not_eq_true, trapOpen_iff, htrap]
  rw [ht, if_neg, hv, Option.bind_some, drained_of hd]
  · rcases h with ⟨hb, rfl⟩ | ⟨b, hb, hl, rfl⟩
    · dsimp only
      rw [if_pos hb]
    · dsimp only
      rw [if_neg (by omega), hl]
  · rw [hst]
    rcases hdue with rfl | ⟨hfree, hw⟩
    · simp
    · simp [hfree, hw]

theorem aging_happens {s : State} {m' : Module} {cid key : Nat} (h : schedulerEvent (.aging cid key) s.settled m') :
    Happens (.aging cid key) s m' := by
  obtain ⟨hw, hc, ht, rfl⟩ := h
  refine (event_happens ?_ : execAging cid key s = _)
  dsimp only
  exact if_pos (by simp [hw, hc, ht])

/-! ## Budgets and late faults -/

theorem ctx_of_issuing {m : Module} {cid key : Nat} {w : Win} (h : Issues m cid key w) : ∃ k, (m.act cid key).ctx? = some k := by
  obtain ⟨-, k, hk⟩ := h
  exact ⟨k, by rw [Act.ctx?, hk]⟩

/-- What is due for the activation of a context, its vector instructions retired. -/
theorem ctxEvent_happens {s : State} {m' d : Module} {cid ctx key : Nat} {f : Module → Nat → Nat → Option Module}
    (h : InContext s.settled d cid ctx key) (hf : f d cid key = some m') : ctxEvent f cid ctx s = .next { s with m := m', open_ := none } := by
  obtain ⟨hi, hx, hd⟩ := h
  refine event_happens ?_
  rw [hi, if_pos rfl, hx, Option.bind_some, drained_of hd, hf]

theorem budgetExpiry_happens {s : State} {m' : Module} {cid ctx : Nat} (h : schedulerEvent (.budgetExpiry cid ctx) s.settled m') :
    Happens (.budgetExpiry cid ctx) s m' := by
  obtain ⟨key, d, w, hin, hi, hp, hh, hb, hg, rfl⟩ := h
  refine ctxEvent_happens (f := Module.budgetOut) hin ?_
  obtain ⟨k, hk⟩ := ctx_of_issuing hi
  unfold countedIn at hi hk hg
  unfold Module.budgetOut
  dsimp only
  rw [hi.1, hk]
  dsimp only
  rw [if_pos (by rw [hg]; simp [hp, hh, hb])]
  rfl

theorem forcedSuspension_happens {s : State} {m' : Module} {cid ctx : Nat} (h : schedulerEvent (.forcedSuspension cid ctx) s.settled m') :
    Happens (.forcedSuspension cid ctx) s m' := by
  obtain ⟨key, d, w, hin, hi, hg, rfl⟩ := h
  refine ctxEvent_happens (f := Module.forceOut) hin ?_
  obtain ⟨k, hk⟩ := ctx_of_issuing hi
  unfold countedIn at hi hk hg
  unfold Module.forceOut
  dsimp only
  rw [hi.1, hk]
  dsimp only
  rw [if_pos hg]
  rfl

theorem handlerBudgetExpiry_happens {s : State} {m' : Module} {cid ctx : Nat} (h : schedulerEvent (.handlerBudgetExpiry cid ctx) s.settled m') :
    Happens (.handlerBudgetExpiry cid ctx) s m' := by
  obtain ⟨key, d, w, hin, hi, hh, hc, rfl⟩ := h
  refine ctxEvent_happens (f := Module.handlerOut) hin ?_
  obtain ⟨k, hk⟩ := ctx_of_issuing hi
  unfold countedIn at hi hk hc
  unfold Module.handlerOut
  dsimp only
  rw [hi.1, hk]
  dsimp only
  exact if_pos (by rw [hh, decide_eq_true hc]; rfl)

theorem lateFaultDelivery_happens {s : State} {m' : Module} {cid ctx : Nat} (h : schedulerEvent (.lateFaultDelivery cid ctx) s.settled m') :
    Happens (.lateFaultDelivery cid ctx) s m' := by
  obtain ⟨key, d, hin, hl, hm⟩ := h
  refine ctxEvent_happens (f := fun m c key => if m.lateLast c ctx key then none else m.deliverLate c ctx key) hin ?_
  rw [hl]
  exact hm

/-! ## Stealing -/

theorem stealAttempt_happens {s : State} {m' : Module} {cid : Nat} (h : stealEvent (.stealAttempt cid) s.settled m') :
    Happens (.stealAttempt cid) s m' := by
  obtain ⟨hs, hb, hw, h⟩ := h
  refine (event_happens ?_ : execStealAttempt cid s = _)
  dsimp only
  rw [if_neg (by simp [hs, hb, hw])]
  rcases hv : s.settled.nextVictim cid 5 (s.settled.core cid).thief with ⟨_ | v, t⟩ <;> rewrite [hv] at h
  · exact congrArg some h.symm
  · exact h

theorem stealRoundRestart_happens {s : State} {m' : Module} {cid : Nat} (h : stealEvent (.stealRoundRestart cid) s.settled m') :
    Happens (.stealRoundRestart cid) s m' := by
  obtain ⟨hn, ht, rfl⟩ := h
  refine (event_happens ?_ : execStealRoundRestart cid s = _)
  dsimp only
  exact if_neg (by simp [hn, ht])

theorem stealRequest_happens {s : State} {m' : Module} {thief : Nat} (h : stealEvent (.stealRequest thief) s.settled m') :
    Happens (.stealRequest thief) s m' := by
  obtain ⟨b, hb, hs, hh, ha, ho, he, hf, rfl⟩ := h
  refine (event_happens ?_ : execStealRequest thief s = _)
  dsimp only
  rw [hb, Option.bind_some, if_neg (by simp [hs, hh, ho, he, hf, Option.isSome_iff_ne_none.mp ha])]
  simp only [apply_ite some, Bool.not_eq_true'] <;> rfl

theorem stealReply_happens {s : State} {m' : Module} {thief : Nat} (h : stealEvent (.stealReply thief) s.settled m') :
    Happens (.stealReply thief) s m' := by
  obtain ⟨b, hb, hs, hh, h⟩ := h
  refine (event_happens ?_ : execStealReply thief s = _)
  dsimp only at h ⊢
  rw [hb, Option.bind_some, if_neg (by simp [hs, hh])]
  cases hl : b.loot with
  | none =>
    rewrite [hl] at h
    exact congrArg some h.symm
  | some l =>
    rewrite [hl] at h
    cases l with
    | record bs =>
      dsimp only at h ⊢
      split at h
      next hw =>
        obtain ⟨hn, hf, rfl⟩ := h
        rw [if_pos (of_decide_eq_true hw)]
        exact if_pos (by simp [hn, hf])
      next hw =>
        obtain ⟨n, hn, rfl⟩ := h
        rw [if_neg (fun h => hw (decide_eq_true h)), hn]
        rfl
    | range e first count =>
      dsimp only at h ⊢
      split at h
      next ho => exact (if_pos ho).trans (congrArg some h.symm)
      next ho =>
        obtain ⟨hw, n, hn, rfl⟩ := h
        rw [if_neg ho, if_neg (of_decide_eq_false hw), hn]
        rfl

/-! ## The rows together -/

/-- Settles O55, row by row: what a row asks for makes its event answer the module that the row gives. -/
theorem coreEventsHappen : Obligations.CoreEventsHappen := by
  rintro i s m' (h | h | h)
  · have h' := h
    unfold waitEvent at h'
    split at h'
    · exact joinReread_happens h
    · exact waitExpiry_happens h
    · exact waitrsTimeout_happens h
    · exact barwRetry_happens h
    · exact neighbourWordArrival_happens h
    · exact registerBankIdle_happens h
    · exact groomerVisit_happens h
    · exact lmBankWakeComplete_happens h
    · exact vectorInstructionStart_happens h
    · exact vectorRetirement_happens h
    · exact vectorLateFault_happens h
    · exact icacheFill_happens h
    · exact h'.elim
  · have h' := h
    unfold schedulerEvent at h'
    split at h'
    · exact activationBinding_happens h
    · exact contextEntry_happens h
    · exact taskStart_happens h
    · exact workRangeStart_happens h
    · exact trapActivationCreation_happens h
    · exact deferredTrapEntry_happens h
    · exact displacement_happens h
    · exact aging_happens h
    · exact budgetExpiry_happens h
    · exact forcedSuspension_happens h
    · exact handlerBudgetExpiry_happens h
    · exact lateFaultDelivery_happens h
    · exact h'.elim
  · have h' := h
    unfold stealEvent at h'
    split at h'
    · exact stealAttempt_happens h
    · exact stealRoundRestart_happens h
    · exact stealRequest_happens h
    · exact stealReply_happens h
    · exact h'.elim

end Sys2Proof.Claims
end

section
/-!
PROOFS. The events of a home site (R173, R177, R182, R186, R216, R223, R227, R231, R316–R318, R357, R385–R387).
-/
namespace Sys2Proof.Claims
open Sys2Proof.Machine

theorem pktAt_of {m : Module} {k phase : Nat} {kind : PKind} {p : Packet} (h : PacketAt m k phase kind p) : m.pktAt k phase kind = some p := by
  obtain ⟨hp, hph, hk⟩ := h
  rw [Module.pktAt, hp]
  exact Option.filter_eq_some_iff.mpr ⟨rfl, by simp [hph, hk]⟩

theorem MM.home_run {α : Type} {f : Module → HomeRes α} {m m' : Module} {a : α} (h : f m = .ok a m') : MM.home f m = .ok (a, m') := by
  unfold MM.home
  rw [h]

/-! ## Requests -/

theorem serveRequest_eq (m : Module) (k : Nat) (p : Packet) : m.serveRequest k p (askedFor p) = answered m k p (served p m) := by
  show (match served p m with | .ok (v, m) => _ | .error (.fault f) => _ | .error (.ask c a) => _ | .error _ => _) = _
  rcases served p m with (e | ⟨v, n⟩)
  · cases e <;> rfl
  · rfl

theorem requestEvent_happens {s : State} {m' : Module} {k : Nat} {kind : PKind} {acc : Packet → Acc} {p : Packet}
    (h : PacketAt s.settled k 2 kind p) (hacc : acc p = askedFor p) (hm : m' = answered s.settled k p (served p s.settled)) :
    requestEvent kind acc k s = .next { s with m := m', open_ := none } := by
  refine event_happens ?_
  rw [pktAt_of h, Option.map_some, hacc, serveRequest_eq, hm]

theorem readRequest_happens {s : State} {m' : Module} {k : Nat} (h : homeEvent (.readRequest k) s.settled m') : Happens (.readRequest k) s m' := by
  obtain ⟨p, hp, hm⟩ := h
  exact requestEvent_happens hp (by rw [askedFor, hp.2.2]) hm

theorem checkRequest_happens {s : State} {m' : Module} {k : Nat} (h : homeEvent (.checkRequest k) s.settled m') : Happens (.checkRequest k) s m' := by
  obtain ⟨p, hp, hm⟩ := h
  exact requestEvent_happens (acc := fun x => if x.opc = 0 then .store else .atomic) hp (by rw [askedFor, hp.2.2]) hm

theorem atomicRequest_happens {s : State} {m' : Module} {k : Nat} (h : homeEvent (.atomicRequest k) s.settled m') : Happens (.atomicRequest k) s m' := by
  obtain ⟨p, hp, hm⟩ := h
  exact requestEvent_happens (acc := fun x => if x.xf = 6 then .store else .atomic) hp (by rw [askedFor, hp.2.2]) hm

theorem writeRequest_happens {s : State} {m' : Module} {late : Bool} {k : Nat} (h : homeEvent (.writeRequest late k) s.settled m') :
    Happens (.writeRequest late k) s m' := by
  cases late with
  | false =>
    obtain ⟨p, hp, hm⟩ := h
    exact requestEvent_happens (acc := fun _ => .store) hp (by rw [askedFor, hp.2.2]) hm
  | true =>
    obtain ⟨w, hk, hd, he, hr, hl, rfl⟩ := h
    refine (event_happens ?_ : event (fun m => (m.late[k]?).bind fun w => if m.lateDue k w then some (m.lateTurn k w) else none) s = _)
    rw [hk, Option.bind_some]
    refine if_pos ?_
    have hrec : (s.settled.recalls.any fun r => r.1 == lineOf w.loc) = false := List.any_eq_false.mpr fun r hm => by simpa using hr r hm
    have hlate : ((s.settled.late.take k).any fun e => e.cid == w.cid && e.aid == w.aid && lineOf e.loc == lineOf w.loc) = false :=
      List.any_eq_false.mpr fun e hm => by simpa using hl e hm
    rw [Module.lateDue, he, hrec, hlate]
    simpa using hd

theorem hostCxlMemAccess_happens {s : State} {m' : Module} {port o n value : Nat} {write : Bool}
    (h : homeEvent (.hostCxlMemAccess port o n write value) s.settled m') : Happens (.hostCxlMemAccess port o n write value) s m' := by
  obtain ⟨part, home, edge, v, hp, he, hpath, hh, hcxl, hsw, hn, hl, hlive, hv⟩ := h
  refine (event_happens ?_ : execHostCxlMemAccess port o n write value s = _)
  dsimp only
  rw [hp, Option.bind_some, hh, Option.bind_some, if_neg (by simp [hcxl, hlive, he, hpath]; omega)]
  unfold hostServed at hv
  rw [hv]

theorem tamvexPacket_happens {s : State} {m' : Module} {port : Nat} {w : WirePacket} (h : homeEvent (.tamvexPacket port w) s.settled m') :
    Happens (.tamvexPacket port w) s m' := by
  obtain ⟨edge, he, hen, hmod, hk, hsw, hs, rfl⟩ := h
  refine (event_happens ?_ : execTamvexPacket port w s = _)
  dsimp only
  rw [he]
  dsimp only
  rw [if_neg (by simp [hen, hmod, hs]; exact ⟨⟨⟨hen, hk⟩, Nat.le_of_lt_succ hsw⟩, hs⟩)]
  simp only [apply_ite some, Bool.and_eq_true, decide_eq_true_eq, Option.isNone_iff_eq_none]

/-! ## Translation -/

theorem pageTableWalk_happens {s : State} {m' : Module} {site va : Nat} (h : homeEvent (.pageTableWalk site va) s.settled m') :
    Happens (.pageTableWalk site va) s m' := by
  obtain ⟨e, b, ht, hl, hf, hw, rfl⟩ := h
  refine (event_happens ?_ : execPageTableWalk site va s = _)
  dsimp only
  rcases ht with ht | ht <;> rw [ht, hl, hf, hw]
  · exact if_neg (by simp)
  · exact if_neg (by simp)

theorem tlbiCompletion_happens {s : State} {m' : Module} {site : Nat} (h : homeEvent (.tlbiCompletion site) s.settled m') :
    Happens (.tlbiCompletion site) s m' := by
  obtain ⟨p, hp, hpin, rfl⟩ := h
  refine (event_happens ?_ : execTlbiCompletion site s = _)
  rw [hp, Option.bind_some, hpin]
  rfl

/-! ## Stash lines -/

theorem stashRecall_happens {s : State} {m' : Module} {cid line : Nat} {write : Bool} (h : homeEvent (.stashRecall cid line write) s.settled m') :
    Happens (.stashRecall cid line write) s m' := by
  obtain ⟨⟨x, hx⟩, hr, hb⟩ := h
  refine (event_happens ?_ : execStashRecall cid line write s = _)
  have hany : ((s.settled.core cid).ctxs.any fun e => e.2.resv.any fun r => r.line == line) = false :=
    List.any_eq_false.mpr fun e hm => by
      cases hv : e.2.resv with
      | none => simp
      | some r => simpa using hr e hm r hv
  rw [hx, Option.bind_some, hany, if_neg Bool.false_ne_true, hb]
  rfl

theorem stashWriteBack_happens {s : State} {m' : Module} {cid line : Nat} (h : homeEvent (.stashWriteBack cid line) s.settled m') :
    Happens (.stashWriteBack cid line) s m' := by
  refine (event_happens ?_ : execStashWriteBack cid line s = _)
  rcases h with ⟨hf, x, hx, hst, hb⟩ | ⟨k, aid, drop, n, hf, hn, rfl⟩
  · have hnone : s.settled.flushTurn cid line = none := by
      rw [Module.flushTurn, findIdx_none fun e hm => beq_eq_false_iff_ne.mpr (hf e hm)]
      rfl
    rw [hnone, hx, Option.bind_some, if_pos hst, hb]
    rfl
  · have hturn : s.settled.flushTurn cid line = some (n.onCore cid fun c => { c with flushes := dropAt c.flushes k }) := by
      rw [Module.flushTurn, hf, Option.map_some]
      dsimp only
      rw [hn]
    rw [hturn]
    rfl

theorem reservationRecallDeferral_happens {s : State} {m' : Module} {cid line : Nat}
    (h : homeEvent (.reservationRecallDeferral cid line) s.settled m') : Happens (.reservationRecallDeferral cid line) s m' := by
  refine (event_happens ?_ : execReservationRecallDeferral cid line s = _)
  rcases h with ⟨hr, ctx, super, done, n, hp, hl, hn, rfl⟩ | ⟨r, n, hr, hd, hb, rfl⟩
  · have hnone : (s.settled.recalls.find? fun r => r.1 == line && r.2.1 == cid) = none :=
      List.find?_eq_none.mpr fun r hm => by simpa using hr r hm
    have hturn : s.settled.prefTurn cid line = some m' := by
      have hany : ((m'.core cid).prefs.any fun p => p.1 == line) = false := List.any_eq_false.mpr fun p hm => by simpa using hn p hm
      rw [Module.prefTurn, hp, Option.bind_some]
      dsimp only at hl ⊢
      rw [hl]
      dsimp only
      rw [hany]
      rfl
    rw [hnone, hturn]
    rfl
  · rw [hr, Option.bind_some, hd, if_neg Bool.false_ne_true, hb]
    rfl

/-! ## The collective unit -/

theorem collectiveCombine_happens {s : State} {m' : Module} {site : Nat} (h : homeEvent (.collectiveCombine site) s.settled m') :
    Happens (.collectiveCombine site) s m' := by
  obtain ⟨k, b, v, n, hk, ha, rfl⟩ := h
  refine (event_happens ?_ : execCollectiveCombine site s = _)
  dsimp only
  rw [hk, Option.bind_some]
  dsimp only
  rw [ha]

theorem barrierCompletionMulticast_happens {s : State} {m' : Module} {site loc : Nat}
    (h : homeEvent (.barrierCompletionMulticast site loc) s.settled m') : Happens (.barrierCompletionMulticast site loc) s m' := by
  obtain ⟨hne, rfl⟩ := h
  refine (event_happens ?_ : execBarrierCompletionMulticast site loc s = _)
  dsimp only
  rw [List.partition_eq_filter_filter]
  dsimp only
  exact if_neg (by simpa using hne)

/-! ## Trap reports -/

theorem trapReport_happens {s : State} {m' : Module} {site : Nat} (h : homeEvent (.trapReport site) s.settled m') :
    Happens (.trapReport site) s m' := by
  obtain ⟨r, rest, hq, hn, rfl⟩ := h
  refine (event_happens ?_ : execTrapReport site s = _)
  dsimp only
  rw [hq]
  dsimp only
  refine (if_neg (by rw [Module.collOf]; omega)).trans ?_
  cases s.settled.trpStop true (siteX site) (siteY site) <;> rfl

/-- A record written to a ring whose page is mapped. -/
theorem ringWrite_ok {home va root pa : Nat} {m n o : Module} {t : Word} {bytes : List Byte}
    (hx : xlate home va (128 * root) .store true m = .ok ((t, pa), n)) (hw : engineWrite (dramLoc home pa) bytes n = .ok ((), o)) :
    (do let (_, pa) ← xlate home va (128 * root) .store true
        engineWrite (dramLoc home pa) bytes : MM Unit) m = .ok ((), o) :=
  (MM.bind_ok hx).trans hw

theorem collectorDelivery_happens {s : State} {m' : Module} {part collector : Nat} (h : homeEvent (.collectorDelivery part collector) s.settled m') :
    Happens (.collectorDelivery part collector) s m' := by
  obtain ⟨k, e, root, home, pa, n, t, o, hk, hroot, hen, hsw, hroom, hc, ht, hx, hw, hm⟩ := h
  refine (event_happens ?_ : execCollectorDelivery part collector s = _)
  dsimp only at hm ⊢
  rw [hk, hroot]
  dsimp only
  generalize e.2.encode = bytes at hw ⊢
  have hno : (!bit (s.settled.part part).pfsBase 63 || decide (2 ≤ (s.settled.part part).swSt) ||
      decide ((Tab.get 0 (s.settled.part part).pfsTail collector % 2 ^ pfsSize (s.settled.part part).pfsBase + 1) %
          2 ^ pfsSize (s.settled.part part).pfsBase =
        Tab.get 0 (s.settled.part part).pfsHead collector % 2 ^ pfsSize (s.settled.part part).pfsBase) || decide (9 ≤ collector)) = false := by
    rw [hen, decide_eq_false hroom, decide_eq_false (by omega), decide_eq_false (by omega)]
    rfl
  rw [hno, ht]
  refine (if_neg Bool.false_ne_true).trans ?_
  dsimp only
  rw [ringWrite_ok hx hw, hm]

theorem pendingByteDecrement_happens {s : State} {m' : Module} {tile q : Nat} (h : homeEvent (.pendingByteDecrement tile q) s.settled m') :
    Happens (.pendingByteDecrement tile q) s m' := by
  obtain ⟨c, n, loc, d, o, o', hc, hn, hb, hs, rfl⟩ := h
  refine (event_happens ?_ : execPendingByteDecrement tile q s = _)
  dsimp only
  rw [hc, Option.bind_some, hn, Option.bind_some]
  rw [MM.bind_ok hb]
  dsimp only
  rw [MM.home_run hs]

/-- Settles O57, row by row. -/
theorem homeEventsHappen : Obligations.HomeEventsHappen := by
  intro i s m' h
  have h' := h
  unfold homeEvent at h'
  dsimp only at h'
  split at h'
  · exact readRequest_happens h
  · exact checkRequest_happens h
  · exact atomicRequest_happens h
  · exact writeRequest_happens h
  · exact hostCxlMemAccess_happens h
  · exact tamvexPacket_happens h
  · exact pageTableWalk_happens h
  · exact tlbiCompletion_happens h
  · exact stashRecall_happens h
  · exact stashWriteBack_happens h
  · exact reservationRecallDeferral_happens h
  · exact collectiveCombine_happens h
  · exact barrierCompletionMulticast_happens h
  · exact trapReport_happens h
  · exact collectorDelivery_happens h
  · exact pendingByteDecrement_happens h
  · exact h'.elim

end Sys2Proof.Claims
end

section
/-!
PROOFS. The events of packets and streams (R25, R42, R59, R60, R66, R292–R301, R304–R308, R310, R312–R315).
-/
namespace Sys2Proof.Claims
open Sys2Proof.Machine

/-! ## On the way -/

theorem packetInjection_happens {s : State} {m' : Module} {k : Nat} (h : packetEvent (.packetInjection k) s.settled m') :
    Happens (.packetInjection k) s m' := by
  obtain ⟨p, hp, hph, hi⟩ := h
  refine (event_happens ?_ : execPacketInjection k s = _)
  rw [hp, Option.bind_some, if_pos hph, hi]

theorem forward_eq {m m' : Module} {k : Nat} {p : Packet} (h : if p.dests ≠ [] then m' = m.spread k p
       else
         match nextHop p.net p.here (if p.det then p.wpt else p.dsite) with
         | some (dir, next) =>
           if m.linkOff p.net p.here dir next = true then m' = m.lostPkt k p
           else (p.kind = .streamOpen → m.linkHeld (linkNo p.net p.here dir) = false) ∧
             m' = (m.holdLink k p (linkNo p.net p.here dir)).putPkt k { p with here := next, hops := min (p.hops + 1) 255 }
         | none =>
           if p.det = true then m' = m.putPkt k { p with det := false, net := false, switched := true }
           else if p.dmod = m.modnum.toNat then m' = m.putPkt k { p with phase := 2, due := m.time }
           else m' = match m.tvxPort p.dmod with
             | some o => { m.dropPkt k with outbox := m.outbox ++ [(o, p)] }
             | none => m.lostPkt k p) : m.forward k p = some m' := by
  unfold Module.forward
  split at h
  next hd => rw [h]; exact if_pos (by simpa using hd)
  next hd =>
    rw [if_neg (by simpa using hd)]
    cases hn : nextHop p.net p.here (if p.det then p.wpt else p.dsite) with
    | some e =>
      obtain ⟨dir, next⟩ := e
      rw [hn] at h
      dsimp only at h ⊢
      split at h
      next hl => rw [h]; exact if_pos hl
      next hl =>
        obtain ⟨hs, rfl⟩ := h
        rw [if_neg hl]
        refine if_neg fun hc => ?_
        rw [Bool.and_eq_true] at hc
        rw [hs (by simpa using hc.1)] at hc
        exact absurd hc.2 (by decide)
    | none =>
      rw [hn] at h
      dsimp only at h ⊢
      split at h
      next hd => rw [h, if_pos hd]
      next hd =>
        rw [if_neg hd]
        split at h
        next hm => rw [h, if_neg (not_not_intro hm)]
        next hm => rw [if_pos hm]; exact congrArg some h.symm

theorem routerForward_happens {s : State} {m' : Module} {k : Nat} (h : packetEvent (.routerForward k) s.settled m') :
    Happens (.routerForward k) s m' := by
  obtain ⟨p, hp, hph, ho, h⟩ := h
  refine (event_happens ?_ : execRouterForward k s = _)
  rw [hp, Option.bind_some, if_pos (by simp [hph, ho])]
  exact forward_eq h

/-! ## Answers and resends -/

theorem retryReply_happens {s : State} {m' : Module} {k : Nat} (h : packetEvent (.retryReply k) s.settled m') :
    Happens (.retryReply k) s m' := by
  refine (event_happens ?_ : execRetryReply k s = _)
  dsimp only
  rcases h with ⟨p, hp, hph, hmc, rfl⟩ | ⟨p, r, ⟨hp, hph, hk⟩, hr, rfl⟩
  · rw [hp, Option.bind_some, if_pos (by simp [hph, hmc])]
    refine congrArg some (if_congr ?_ rfl rfl)
    simp [and_assoc]
  · rw [hp, Option.bind_some, if_neg (by simp [hph]), if_pos (by simp [hph, hk]), hr]
    rfl

theorem nack_happens {s : State} {m' : Module} {k : Nat} (h : packetEvent (.nack k) s.settled m') : Happens (.nack k) s m' := by
  obtain ⟨p, hp, hmc, rfl⟩ := h
  refine (event_happens ?_ : execNack k s = _)
  rw [pktAt_of hp, Option.bind_some, if_pos hmc]
  rfl

theorem resend_of {m m' : Module} {k : Nat} {p : Packet} (hd : p.due ≤ m.time) (hs : m.ownPkt p = true → (m.partOf p.ssite).swSt = 0)
    (hi : m.inject k { p with resend := true } = some m') : m.resend k p = some m' := by
  unfold Module.resend
  rw [if_neg, hi]
  simp only [Bool.or_eq_true, Bool.and_eq_true, decide_eq_true_eq]
  rintro (h | ⟨ho, h⟩)
  · omega
  · exact h (hs ho)

theorem retryResend_happens {s : State} {m' : Module} {k : Nat} (h : packetEvent (.retryResend k) s.settled m') :
    Happens (.retryResend k) s m' := by
  obtain ⟨p, hp, hph, hmc, hk, hd, hs, hi⟩ := h
  refine (event_happens ?_ : execRetryResend k s = _)
  rw [hp, Option.bind_some, if_pos (by simp [hph, hmc, hk]), resend_of hd hs hi]

theorem multicastResend_happens {s : State} {m' : Module} {k : Nat} (h : packetEvent (.multicastResend k) s.settled m') :
    Happens (.multicastResend k) s m' := by
  obtain ⟨p, hp, hph, hmc, hd, hs, hi⟩ := h
  refine (event_happens ?_ : execMulticastResend k s = _)
  rw [hp, Option.bind_some, if_pos (by simp [hph, hmc]), resend_of hd hs hi]

theorem migrationResend_happens {s : State} {m' : Module} {cid key : Nat} (h : packetEvent (.migrationResend cid key) s.settled m') :
    Happens (.migrationResend cid key) s m' := by
  obtain ⟨k, p, hm, hp, hd, hs, hi⟩ := h
  refine (event_happens ?_ : execMigrationResend cid key s = _)
  rw [hm, Option.bind_some, pktAt_of hp, Option.bind_some, resend_of hd hs hi]

theorem reply_happens {s : State} {m' : Module} {k : Nat} (h : packetEvent (.reply k) s.settled m') : Happens (.reply k) s m' := by
  obtain ⟨p, hp, h⟩ := h
  refine (event_happens ?_ : execReply k s = _)
  dsimp only at h ⊢
  rw [pktAt_of hp, Option.map_some]
  refine congrArg some ?_
  split at h
  next hn => rw [hn, h]
  next r hr =>
    rw [hr]
    dsimp only
    split at h
    next ha => rw [h, if_pos ha]
    next ha =>
      rw [if_neg ha]
      split at h
      next hk =>
        rewrite [if_pos (beq_iff_eq.mpr hk), h]
        rfl
      next hk => rw [if_neg (fun h => hk (beq_iff_eq.mp h)), h]

theorem replySlotTimeout_happens {s : State} {m' : Module} {cid slot : Nat} (h : packetEvent (.replySlotTimeout cid slot) s.settled m') :
    Happens (.replySlotTimeout cid slot) s m' := by
  obtain ⟨r, hr, ha, ht, hq, rfl⟩ := h
  refine (event_happens ?_ : execReplySlotTimeout cid slot s = _)
  dsimp only at hq ⊢
  rw [hr, Option.bind_some, if_neg]
  · simp only [beq_iff_eq] <;> rfl
  · have hany : (s.settled.pkts.any fun e => (e.2.src == cid && e.2.slot == slot && e.2.seq == r.req.seq && e.2.kind == r.req.kind) &&
        (e.2.phase == 0 || e.2.phase == 3)) = false := List.any_eq_false.mpr fun e he hc => by
      obtain ⟨hm, hp⟩ := Bool.and_eq_true_iff.mp hc
      obtain ⟨h0, h3⟩ := hq e he hm
      simp [h0, h3] at hp
    rw [hany, ha]
    simp
    omega

/-! ## Arrivals -/

theorem arrives_of {m : Module} {k : Nat} {kind : PKind} {p : Packet} (h : Ejected m k kind p) : m.arrives k kind = some p := by
  obtain ⟨hp, hh, ho⟩ := h
  rw [Module.arrives, pktAt_of hp]
  exact Option.filter_eq_some_iff.mpr ⟨rfl, by rw [hh, ho]; rfl⟩

theorem accepted_eq_true {m : Module} {p : Packet} (h : ¬ accepted m p = false) : m.handleHolds p = true ∧ m.keyHolds p = true := by
  rwa [Bool.not_eq_false, accepted, Bool.and_eq_true] at h

/-- A packet whose handle or key does not hold. -/
theorem diverted_eq {m : Module} {p : Packet} {α : Type} (h : accepted m p = false) (x y z : α) :
    (if (!m.handleHolds p) = true then x else if (!m.keyHolds p) = true then y else z) = if m.handleHolds p = true then y else x := by
  rw [accepted] at h
  cases hh : m.handleHolds p with
  | false => rfl
  | true =>
    rw [hh, Bool.true_and] at h
    rw [h]
    rfl

theorem takeMessage_eq {m m' : Module} {k : Nat} {p : Packet} (h : packetEvent.messageTaken m k p m') : m.takeMessage k p = m' := by
  unfold packetEvent.messageTaken at h
  unfold Module.takeMessage
  split at h
  next hv => rw [h]; exact if_pos (by simpa [and_assoc] using hv)
  next hv =>
    rw [if_neg (by simpa [and_assoc] using hv)]
    split at h
    next ha => rw [diverted_eq ha, h]; rfl
    next ha =>
      obtain ⟨hh, hk⟩ := accepted_eq_true ha
      refine (if_neg (by rw [hh]; decide)).trans ((if_neg (by rw [hk]; decide)).trans ?_)
      split at h
      next hb => rw [h]; exact if_pos (by rw [hb]; rfl)
      next hb =>
        rw [if_neg (by simpa using hb)]
        dsimp only at h ⊢
        cases hw : m.handlerAt p with
        | error c =>
          rewrite [hw] at h
          exact h.symm
        | ok w =>
          rewrite [hw] at h
          dsimp only at h ⊢
          split at h
          next hq => rw [h, if_pos hq]
          next hq => rw [h, if_neg hq]

theorem activeMessage_happens {s : State} {m' : Module} {k : Nat} (h : packetEvent (.activeMessage k) s.settled m') :
    Happens (.activeMessage k) s m' := by
  obtain ⟨p, hp, hmc, ho, h⟩ := h
  refine (event_happens ?_ : execActiveMessage k s = _)
  rw [arrives_of hp, Option.bind_some, if_neg (by simp [hmc, ho]), takeMessage_eq h]

theorem multicastCopy_happens {s : State} {m' : Module} {k : Nat} (h : packetEvent (.multicastCopy k) s.settled m') :
    Happens (.multicastCopy k) s m' := by
  obtain ⟨p, hp, hmc, h⟩ := h
  refine (event_happens ?_ : execMulticastCopy k s = _)
  rw [arrives_of hp, Option.bind_some, if_pos hmc, takeMessage_eq h]

theorem handlerCreation_happens {s : State} {m' : Module} {cid : Nat} (h : packetEvent (.handlerCreation cid) s.settled m') :
    Happens (.handlerCreation cid) s m' := by
  refine (event_happens ?_ : execHandlerCreation cid s = _)
  rcases h with ⟨p, rest, c, k, hst, hq, ha, hf, rfl⟩ | ⟨p, rest, pc, k, hst, hq, ha, hf, rfl⟩ <;>
    rw [if_pos hst, Module.startHandler, hq] <;> dsimp only <;> rw [ha] <;> dsimp only <;> rw [hf]
  · rfl
  · simp only [decide_eq_true_eq]

theorem sendxLanding_happens {s : State} {m' : Module} {k : Nat} (h : packetEvent (.sendxLanding k) s.settled m') :
    Happens (.sendxLanding k) s m' := by
  obtain ⟨p, hp, hmc, ho, h⟩ := h
  refine (event_happens ?_ : execSendxLanding k s = _)
  rw [arrives_of hp, Option.bind_some, if_neg (by simp [hmc, ho])]
  split at h
  next ha => rw [diverted_eq ha, h, diverted]; split <;> rfl
  next ha =>
    obtain ⟨hh, hk⟩ := accepted_eq_true ha
    refine (if_neg (by rw [hh]; decide)).trans ((if_neg (by rw [hk]; decide)).trans ?_)
    split at h
    next hb => rw [h]; exact if_pos (by rw [hb]; rfl)
    next hb =>
      obtain ⟨r, hr, h⟩ := h
      rw [if_neg (by simpa using hb), hr, Option.map_some]
      refine congrArg some ?_
      split at h <;> rw [h]

theorem wakeUpArrival_happens {s : State} {m' : Module} {k : Nat} (h : packetEvent (.wakeUpArrival k) s.settled m') :
    Happens (.wakeUpArrival k) s m' := by
  obtain ⟨p, hp, h⟩ := h
  refine (event_happens ?_ : execWakeUpArrival k s = _)
  dsimp only at h ⊢
  rw [arrives_of hp, Option.map_some]
  refine congrArg some ?_
  simp only [Bool.not_eq_true', Bool.not_eq_true] at h ⊢
  split at h
  next hh => rw [h, if_pos hh]
  next hh =>
    rw [if_neg hh]
    split at h
    next hk => rw [h, if_pos hk]
    next hk =>
      rw [if_neg hk, h]
      exact if_congr (by rw [Bool.and_eq_true, List.isEmpty_iff]) rfl rfl

theorem wakeUpHeldPush_happens {s : State} {m' : Module} {cid : Nat} (h : packetEvent (.wakeUpHeldPush cid) s.settled m') :
    Happens (.wakeUpHeldPush cid) s m' := by
  obtain ⟨p, rest, hh, hr, rfl⟩ := h
  refine (event_happens ?_ : execWakeUpHeldPush cid s = _)
  dsimp only
  rw [hh]
  exact if_pos hr

theorem migrationPacket_happens {s : State} {m' : Module} {k : Nat} (h : packetEvent (.migrationPacket k) s.settled m') :
    Happens (.migrationPacket k) s m' := by
  obtain ⟨p, hp, h⟩ := h
  refine (event_happens ?_ : execMigrationPacket k s = _)
  dsimp only
  rw [arrives_of hp, Option.map_some]
  refine congrArg some ?_
  split at h
  next ha => rw [diverted_eq ha, h]
  next ha =>
    obtain ⟨hh, hk⟩ := accepted_eq_true ha
    refine (if_neg (by rw [hh]; decide)).trans ((if_neg (by rw [hk]; decide)).trans ?_)
    cases hc : s.settled.create p.dst (migBirth p.payload) with
    | none =>
      rewrite [hc] at h
      exact h.symm
    | some j =>
      rewrite [hc] at h
      exact h.symm

/-! ## Streams -/

theorem streamOpen_happens {s : State} {m' : Module} {k : Nat} (h : streamEvent (.streamOpen k) s.settled m') : Happens (.streamOpen k) s m' := by
  obtain ⟨p, hp, h⟩ := h
  refine (event_happens ?_ : execStreamOpen k s = _)
  dsimp only at h ⊢
  rw [arrives_of hp, Option.map_some]
  refine congrArg some ?_
  simp only [Bool.not_eq_true', Bool.not_eq_true] at h ⊢
  split at h
  next hh => rw [h, if_pos hh]
  next hh =>
    rw [if_neg hh, h]
    exact if_congr Option.isNone_iff_eq_none rfl rfl

theorem streamAttach_happens {s : State} {m' : Module} {cid k : Nat} (h : streamEvent (.streamAttach cid k) s.settled m') :
    Happens (.streamAttach cid k) s m' := by
  obtain ⟨r, b, j, p, hr, hb, hsend, hsrc, hc, hbr, hf, rfl⟩ := h
  refine (event_happens ?_ : execStreamAttach cid k s = _)
  dsimp only
  rw [hr, Option.bind_some, hb, hsend]
  dsimp only
  rw [if_neg]
  simp only [hsrc, hc, hbr, Option.isSome_none, Bool.or_false, Bool.false_or, Bool.not_eq_true', Bool.or_eq_false_iff, decide_eq_false_iff_not]
  exact fun h => hf.elim h.1 h.2

theorem streamFlitSend_happens {s : State} {m' : Module} {cid k : Nat} (h : streamEvent (.streamFlitSend cid k) s.settled m') :
    Happens (.streamFlitSend cid k) s m' := by
  obtain ⟨p, hp, hr, h⟩ := h
  refine (event_happens ?_ : execStreamFlitSend cid k s = _)
  dsimp only at h ⊢
  rw [hp, Option.bind_some, if_neg (not_not_intro hr)]
  split at h
  next hw =>
    obtain ⟨hc, rfl⟩ := h
    rw [hw, hc]
    rfl
  next hw =>
    obtain ⟨hc, rfl⟩ := h
    rw [if_neg (fun h => hw (List.isEmpty_iff.mp h))]
    exact if_pos (by simpa [or_assoc] using hc)

theorem streamDataArrival_happens {s : State} {m' : Module} {k : Nat} (h : streamEvent (.streamDataArrival k) s.settled m') :
    Happens (.streamDataArrival k) s m' := by
  obtain ⟨f, r, hf, hr, hs, rfl⟩ := h
  refine (event_happens ?_ : execStreamDataArrival k s = _)
  dsimp only
  rw [hf, Option.map_some]
  have hr' : Tab.find (({ s.settled with flits := dropAt s.settled.flits k } : Module).core f.dcid).ports.recv f.n = some r := hr
  refine congrArg some ?_
  rw [hr']
  exact if_pos hs

theorem streamClose_happens {s : State} {m' : Module} {k : Nat} (h : streamEvent (.streamClose k) s.settled m') :
    Happens (.streamClose k) s m' := by
  obtain ⟨f, r, hf, hr, hs, rfl⟩ := h
  refine (event_happens ?_ : execStreamClose k s = _)
  dsimp only
  rw [hf, Option.map_some]
  have hr' : Tab.find (({ s.settled with flits := dropAt s.settled.flits k } : Module).core f.dcid).ports.recv f.n = some r := hr
  refine congrArg some ?_
  rw [hr']
  exact if_pos hs

theorem streamCredit_happens {s : State} {m' : Module} {k : Nat} (h : streamEvent (.streamCredit k) s.settled m') :
    Happens (.streamCredit k) s m' := by
  obtain ⟨sc, si, n, hc, rfl⟩ := h
  refine (event_happens ?_ : execStreamCredit k s = _)
  dsimp only
  rw [hc]
  rfl

theorem streamIdleBreak_happens {s : State} {m' : Module} {cid k : Nat} (h : streamEvent (.streamIdleBreak cid k) s.settled m') :
    Happens (.streamIdleBreak cid k) s m' := by
  obtain ⟨p, hp, hr, ht, hl, rfl⟩ := h
  refine (event_happens ?_ : execStreamIdleBreak cid k s = _)
  dsimp only
  rw [hp, Option.bind_some]
  have hlast : (match Tab.find (s.settled.core p.dcid).ports.recv p.n with
      | some r => if r.src = some (cid, p.sid) then max p.idle r.last else p.idle
      | none => p.idle) + 2 ^ 16 ≤ s.settled.time := by
    cases hf : Tab.find (s.settled.core p.dcid).ports.recv p.n with
    | none => exact ht
    | some r =>
      dsimp only
      split
      next hs => exact (Nat.add_max_add_right ..).symm ▸ max_le ht (hl r hf hs)
      next => exact ht
  rw [if_neg]
  rcases hr with hr | hr
  · simp [hr]
    exact hlast
  · simp [hr]
    exact hlast

/-- Settles O58, row by row. -/
theorem networkEventsHappen : Obligations.NetworkEventsHappen := by
  rintro i s m' (h | h)
  · have h' := h
    unfold packetEvent at h'
    split at h'
    · exact packetInjection_happens h
    · exact routerForward_happens h
    · exact retryReply_happens h
    · exact nack_happens h
    · exact retryResend_happens h
    · exact multicastResend_happens h
    · exact migrationResend_happens h
    · exact reply_happens h
    · exact replySlotTimeout_happens h
    · exact activeMessage_happens h
    · exact multicastCopy_happens h
    · exact handlerCreation_happens h
    · exact sendxLanding_happens h
    · exact wakeUpArrival_happens h
    · exact wakeUpHeldPush_happens h
    · exact migrationPacket_happens h
    · exact h'.elim
  · have h' := h
    unfold streamEvent at h'
    split at h'
    · exact streamOpen_happens h
    · exact streamAttach_happens h
    · exact streamFlitSend_happens h
    · exact streamDataArrival_happens h
    · exact streamClose_happens h
    · exact streamCredit_happens h
    · exact streamIdleBreak_happens h
    · exact h'.elim

end Sys2Proof.Claims
end

section
/-!
PROOFS. The events of the matrix units and copy engines (R240, R246–R266, R271–R279, R286, R331, R361, R392, R465).
-/
namespace Sys2Proof.Claims
open Sys2Proof.Machine

/-! ## Words that a read of the matrix unit finds (R263) -/

theorem marksRead_congr {m : Module} {tile : Nat} {ks ls : List Nat}
    (h : ∀ k ∈ (m.tile tile).hit, ks.contains k = ls.contains k) : m.marksRead tile ks = m.marksRead tile ls := by
  have hf : (m.tile tile).hit.filter ks.contains = (m.tile tile).hit.filter ls.contains := List.filter_congr h
  have hn : ((m.tile tile).hit.filter fun k => !ks.contains k) = (m.tile tile).hit.filter fun k => !ls.contains k :=
    List.filter_congr fun k hk => by rw [h k hk]
  unfold Module.marksRead Module.onTile
  dsimp only
  rw [hf, hn]

/-- A read of correctable words marks them, by any list of their keys. -/
theorem mxWords_ok {m : Module} {tile : Nat} {key : Nat → Bool} {ws : List Nat} (hw : ∀ k, key k = ws.contains k)
    (hb : (m.tile tile).bad.any ws.contains = false) : mxWords tile key m = .ok ((), m.marksRead tile ws) := by
  obtain rfl : key = ws.contains := funext hw
  have hr : m.marksRead tile (((m.tile tile).bad ++ (m.tile tile).hit).filter ws.contains) = m.marksRead tile ws := by
    refine marksRead_congr fun k hk => Bool.eq_iff_iff.mpr ?_
    simp [hk]
  refine (MM.bind_ok (rfl : (get : MM Module) m = _)).trans ?_
  rw [if_neg (by rw [hb]; decide)]
  exact congrArg (fun n => Except.ok ((), n)) hr

/-! ## Starts -/

theorem matrixCommandStart_happens {s : State} {m' : Module} {tile k : Nat}
    (h : matrixEvent (.matrixCommandStart tile k) s.settled m') : Happens (.matrixCommandStart tile k) s m' := by
  refine (event_happens ?_ : execMatrixCommandStart tile k s = _)
  dsimp only
  rcases h with ⟨c, hc, hs, hf, hx, rfl⟩ | ⟨c, ⟨hc, hs, hf, hx, ht, hb⟩, h⟩
  · rw [hc, Option.bind_some, if_neg (by simp [hs, hf]), if_pos hx]
  · rw [hc, Option.bind_some, if_neg (by simp [hs, hf]), if_neg (by simp [hx]), if_neg (by
      simp only [Bool.or_eq_true, decide_eq_true_eq, Bool.not_eq_true', Bool.or_eq_false_iff]
      rintro (h | ⟨h₁, h₂⟩)
      · omega
      · simp [h₁, h₂] at hb)]
    dsimp only at h
    split at h
    next hbad => rw [if_pos hbad, h]
    next hbad =>
      rw [if_neg hbad]
      cases hop : c.op with
      | ld =>
        rw [hop] at h
        obtain ⟨l, o, hi, rfl⟩ := h
        dsimp only
        rw [hi]
        rfl
      | mma => rw [hop] at h; rw [h]
      | zero => rw [hop] at h; rw [h]
      | drn => rw [hop] at h; rw [h]
      | rot r => rw [hop] at h; rw [h]
      | gang g => rw [hop] at h; rw [h]

/-! ## Latches -/

theorem latchSwap_happens {s : State} {m' : Module} {tile k : Nat} (h : matrixEvent (.latchSwap tile k) s.settled m') :
    Happens (.latchSwap tile k) s m' := by
  obtain ⟨c, l, hc, hf, hop, ht, hb, hl, rfl⟩ := h
  refine (event_happens ?_ : execLatchSwap tile k s = _)
  dsimp only
  rw [hc, Option.bind_some, if_neg (by simp [hop, hf, hb]; omega), hl]
  rfl

theorem runs_all_of {m : Module} {tile : Nat} {op : MxOp} {l : List Nat} (h : ∀ j ∈ l, ∃ d, RunsMx m tile j d ∧ d.op = op) :
    (l.all fun k => ((m.tile tile).mxRun k).any (·.op == op)) = true := by
  refine List.all_eq_true.mpr fun j hj => ?_
  obtain ⟨d, hd, hop⟩ := h j hj
  rw [show (m.tile tile).mxRun j = some d from hd]
  simp [hop]

theorem mxrotRendezvous_happens {s : State} {m' : Module} {tile k : Nat} (h : matrixEvent (.mxrotRendezvous tile k) s.settled m') :
    Happens (.mxrotRendezvous tile k) s m' := by
  obtain ⟨c, ring, hc, hf, hop, hr, ha, rfl⟩ := h
  refine (event_happens ?_ : execMxrotRendezvous tile k s = _)
  dsimp only
  rw [hc, Option.bind_some, hop]
  dsimp only
  rw [if_neg, if_pos (runs_all_of ha)]
  simp only [hf, Bool.false_or, List.any_eq_true, not_exists, not_and]
  intro x hx hin
  exact hr x hx (by simpa using hin)

theorem latchRotationSwap_happens {s : State} {m' : Module} {tile : Nat} (h : matrixEvent (.latchRotationSwap tile) s.settled m') :
    Happens (.latchRotationSwap tile) s m' := by
  obtain ⟨k, base, r, at_, hi, hb, hf, rfl⟩ := h
  refine (event_happens ?_ : execLatchRotationSwap tile s = _)
  dsimp only
  rw [hi]
  dsimp only
  rw [if_neg (by simp [hb, hf])]
  simp only [allDone, Bool.and_eq_true, decide_eq_true_eq] <;> rfl

/-! ## Gangs -/

theorem gangFormation_happens {s : State} {m' : Module} {tile k : Nat} (h : matrixEvent (.gangFormation tile k) s.settled m') :
    Happens (.gangFormation tile k) s m' := by
  obtain ⟨c, g, hc, hf, hop, ha, rfl⟩ := h
  refine (event_happens ?_ : execGangFormation tile k s = _)
  dsimp only
  rw [hc, Option.bind_some, hop]
  dsimp only
  rw [if_neg]
  · rfl
  · rw [runs_all_of fun j hj => (ha j hj).1]
    simp only [hf, Bool.not_true, Bool.or_false, Bool.false_or, List.any_eq_true, not_exists, not_and]
    exact fun j hj => by simp [(ha j hj).2]

/-! ## Steps -/

theorem matrixStepGrant_happens {s : State} {m' : Module} {tile : Nat} (h : matrixEvent (.matrixStepGrant tile) s.settled m') :
    Happens (.matrixStepGrant tile) s m' := by
  obtain ⟨hf, hb, h⟩ := h
  refine (event_happens ?_ : execMatrixStepGrant tile s = _)
  dsimp only
  rw [if_neg (by simp [hf, hb])]
  split at h
  next hc => rw [if_pos (by simpa using hc), h]
  next hc =>
    rw [if_neg (by simpa using hc)]
    obtain ⟨lead, size, t, c, hg, hr, ⟨st, n, hst, rfl⟩ | ⟨f, hst, rfl⟩⟩ := h
    · rw [hg, Option.bind_some]
      dsimp only
      rw [hr, Option.bind_some, hst]
    · rw [hg, Option.bind_some]
      dsimp only
      rw [hr, Option.bind_some, hst]

theorem matrixStepEffect_happens {s : State} {m' : Module} {tile : Nat} (h : matrixEvent (.matrixStepEffect tile) s.settled m') :
    Happens (.matrixStepEffect tile) s m' := by
  obtain ⟨st, rest, hs, ht, rfl⟩ := h
  refine (event_happens ?_ : execMatrixStepEffect tile s = _)
  unfold Module.stepEffect
  rw [hs]
  dsimp only
  rw [if_neg (by omega)]
  have hend : ∀ c : MxCmd, (c.op == .mma && c.dead.isNone && c.pos == c.steps && !rest.any (·.slot == st.slot)) = true ↔
      c.op = .mma ∧ c.dead = none ∧ c.pos = c.steps ∧ rest.any (·.slot == st.slot) = false := fun c => by
    simp [and_assoc, Option.isNone_iff_eq_none]
  simp only [hend] <;> rfl

theorem matrixLateFault_happens {s : State} {m' : Module} {tile k : Nat} (h : matrixEvent (.matrixLateFault tile k) s.settled m') :
    Happens (.matrixLateFault tile k) s m' := by
  obtain ⟨c, x, a, hc, hd, hs, rfl⟩ := h
  refine (event_happens ?_ : execMatrixLateFault tile k s = _)
  rw [hc, Option.bind_some, hd]
  exact if_neg (by simp [hs])

theorem mxzeroCompletion_happens {s : State} {m' : Module} {tile k : Nat} (h : matrixEvent (.mxzeroCompletion tile k) s.settled m') :
    Happens (.mxzeroCompletion tile k) s m' := by
  obtain ⟨c, hc, hf, hop, ht, rfl⟩ := h
  refine (event_happens ?_ : execMxzeroCompletion tile k s = _)
  rw [hc, Option.bind_some, if_neg (by simp [hop, hf]; omega)]

/-! ## Drains -/

theorem matrixDrainSegment_happens {s : State} {m' : Module} {tile k : Nat}
    (h : matrixEvent (.matrixDrainSegment tile k) s.settled m') : Happens (.matrixDrainSegment tile k) s m' := by
  obtain ⟨c, n, u, hc, hop, hf, hp, hb, hd, rfl⟩ := h
  refine (event_happens ?_ : execMatrixDrainSegment tile k s = _)
  dsimp only
  rw [hc, Option.bind_some]
  rw [if_neg (by simp [hop, hf]; omega), (MM.bind_ok (mxWords_ok (fun key => ?_) hb)).trans hd]
  rw [Bool.eq_iff_iff]
  simp

theorem drainCompletion_happens {s : State} {m' : Module} {tile k : Nat} (h : matrixEvent (.drainCompletion tile k) s.settled m') :
    Happens (.drainCompletion tile k) s m' := by
  obtain ⟨c, hc, hf, hop, h⟩ := h
  refine (event_happens ?_ : execDrainCompletion tile k s = _)
  dsimp only
  rw [hc, Option.bind_some]
  rcases h with ⟨hp, n, u, hd, rfl⟩ | ⟨hp, hw, rfl⟩
  · rw [if_neg (by simp [hop, hf, hp]), if_pos hp, hd]
    dsimp only
    cases hwk : (mxDst c.p c.q).wk <;> rfl
  · rw [if_neg (by simp [hop, hf]; omega), if_neg (by omega), if_pos hw]

/-! ## Copies -/

theorem copyCommandStart_happens {s : State} {m' : Module} {tile q : Nat} (h : copyEvent (.copyCommandStart tile q) s.settled m') :
    Happens (.copyCommandStart tile q) s m' := by
  obtain ⟨c, hc, hs, hf, h⟩ := h
  refine (event_happens ?_ : execCopyCommandStart tile q s = _)
  dsimp only
  rw [hc, Option.bind_some, if_neg (by simp [hs, hf])]
  split at h
  next hx =>
    rewrite [if_pos hx, h]
    rfl
  next hx =>
    obtain ⟨hd, hr, rfl⟩ := h
    rw [if_neg hx, if_neg (by simp [hr]; omega)]

theorem cpyxPinning_happens {s : State} {m' : Module} {tile q : Nat} (h : copyEvent (.cpyxPinning tile q) s.settled m') :
    Happens (.cpyxPinning tile q) s m' := by
  obtain ⟨c, c', n, ha, rfl⟩ := h
  refine (event_happens ?_ : execCpyxPinning tile q s = _)
  rw [ha, Option.bind_some]

theorem copyPiece_happens {s : State} {m' : Module} {tile q : Nat} (h : copyEvent (.copyPiece tile q) s.settled m') :
    Happens (.copyPiece tile q) s m' := by
  obtain ⟨c, c', n, ha, rfl⟩ := h
  refine (event_happens ?_ : execCopyPiece tile q s = _)
  rw [ha, Option.bind_some]

theorem copyStall_happens {s : State} {m' : Module} {tile q : Nat} (h : copyEvent (.copyStall tile q) s.settled m') :
    Happens (.copyStall tile q) s m' := by
  obtain ⟨c, c', n, ha, rfl⟩ := h
  refine (event_happens ?_ : execCopyStall tile q s = _)
  rw [ha, Option.bind_some]

theorem copyLateFault_happens {s : State} {m' : Module} {tile q : Nat} (h : copyEvent (.copyLateFault tile q) s.settled m') :
    Happens (.copyLateFault tile q) s m' := by
  obtain ⟨c, x, a, n, ha, rfl⟩ := h
  refine (event_happens ?_ : execCopyLateFault tile q s = _)
  rw [ha, Option.bind_some]

theorem dtldTableChange_happens {s : State} {m' : Module} {tile q : Nat} (h : copyEvent (.dtldTableChange tile q) s.settled m') :
    Happens (.dtldTableChange tile q) s m' := by
  obtain ⟨c, hc, hop, hm, hp, hu, rfl⟩ := h
  refine (event_happens ?_ : execDtldTableChange tile q s = _)
  rw [hc, Option.bind_some, if_neg (by simp only [hop, hm, hp, hu]; decide)]

theorem copyCommandCompletion_happens {s : State} {m' : Module} {tile q : Nat}
    (h : copyEvent (.copyCommandCompletion tile q) s.settled m') : Happens (.copyCommandCompletion tile q) s m' := by
  obtain ⟨c, hc, hst, hr, rfl⟩ := h
  refine (event_happens ?_ : execCopyCommandCompletion tile q s = _)
  dsimp only
  have hready : (if c.op = .dtld then c.pinned else c.moved && (decide (c.op ≠ .cpyx) || c.pinned) &&
      (decide (c.d.bar = 0#64) || decide (c.off ≤ c.dec))) = true := by
    split at hr
    next hop => rw [if_pos hop, hr]
    next hop =>
      obtain ⟨hmv, hx, hd⟩ := hr
      rw [if_neg hop, hmv, Bool.true_and, Bool.and_eq_true, Bool.or_eq_true, Bool.or_eq_true]
      simp only [decide_eq_true_eq]
      exact ⟨or_iff_not_imp_left.mpr fun hn => hx (not_not.mp hn), hd⟩
  rw [hc, Option.bind_some, if_neg (by rw [hready, hst]; decide)]
  refine congrArg some ?_
  cases c.node with
  | none => rfl
  | some e =>
    obtain ⟨p, l, k⟩ := e
    refine if_congr ?_ rfl rfl
    simp

/-- Settles O59, row by row. -/
theorem engineEventsHappen : Obligations.EngineEventsHappen := by
  rintro i s m' (h | h)
  · have h' := h
    unfold matrixEvent at h'
    split at h'
    · exact matrixCommandStart_happens h
    · exact latchSwap_happens h
    · exact mxrotRendezvous_happens h
    · exact latchRotationSwap_happens h
    · exact gangFormation_happens h
    · exact matrixStepGrant_happens h
    · exact matrixStepEffect_happens h
    · exact matrixLateFault_happens h
    · exact mxzeroCompletion_happens h
    · exact matrixDrainSegment_happens h
    · exact drainCompletion_happens h
    · exact h'.elim
  · have h' := h
    unfold copyEvent at h'
    split at h'
    · exact copyCommandStart_happens h
    · exact cpyxPinning_happens h
    · exact copyPiece_happens h
    · exact copyStall_happens h
    · exact copyLateFault_happens h
    · exact dtldTableChange_happens h
    · exact copyCommandCompletion_happens h
    · exact h'.elim

end Sys2Proof.Claims
end

section
/-!
PROOFS. The events of graphs (R321–R341).
-/
namespace Sys2Proof.Claims
open Sys2Proof.Machine

/-! ## Launches -/

theorem serves_of {m : Module} {port p : Nat} (hv : bit (m.part p).pcie 15 = true) (hp : bits (m.part p).pcie 3 0 = port) :
    m.serves port p = true := by
  unfold Module.serves
  simp [hv, hp]

theorem doorbell_happens {s : State} {m' : Module} {at_ : BlockPort} {v : Nat} (h : graphEvent (.doorbell at_ v) s.settled m') :
    Happens (.doorbell at_ v) s m' := by
  obtain ⟨hv, hp, rfl⟩ := h
  refine (event_happens ?_ : execDoorbell at_ v s = _)
  rw [if_pos (serves_of hv hp)]
  unfold Module.ringBell Module.onPart
  simp only [decide_eq_true_eq]

theorem hqCancel_happens {s : State} {m' : Module} {at_ : BlockPort} (h : graphEvent (.hqCancel at_) s.settled m') :
    Happens (.hqCancel at_) s m' := by
  obtain ⟨hv, hp, rfl⟩ := h
  refine (event_happens ?_ : execHqCancel at_ s = _)
  rw [if_pos (serves_of hv hp)]
  rfl

theorem launchStart_happens {s : State} {m' : Module} {p : Nat} (h : graphEvent (.launchStart p) s.settled m') :
    Happens (.launchStart p) s m' := by
  obtain ⟨hp, hs, hq, hw, hx, rfl⟩ := h
  refine (event_happens ?_ : execLaunchStart p s = _)
  rw [if_neg (by simp [hp, hs, hq, hw, hx])]

theorem launchPacket_happens {s : State} {m' : Module} {site : Nat} (h : graphEvent (.launchPacket site) s.settled m') :
    Happens (.launchPacket site) s m' := by
  obtain ⟨p, r, n, hp, hq, hl, hs, hb, hr, rfl⟩ := h
  refine (event_happens ?_ : execLaunchPacket site s = _)
  dsimp only
  rewrite [hp, Option.bind_some, if_neg (by simp only [hq, hl, hs, hb]; decide), hr]
  rfl

theorem graphVerdict_happens {s : State} {m' : Module} {p : Nat} (h : graphEvent (.graphVerdict p) s.settled m') :
    Happens (.graphVerdict p) s m' := by
  obtain ⟨hq, hl, hs, rfl⟩ := h
  refine (event_happens ?_ : execGraphVerdict p s = _)
  dsimp only
  rw [if_neg (by simp [hq, hs]; omega)]
  simp only [apply_ite some]

theorem graphStart_happens {s : State} {m' : Module} {site : Nat} (h : graphEvent (.graphStart site) s.settled m') :
    Happens (.graphStart site) s m' := by
  obtain ⟨p, hp, hst, hb, hl, hc, rfl⟩ := h
  refine (event_happens ?_ : execGraphStart site s = _)
  rw [hp, Option.bind_some, if_neg (by simp [hst, hb, hl, hc])]

/-! ## Credits -/

theorem creditPartialSum_happens {s : State} {m' : Module} {site node : Nat}
    (h : graphEvent (.creditPartialSum site node) s.settled m') : Happens (.creditPartialSum site node) s m' := by
  obtain ⟨p, hp, hc, hs, rfl⟩ := h
  refine (event_happens ?_ : execCreditPartialSum site node s = _)
  dsimp only
  rw [hp, Option.bind_some, if_neg (by simp [hc, hs])]

theorem kernelTotal_happens {s : State} {m' : Module} {p node : Nat} (h : graphEvent (.kernelTotal p node) s.settled m') :
    Happens (.kernelTotal p node) s m' := by
  obtain ⟨r, hr, hm, hle, hs, ho, rfl⟩ := h
  refine (event_happens ?_ : execKernelTotal p node s = _)
  dsimp only
  rw [hr, Option.bind_some, if_neg (by
    simp only [Bool.or_eq_true, List.isEmpty_iff, List.any_eq_true, decide_eq_true_eq, not_or, not_exists, not_and, not_lt]
    exact ⟨⟨hm, hle⟩, by simp [hs]⟩)]
  split
  next => rfl
  next hq =>
    split
    next => rfl
    next hlt =>
      split
      next he => rfl
      next he =>
        have he := not_not.mp he
        rw [if_pos he]
        exact if_neg (by
          rw [Bool.not_eq_true', Bool.not_eq_false]
          exact ho ⟨not_not.mp hq, he⟩)

/-! ## The completion stream -/

theorem some_of_ite {c : Prop} [Decidable c] {a b m : Module} (h : m = if c then a else b) :
    (if c then some a else some b) = some m := by
  rw [h, apply_ite some]

theorem completionEvent_happens {s : State} {m' : Module} {site : Nat} (h : graphEvent (.completionEvent site) s.settled m') :
    Happens (.completionEvent site) s m' := by
  obtain ⟨p, e, hn, h⟩ := h
  refine (event_happens ?_ : execCompletionEvent site s = _)
  rw [show s.settled.nextEvent site = some (p, e) from hn, Option.bind_some]
  cases e with
  | done k => exact some_of_ite h
  | cond k t => exact some_of_ite h
  | loop k b => exact some_of_ite h
  | hostsig k => exact some_of_ite h
  | live v => exact h.elim
  | stop => exact h.elim

theorem livenessEvent_happens {s : State} {m' : Module} {site : Nat} (h : graphEvent (.livenessEvent site) s.settled m') :
    Happens (.livenessEvent site) s m' := by
  obtain ⟨p, v, hn, rfl⟩ := h
  refine (event_happens ?_ : execLivenessEvent site s = _)
  rw [hn, Option.bind_some]
  refine congrArg some (if_congr ?_ rfl rfl)
  simp
  rfl

theorem stopEvent_happens {s : State} {m' : Module} {site : Nat} (h : graphEvent (.stopEvent site) s.settled m') :
    Happens (.stopEvent site) s m' := by
  obtain ⟨p, hn, hm⟩ := h
  refine (event_happens ?_ : execStopEvent site s = _)
  rw [hn, Option.bind_some]
  exact congrArg some hm.symm

/-! ## The root's own nodes -/

theorem condDecision_happens {s : State} {m' : Module} {p node : Nat} (h : graphEvent (.condDecision p node) s.settled m') :
    Happens (.condDecision p node) s m' := by
  obtain ⟨r, n, b, o, hn, hb, rfl⟩ := h
  refine (event_happens ?_ : execCondDecision p node s = _)
  dsimp only
  rw [hn, Option.bind_some]
  unfold Module.decideNode
  rw [hb]

theorem loopDecision_happens {s : State} {m' : Module} {p node : Nat} (h : graphEvent (.loopDecision p node) s.settled m') :
    Happens (.loopDecision p node) s m' := by
  obtain ⟨r, n, b, o, hn, hb, rfl⟩ := h
  refine (event_happens ?_ : execLoopDecision p node s = _)
  dsimp only
  rw [hn, Option.bind_some]
  unfold Module.decideNode
  rw [hb]

theorem hostsigStore_happens {s : State} {m' : Module} {p node : Nat} (h : graphEvent (.hostsigStore p node) s.settled m') :
    Happens (.hostsigStore p node) s m' := by
  obtain ⟨r, n, u, o, hn, hb, rfl⟩ := h
  refine (event_happens ?_ : execHostsigStore p node s = _)
  dsimp only
  rw [hn, Option.bind_some]
  dsimp only
  rw [hb]

theorem graphEnd_happens {s : State} {m' : Module} {p : Nat} (h : graphEvent (.graphEnd p) s.settled m') :
    Happens (.graphEnd p) s m' := by
  obtain ⟨r, u, o, hr, hq, ha, hi, hs, hb, rfl⟩ := h
  refine (event_happens ?_ : execGraphEnd p s = _)
  dsimp only
  rw [hr, Option.bind_some, if_neg, hb]
  have hall : ((s.settled.part p).sites.all fun t =>
      (s.settled.site t).graph.applied == (s.settled.part p).run.stream.length) = true :=
    List.all_eq_true.mpr fun t ht => beq_iff_eq.mpr (ha t ht)
  have hdone : ((s.settled.part p).hqState == 3 || ((s.settled.part p).hqState == 2 &&
      (s.settled.part p).run.todo.any fun k => ((s.settled.site r).graph.node k).kind == 6)) = true := by
    rw [Bool.or_eq_true, Bool.and_eq_true, List.any_eq_true]
    simpa using hq
  rw [hall, hdone, hi, hs]
  decide

theorem graphEvent_happens {i : Instr} {s : State} {m' : Module} (h : graphEvent i s.settled m') : Happens i s m' := by
  have h' := h
  unfold graphEvent at h'
  split at h'
  · exact doorbell_happens h
  · exact hqCancel_happens h
  · exact launchStart_happens h
  · exact launchPacket_happens h
  · exact graphVerdict_happens h
  · exact graphStart_happens h
  · exact creditPartialSum_happens h
  · exact kernelTotal_happens h
  · exact completionEvent_happens h
  · exact condDecision_happens h
  · exact loopDecision_happens h
  · exact hostsigStore_happens h
  · exact graphEnd_happens h
  · exact livenessEvent_happens h
  · exact stopEvent_happens h
  · exact h'.elim

end Sys2Proof.Claims
end

section
/-!
PROOFS. The events of partitions: page notices, pre-emption and swap, failing cores (R355, R358, R363–R371).
-/
namespace Sys2Proof.Claims
open Sys2Proof.Machine

/-! ## Page notices -/

theorem pageNoticeResume_happens {s : State} {m' : Module} {p rsite : Nat} {all : Bool}
    (h : partitionEvent (.pageNoticeResume p all rsite) s.settled m') : Happens (.pageNoticeResume p all rsite) s m' := by
  obtain ⟨hp, rfl⟩ := h
  refine (event_happens ?_ : execPageNoticeResume p all rsite s = _)
  rw [if_neg (by simp [hp])]

theorem pageNoticeCancel_happens {s : State} {m' : Module} {p rsite : Nat} {all : Bool}
    (h : partitionEvent (.pageNoticeCancel p all rsite) s.settled m') : Happens (.pageNoticeCancel p all rsite) s m' := by
  obtain ⟨hp, rfl⟩ := h
  refine (event_happens ?_ : execPageNoticeCancel p all rsite s = _)
  rw [if_neg (by simp [hp])]

theorem ite_bnot {α : Type} (b : Bool) (x y : α) : (if (!b) = true then x else y) = if b = true then y else x := by
  cases b <;> rfl

theorem pageNoticeArrival_happens {s : State} {m' : Module} {p site : Nat}
    (h : partitionEvent (.pageNoticeArrival p site) s.settled m') : Happens (.pageNoticeArrival p site) s m' := by
  obtain ⟨k, n, hn, hm⟩ := h
  refine (event_happens ?_ : execPageNoticeArrival p site s = _)
  exact (congrArg (Option.map _) hn).trans (congrArg some ((ite_bnot ..).trans hm.symm))

/-! ## Swap -/

theorem swapOut_happens {s : State} {m' : Module} {p : Nat} (h : partitionEvent (.swapOut p) s.settled m') : Happens (.swapOut p) s m' := by
  obtain ⟨hp, rfl⟩ := h
  refine (event_happens ?_ : execSwapOut p s = _)
  exact if_pos hp

theorem swapIn_happens {s : State} {m' : Module} {p : Nat} (h : partitionEvent (.swapIn p) s.settled m') : Happens (.swapIn p) s m' := by
  obtain ⟨hp, rfl⟩ := h
  refine (event_happens ?_ : execSwapIn p s = _)
  exact if_pos hp

theorem swapExchange_happens {s : State} {m' : Module} {p other : Nat} (h : partitionEvent (.swapExchange p other) s.settled m') :
    Happens (.swapExchange p other) s m' := by
  obtain ⟨hp, rfl⟩ := h
  refine (event_happens ?_ : execSwapExchange p other s = _)
  exact if_pos hp

theorem pswapStRead_happens {s : State} {m' : Module} {p : Nat} (h : partitionEvent (.pswapStRead p) s.settled m') :
    Happens (.pswapStRead p) s m' := by
  obtain ⟨hp, rfl⟩ := h
  refine (event_happens ?_ : execPswapStRead p s = _)
  exact if_pos hp

theorem quiescenceAgreement_happens {s : State} {m' : Module} {p : Nat} (h : partitionEvent (.quiescenceAgreement p) s.settled m') :
    Happens (.quiescenceAgreement p) s m' := by
  obtain ⟨hs, hc, hk, ha, h⟩ := h
  refine (event_happens ?_ : execQuiescenceAgreement p s = _)
  dsimp only
  rw [if_neg]
  · split at h
    next hf => rw [if_pos (by rw [hf]; rfl), h]
    next hf =>
      obtain ⟨hq, hfl, rfl⟩ := h
      rw [if_neg (by simpa using hf), if_neg]
      have hany : (s.settled.flits.any fun f => (s.settled.part p).sites.contains (siteOf f.scid) ||
          (s.settled.part p).sites.contains (siteOf f.dcid)) = false :=
        List.any_eq_false.mpr fun f hf => by
          obtain ⟨h₁, h₂⟩ := hfl f hf
          rw [h₁, h₂]
          decide
      rw [hq, hany]
      decide
  · have hquiet : ((coresOf (s.settled.part p).sites).all s.settled.coreQuiet) = true := List.all_eq_true.mpr hc
    have hpkts : (s.settled.pkts.any fun e => (s.settled.part p).sites.contains e.2.dsite && !s.settled.ownPkt e.2 &&
        decide (e.2.phase ≤ 2)) = false :=
      List.any_eq_false.mpr fun e he hcon => by
        refine hk e he ?_
        simpa [and_assoc] using hcon
    have happ : ((s.settled.part p).sites.any fun t =>
        decide ((s.settled.site t).graph.applied ≠ s.settled.furthest (s.settled.part p))) = false :=
      List.any_eq_false.mpr fun t ht => by simp [ha t ht]
    rw [hquiet, hpkts, happ, hs]
    decide

theorem saveContext_eq (m : Module) (p : Nat) (x : Part) : m.saveContext p x =
    (let o := (x.sites.foldl Module.writeArea (m.clearSites x.sites)).onPart p fun y =>
      { y with saved := m.context x.sites, notices := [], swOther := none }
     let o := o.setSwap p 3
     let o := x.sites.foldl (fun m s => m.onSite s fun y => { y with shadow := some p, dirty := x.swOther.isSome && y.dirty }) o
     match x.swOther with
     | some q => o.beginRestore q
     | none => o) := rfl

theorem swapSaveCompletion_happens {s : State} {m' : Module} {p : Nat} (h : partitionEvent (.swapSaveCompletion p) s.settled m') :
    Happens (.swapSaveCompletion p) s m' := by
  obtain ⟨hs, hm⟩ := h
  refine (event_happens ?_ : execSwapSaveCompletion p s = _)
  dsimp only
  rw [if_neg (not_not_intro hs)]
  refine congrArg some (Eq.trans ?_ hm.symm)
  refine if_congr ?_ (saveContext_eq ..) rfl
  simp

theorem swapRestoreCompletion_happens {s : State} {m' : Module} {p : Nat}
    (h : partitionEvent (.swapRestoreCompletion p) s.settled m') : Happens (.swapRestoreCompletion p) s m' := by
  obtain ⟨hs, hm⟩ := h
  refine (event_happens ?_ : execSwapRestoreCompletion p s = _)
  dsimp only
  rw [if_neg (not_not_intro hs)]
  exact congrArg some hm.symm

/-! ## Failing cores -/

theorem retire_happens {s : State} {m' : Module} {site : Nat} {v : Word} (h : partitionEvent (.retire site v) s.settled m') :
    Happens (.retire site v) s m' := by
  obtain ⟨hp, hs, rfl⟩ := h
  refine (event_happens ?_ : execRetire site v s = _)
  exact if_pos (by simp [hp, hs])

theorem retirementCompletion_happens {s : State} {m' : Module} {site : Nat}
    (h : partitionEvent (.retirementCompletion site) s.settled m') : Happens (.retirementCompletion site) s m' := by
  obtain ⟨r, n, hr, hq, he, hl, hf, rfl⟩ := h
  refine (event_happens ?_ : execRetirementCompletion site s = _)
  dsimp only
  rw [hr, Option.bind_some, if_neg, hf]
  · rfl
  · rw [hq, he]
    simp only [Bool.not_true, Bool.false_or, Bool.and_eq_true, Option.isNone_iff_eq_none, not_and]
    exact fun hn => by simp [hl hn]

theorem selfTestStart_happens {s : State} {m' : Module} {pid : Nat} (h : partitionEvent (.selfTestStart pid) s.settled m') :
    Happens (.selfTestStart pid) s m' := by
  obtain ⟨hp, hs, ht, rfl⟩ := h
  refine (event_happens ?_ : execSelfTestStart pid s = _)
  exact if_pos (by simp [hp, hs, ht])

theorem selfTestPass_happens {s : State} {m' : Module} {pid : Nat} (h : partitionEvent (.selfTestPass pid) s.settled m') :
    Happens (.selfTestPass pid) s m' := by
  obtain ⟨ht, rfl⟩ := h
  refine (event_happens ?_ : execSelfTestPass pid s = _)
  exact if_pos ht

theorem passExpiry_happens {s : State} {m' : Module} {pid : Nat} (h : partitionEvent (.passExpiry pid) s.settled m') :
    Happens (.passExpiry pid) s m' := by
  obtain ⟨hp, ht, rfl⟩ := h
  refine (event_happens ?_ : execPassExpiry pid s = _)
  exact if_pos (by simp [hp]; exact ht)

theorem partitionEvent_happens {i : Instr} {s : State} {m' : Module} (h : partitionEvent i s.settled m') : Happens i s m' := by
  have h' := h
  unfold partitionEvent at h'
  split at h'
  · exact pageNoticeResume_happens h
  · exact pageNoticeCancel_happens h
  · exact pageNoticeArrival_happens h
  · exact swapOut_happens h
  · exact swapIn_happens h
  · exact swapExchange_happens h
  · exact pswapStRead_happens h
  · exact quiescenceAgreement_happens h
  · exact swapSaveCompletion_happens h
  · exact swapRestoreCompletion_happens h
  · exact retire_happens h
  · exact retirementCompletion_happens h
  · exact selfTestStart_happens h
  · exact selfTestPass_happens h
  · exact passExpiry_happens h
  · exact h'.elim

end Sys2Proof.Claims
end

section
/-!
PROOFS. The events of the memory controllers, bring-up, owner tokens and partitions (R13–R23, R34, R371–R376, R382–R392).
-/
namespace Sys2Proof.Claims
open Sys2Proof.Machine

/-! ## Capacity -/

theorem HomeRes.bind_ok {α β : Type} {x : HomeRes α} {f : α → Module → HomeRes β} {a : α} {m : Module} (h : x = .ok a m) :
    x.bind f = f a m := by
  rw [h]
  rfl

/-- What the balloon engine does to the entry at HEAD (R375, R376). -/
def balloonMark (m : Module) (site : Nat) : HomeRes Unit :=
  (m.dramRead (dramLoc site ((m.mc site).baddr * 0x10000 + 8 * (m.mc site).bhead)) 8).bind fun b n =>
    let e := BitVec.ofNat 64 (leNat b)
    let n := if (m.mc site).pageOk e then n.zeroLines site (bits e 52 16 * 0x10000) 0x10000 else n
    (n.dramWrite (dramLoc site ((m.mc site).baddr * 0x10000 + 8 * (m.mc site).bhead)) (leBytes 8 (setBits e 0 0 1).toNat)).bind
      fun _ m => .ok () (m.onMc site Mc.taken)

theorem balloonMark_ok {m m' : Module} {site : Nat} (h : managementEvent (.balloonRelease site) m m') :
    balloonMark m site = .ok () m' := by
  obtain ⟨b, n, o, hd, hr, hw, hm⟩ := h
  exact (HomeRes.bind_ok hr).trans ((HomeRes.bind_ok hw).trans (congrArg (HomeRes.ok ()) hm.symm))

theorem exec_balloonRelease {s : State} {m' : Module} {site : Nat} (hd : (s.settled.mc site).balloonDue = true)
    (h : balloonMark s.settled site = .ok () m') :
    execBalloonRelease site s = .next { s with m := m', open_ := none } := by
  unfold execBalloonRelease
  refine event_happens ?_
  refine (if_neg (by simp [hd])).trans ?_
  unfold balloonMark at h
  rw [h]
  rfl

theorem balloonRelease_happens {s : State} {m' : Module} {site : Nat} (h : managementEvent (.balloonRelease site) s.settled m') :
    Happens (.balloonRelease site) s m' := by
  obtain ⟨b, n, o, hd, h'⟩ := h
  exact exec_balloonRelease hd (balloonMark_ok ⟨b, n, o, hd, h'⟩)

theorem spillMove_happens {s : State} {m' : Module} {site : Nat} (h : managementEvent (.spillMove site) s.settled m') :
    Happens (.spillMove site) s m' := by
  obtain ⟨line, data, rest, hs, hr, rfl⟩ := h
  refine (event_happens ?_ : execSpillMove site s = _)
  dsimp only
  rw [hs]
  exact if_neg (by omega)

theorem mcExposeWrite_happens {s : State} {m' : Module} {site : Nat} (h : managementEvent (.mcExposeWrite site) s.settled m') :
    Happens (.mcExposeWrite site) s m' := by
  obtain ⟨f, hf, rfl⟩ := h
  refine (event_happens ?_ : execMcExposeWrite site s = _)
  rw [hf, Option.map_some]

theorem managed_iff {m : Module} {site : Nat} (h : Managed m site) : (m.powered && decide (site < 324)) = true := by
  obtain ⟨hp, hs⟩ := h
  simp [hp, hs]

theorem mcSpillRead_happens {s : State} {m' : Module} {site : Nat} (h : managementEvent (.mcSpillRead site) s.settled m') :
    Happens (.mcSpillRead site) s m' := by
  obtain ⟨hm, rfl⟩ := h
  refine (event_happens ?_ : execMcSpillRead site s = _)
  exact if_pos (managed_iff hm)

theorem mcBtailWrite_happens {s : State} {m' : Module} {site : Nat} {v : Word} (h : managementEvent (.mcBtailWrite site v) s.settled m') :
    Happens (.mcBtailWrite site v) s m' := by
  obtain ⟨hm, rfl⟩ := h
  refine (event_happens ?_ : execMcBtailWrite site v s = _)
  exact if_pos (managed_iff hm)

theorem mcBpoolWrite_happens {s : State} {m' : Module} {site : Nat} {v : Word} (h : managementEvent (.mcBpoolWrite site v) s.settled m') :
    Happens (.mcBpoolWrite site v) s m' := by
  obtain ⟨hm, rfl⟩ := h
  refine (event_happens ?_ : execMcBpoolWrite site v s = _)
  exact if_pos (managed_iff hm)

/-! ## Registers -/

theorem psaveWrite_happens {s : State} {m' : Module} {site : Nat} {v : Word} (h : managementEvent (.psaveWrite site v) s.settled m') :
    Happens (.psaveWrite site v) s m' := by
  obtain ⟨hm, rfl⟩ := h
  refine (event_happens ?_ : execPsaveWrite site v s = _)
  exact if_pos (managed_iff hm)

theorem lpctEntryWrite_happens {s : State} {m' : Module} {site l : Nat} {v : Word}
    (h : managementEvent (.lpctEntryWrite site l v) s.settled m') : Happens (.lpctEntryWrite site l v) s m' := by
  obtain ⟨⟨hp, hs⟩, hl, hw, hr⟩ := h
  refine (event_happens ?_ : execLpctEntryWrite site l v s = _)
  rw [if_neg (by simp [hp, hw]; omega), hr]

theorem niTlbi_happens {s : State} {m' : Module} {site : Nat} {v : Word} (h : managementEvent (.niTlbi site v) s.settled m') :
    Happens (.niTlbi site v) s m' := by
  obtain ⟨hm, rfl⟩ := h
  refine (event_happens ?_ : execNiTlbi site v s = _)
  exact if_pos (managed_iff hm)

theorem cfgRegisterWrite_happens {s : State} {m' : Module} {space k off : Nat} {v : Word}
    (h : managementEvent (.cfgRegisterWrite space k off v) s.settled m') : Happens (.cfgRegisterWrite space k off v) s m' := by
  obtain ⟨hp, hk, ho, rfl⟩ := h
  refine (event_happens ?_ : execCfgRegisterWrite space k off v s = _)
  refine if_pos ?_
  simp only [hp, hk, decide_true, Bool.true_and, Bool.or_eq_true, decide_eq_true_eq]
  exact or_iff_not_imp_left.mpr fun h => ho (not_not.mp h)

/-! ## Power and clocks -/

theorem powerOn_happens {s : State} {m' : Module} (h : managementEvent .powerOn s.settled m') : Happens .powerOn s m' := by
  obtain ⟨hp, hm⟩ := h
  refine (event_happens ?_ : execPowerOn s = _)
  rw [if_neg, hm]
  simp only [Bool.and_eq_true, List.any_eq_true, not_and, not_exists]
  intro hon e he
  obtain ⟨hs, ho⟩ := hp hon e he
  simp [hs, ho]

theorem powerLoss_happens {s : State} {m' : Module} (h : managementEvent .powerLoss s.settled m') : Happens .powerLoss s m' := by
  obtain ⟨hp, rfl⟩ := h
  refine (event_happens ?_ : execPowerLoss s = _)
  exact if_pos hp

theorem clockOffer_happens {s : State} {m' : Module} {site : Nat} (h : managementEvent (.clockOffer site) s.settled m') :
    Happens (.clockOffer site) s m' := by
  obtain ⟨o, os, ho, hp, hst, hs, ht, rfl⟩ := h
  refine (event_happens ?_ : execClockOffer site s = _)
  dsimp only
  rw [ho]
  exact if_neg (by simp [hp, hst]; omega)

theorem siteStateAdvance_happens {s : State} {m' : Module} {site step : Nat} {ok : Bool}
    (h : managementEvent (.siteStateAdvance site ok step) s.settled m') : Happens (.siteStateAdvance site ok step) s m' := by
  obtain ⟨hp, hs, h1, h6, h⟩ := h
  refine (event_happens ?_ : execSiteStateAdvance site ok step s = _)
  dsimp only
  rw [if_neg (by simp [hp]; omega)]
  split at h
  next hok => rw [if_pos (by rw [hok]; rfl), h]
  next hok =>
    obtain ⟨hb, rfl⟩ := h
    rw [if_neg (by simpa using hok), if_neg]
    · refine congrArg some (if_congr ?_ rfl rfl)
      simp
    · rw [Bool.and_eq_true, not_and, decide_eq_true_eq]
      exact fun h5 => by simp [hb h5]

/-! ## Management controllers and links -/

theorem mcFirmwareBoot_happens {s : State} {m' : Module} {mc : Nat} {image : FwImage} {sigOk : Bool}
    (h : managementEvent (.mcFirmwareBoot mc image sigOk) s.settled m') : Happens (.mcFirmwareBoot mc image sigOk) s m' := by
  obtain ⟨hp, hc, rfl⟩ := h
  refine (event_happens ?_ : execMcFirmwareBoot mc image sigOk s = _)
  rw [if_neg (by simp [hp]; omega)]
  rfl

theorem powerClamp_happens {s : State} {m' : Module} (h : managementEvent .powerClamp s.settled m') : Happens .powerClamp s m' := by
  obtain ⟨hp, hc, rfl⟩ := h
  refine (event_happens ?_ : execPowerClamp s = _)
  exact if_pos (by simp [hp, hc])

theorem powerClampRelease_happens {s : State} {m' : Module} (h : managementEvent .powerClampRelease s.settled m') :
    Happens .powerClampRelease s m' := by
  obtain ⟨hc, rfl⟩ := h
  refine (event_happens ?_ : execPowerClampRelease s = _)
  exact if_pos hc

theorem tamvexLinkTraining_happens {s : State} {m' : Module} {port : Nat} {up : Bool}
    (h : managementEvent (.tamvexLinkTraining port up) s.settled m') : Happens (.tamvexLinkTraining port up) s m' := by
  obtain ⟨hp, hc, rfl⟩ := h
  refine (event_happens ?_ : execTamvexLinkTraining port up s = _)
  exact if_neg (by simp [hp]; omega)

theorem pcieLinkTraining_happens {s : State} {m' : Module} {port : Nat} {cxl : Bool}
    (h : managementEvent (.pcieLinkTraining port cxl) s.settled m') : Happens (.pcieLinkTraining port cxl) s m' := by
  obtain ⟨hp, hc, rfl⟩ := h
  refine (event_happens ?_ : execPcieLinkTraining port cxl s = _)
  exact if_neg (by simp [hp]; omega)

/-! ## Owner tokens -/

/-- An accepted token's own module: the count of tokens has moved on. -/
def tokenCounted (m : Module) : Module := { m with tokcnt := m.tokcnt + 1#64 }

theorem tokenOk_iff {m : Module} {sig : Bool} {key : Nat} {body : BitVec 512} : m.tokenOk sig key body = true ↔
    sig = true ∧ m.ownerHash = some (Config.keyHash key) ∧ bits body 143 80 = Config.modId.toNat ∧
      bits body 79 16 = (m.tokcnt + 1#64).toNat := by
  unfold Module.tokenOk
  simp [and_assoc]

/-- A token's event happens as R391 says, where its action is taken on the very condition that the claim names. -/
theorem token_happens {s : State} {m' : Module} {sig : Bool} {key act : Nat} {body : BitVec 512} {ok : Prop} {f : Module → Module}
    {g : Module → Option Module} (h : Token s.settled m' sig key body act ok f)
    (hy : ok → g (tokenCounted s.settled) = some (f (tokenCounted s.settled))) (hn : ¬ ok → g (tokenCounted s.settled) = none) :
    tokenEvent sig key body act g s = .next { s with m := m', open_ := none } := by
  unfold tokenEvent
  refine event_happens ?_
  obtain ⟨hp, ⟨hbad, rfl⟩ | ⟨hgood, ha, rfl⟩ | ⟨hgood, hz, ha, h1, h6, ho⟩⟩ := h
  · rw [if_neg (by simp [hp]), if_pos]
    rw [Bool.not_eq_true', Bool.eq_false_iff]
    exact fun hc => hbad (tokenOk_iff.mp hc)
  · rw [if_neg (by simp [hp]), if_neg (by simp [tokenOk_iff.mpr hgood])]
    exact if_pos (by simpa [or_assoc] using ha)
  · rw [if_neg (by simp [hp]), if_neg (by simp [tokenOk_iff.mpr hgood])]
    refine (if_neg (by simp [hz]; omega)).trans ((if_neg (not_not_intro ha)).trans ?_)
    refine congrArg some ?_
    rcases ho with ⟨hk, rfl⟩ | ⟨hk, rfl⟩
    · exact congrArg (fun o : Option Module => o.getD (tokenCounted s.settled)) (hy hk)
    · exact congrArg (fun o : Option Module => o.getD (tokenCounted s.settled)) (hn hk)

theorem tokenLinkEnable_happens {s : State} {m' : Module} {sig : Bool} {key port : Nat} {body : BitVec 512}
    (h : managementEvent (.tokenLinkEnable sig key body port) s.settled m') : Happens (.tokenLinkEnable sig key body port) s m' := by
  simp only [managementEvent] at h
  exact (token_happens h (fun hk => if_pos hk) (fun hk => if_neg hk) : execTokenLinkEnable sig key body port s = _)

theorem tokenPartitionKey_happens {s : State} {m' : Module} {sig : Bool} {key p : Nat} {body : BitVec 512} {pk : BitVec 32}
    (h : managementEvent (.tokenPartitionKey sig key body p pk) s.settled m') : Happens (.tokenPartitionKey sig key body p pk) s m' := by
  simp only [managementEvent] at h
  refine (token_happens h (fun hk => if_neg ?_) (fun hk => if_pos ?_) : execTokenPartitionKey sig key body p pk s = _)
  · obtain ⟨hs, hw⟩ := hk
    rw [Bool.or_eq_true, List.isEmpty_iff, decide_eq_true_eq, not_or]
    exact ⟨hs, Nat.not_le.mpr hw⟩
  · rw [Bool.or_eq_true, List.isEmpty_iff, decide_eq_true_eq, or_iff_not_imp_left]
    exact fun hs => Nat.not_lt.mp fun hw => hk ⟨hs, hw⟩

theorem tokenReadmit_happens {s : State} {m' : Module} {sig : Bool} {key site idx rcnt : Nat} {body : BitVec 512}
    (h : managementEvent (.tokenReadmit sig key body site idx rcnt) s.settled m') :
    Happens (.tokenReadmit sig key body site idx rcnt) s m' := by
  have hnamed : ((upFrom 0 128).any fun l => (s.settled.lpct site l).v &&
      physAt site l (s.settled.lpct site l).ppos == 144 * site + idx) = true ↔
      ¬ ∀ l, l < 128 → (s.settled.lpct site l).v = true → physAt site l (s.settled.lpct site l).ppos ≠ 144 * site + idx := by
    simp [List.any_eq_true, mem_upFrom_zero]
  simp only [managementEvent] at h
  refine (token_happens h (fun hk => if_neg ?_) (fun hk => if_pos ?_) : execTokenReadmit sig key body site idx rcnt s = _)
  · obtain ⟨h1, h2, h3, h4, h5, h6, h7⟩ := hk
    simp only [Bool.or_eq_true, decide_eq_true_eq, not_or]
    exact ⟨⟨⟨⟨⟨⟨by omega, by omega⟩, not_not_intro h3⟩, not_not_intro h4⟩, not_not_intro h5⟩, Nat.not_lt.mpr h6⟩,
      fun hc => hnamed.mp hc h7⟩
  · by_contra hc
    simp only [Bool.or_eq_true, decide_eq_true_eq, not_or] at hc
    obtain ⟨⟨⟨⟨⟨⟨h1, h2⟩, h3⟩, h4⟩, h5⟩, h6⟩, h7⟩ := hc
    exact hk ⟨by omega, by omega, not_not.mp h3, not_not.mp h4, not_not.mp h5, Nat.not_lt.mp h6,
      not_not.mp fun hh => h7 (hnamed.mpr hh)⟩

theorem tokenClearCoreStop_happens {s : State} {m' : Module} {sig : Bool} {key site l : Nat} {body : BitVec 512}
    (h : managementEvent (.tokenClearCoreStop sig key body site l) s.settled m') :
    Happens (.tokenClearCoreStop sig key body site l) s m' := by
  simp only [managementEvent] at h
  refine (token_happens h (fun hk => if_neg ?_) (fun hk => if_pos ?_) : execTokenClearCoreStop sig key body site l s = _)
  · obtain ⟨h1, h2, h3⟩ := hk
    simp only [Bool.or_eq_true, decide_eq_true_eq, not_or, Bool.not_eq_true', Bool.not_eq_false]
    exact ⟨⟨by omega, by omega⟩, h3⟩
  · by_contra hc
    simp only [Bool.or_eq_true, decide_eq_true_eq, not_or, Bool.not_eq_true', Bool.not_eq_false] at hc
    obtain ⟨⟨h1, h2⟩, h3⟩ := hc
    exact hk ⟨by omega, by omega, h3⟩

theorem tokenSetRetired_happens {s : State} {m' : Module} {sig : Bool} {key site : Nat} {body : BitVec 512}
    (h : managementEvent (.tokenSetRetired sig key body site) s.settled m') : Happens (.tokenSetRetired sig key body site) s m' := by
  simp only [managementEvent] at h
  exact (token_happens h (fun hk => if_pos hk) (fun hk => if_neg hk) : execTokenSetRetired sig key body site s = _)

theorem tokenMcExpose_happens {s : State} {m' : Module} {sig : Bool} {key site fact : Nat} {body : BitVec 512}
    (h : managementEvent (.tokenMcExpose sig key body site fact) s.settled m') : Happens (.tokenMcExpose sig key body site fact) s m' := by
  simp only [managementEvent] at h
  refine (token_happens h (fun hk => if_neg ?_) (fun hk => if_pos ?_) : execTokenMcExpose sig key body site fact s = _)
  · simp only [Bool.or_eq_true, decide_eq_true_eq]
    omega
  · simp only [Bool.or_eq_true, decide_eq_true_eq]
    omega

/-! ## Partitions -/

theorem partitionCreation_happens {s : State} {m' : Module} {p : Nat} {sites : List Nat}
    (h : managementEvent (.partitionCreation p sites) s.settled m') : Happens (.partitionCreation p sites) s m' := by
  obtain ⟨hp, hn, hs, hl, ha, rfl⟩ := h
  refine (event_happens ?_ : execPartitionCreation p sites s = _)
  dsimp only
  rw [if_neg]
  have hany : ((siteSet sites).any fun t => !s.settled.live t || (s.settled.site t).part.isSome) = false :=
    List.any_eq_false.mpr fun t ht => by simp [ha t ht]
  simp [hp, hs, hl, hany]
  omega

theorem partitionReshape_happens {s : State} {m' : Module} {p : Nat} {sites : List Nat}
    (h : managementEvent (.partitionReshape p sites) s.settled m') : Happens (.partitionReshape p sites) s m' := by
  obtain ⟨hp, hs, hw, hq, ha, rfl⟩ := h
  refine (event_happens ?_ : execPartitionReshape p sites s = _)
  dsimp only
  have hany : ((siteSet sites).any fun t => !s.settled.live t || ((s.settled.site t).part.isSome &&
      decide ((s.settled.site t).part ≠ some p))) = false :=
    List.any_eq_false.mpr fun t ht => by
      obtain ⟨hlive, hn | hn⟩ := ha t ht <;> simp [hlive, hn]
  rw [if_neg (by rw [hany]; simp [hp, hs, hw, hq])]
  simp only [apply_ite some, List.isEmpty_iff]

theorem managementEvent_happens {i : Instr} {s : State} {m' : Module} (h : managementEvent i s.settled m') : Happens i s m' := by
  have h' := h
  unfold managementEvent at h'
  split at h'
  · exact balloonRelease_happens h
  · exact spillMove_happens h
  · exact mcExposeWrite_happens h
  · exact mcSpillRead_happens h
  · exact mcBtailWrite_happens h
  · exact mcBpoolWrite_happens h
  · exact psaveWrite_happens h
  · exact lpctEntryWrite_happens h
  · exact niTlbi_happens h
  · exact cfgRegisterWrite_happens h
  · exact powerOn_happens h
  · exact powerLoss_happens h
  · exact clockOffer_happens h
  · exact siteStateAdvance_happens h
  · exact mcFirmwareBoot_happens h
  · exact powerClamp_happens h
  · exact powerClampRelease_happens h
  · exact tamvexLinkTraining_happens h
  · exact pcieLinkTraining_happens h
  · exact tokenLinkEnable_happens h
  · exact tokenPartitionKey_happens h
  · exact tokenReadmit_happens h
  · exact tokenClearCoreStop_happens h
  · exact tokenSetRetired_happens h
  · exact tokenMcExpose_happens h
  · exact partitionCreation_happens h
  · exact partitionReshape_happens h
  · exact h'.elim

/-- Settles O60, row by row. -/
theorem moduleEventsHappen : Obligations.ModuleEventsHappen := by
  rintro i s m' (h | h | h)
  · exact graphEvent_happens h
  · exact partitionEvent_happens h
  · exact managementEvent_happens h

end Sys2Proof.Claims
end

section
/-!
PROOFS. The returns from exceptions (R351, R353, R358, R421, R485).
-/
namespace Sys2Proof.Machine
open Sys2Proof.Claims

/-! ## The return from an upcall -/

theorem lineFor_other {m m' : Module} {cid k : Nat} {pc : Word} {b : List Byte} {super : Bool}
    (h : ∀ x, ((m.core cid).ctx k).line = some x → x.base ≠ pc.toNat / 64 * 64)
    (hf : fetchLine cid (m.ctxAid cid k) (pc.toNat / 64 * 64) super m = .ok (b, m')) :
    lineFor cid k pc super m = .ok (b, m'.fillBuffer cid k (pc.toNat / 64 * 64) b) := by
  cases hl : ((m.core cid).ctx k).line with
  | none => exact lineFor_miss hl hf
  | some l =>
    rw [lineFor, MM.get_bind, hl]
    dsimp only
    rw [if_neg (h l hl)]
    exact (MM.get_bind ..).trans ((MM.bind_ok hf).trans rfl)

theorem fillTarget_stands {s : State} {t : Word} {m' : Module} (h : CodeStands s t m') :
    fillTarget t s = .ok ((), { s with m := m' }) := by
  rcases h with ⟨b, who, hl, hb, rfl⟩ | ⟨hl, hlo, hg, hf, hw, hbad, hb, rfl⟩
  · rw [fillTarget, Run.get_bind, lineFor_hit _ hl]
    dsimp only
    rw [hb]
    rfl
  · have hok : LmOk s.m s.cid (t.toNat / 64 * 64) 64 .fetch s.super := ⟨⟨hlo, by decide, by omega⟩, hg, hf, hw⟩
    rw [fillTarget, Run.get_bind, lineFor_other hl (fetchLine_local hok hbad _)]
    dsimp only
    rw [hb]
    rfl

theorem fillTarget_faults {s : State} {t : Word} {f : FInfo} (h : lineFor s.cid s.ctx t s.super s.m = .error (.fault f)) :
    fillTarget t s = .ok ((), s) := by
  rw [fillTarget, Run.get_bind, h]
  rfl

/-- A window as URET restores it from a record (R351). -/
def putBack (time : Nat) (w : Win) (k : Nat) (l : Bool) (v : Word) : Win := if l then w.setG time k v else w.killG k
def restored (time : Nat) (r : FaultRec) (w : Win) : Win :=
  let w := putBack time (putBack time w 8 r.l8 r.save8) 9 r.l9 r.save9
  { w with ctl := { w.ctl with sw := swSetUpc w.ctl.sw false, waitk := 0#4, pc := w.ctl.waita } }

theorem unwind_eq (m : Module) (cid : Nat) (w : Win) : m.unwind cid w = (m.clearV cid (w.ctl.waitv.toNat % 2 ^ 19),
    restored m.time (FaultRec.decode (m.lmRead cid (w.ctl.waitv.toNat % 2 ^ 19) 64)) w) := rfl

theorem putBack_waita (time : Nat) (w : Win) (k : Nat) (l : Bool) (v : Word) : (putBack time w k l v).ctl.waita = w.ctl.waita := by
  cases l <;> rfl

theorem restored_eq (time : Nat) (r : FaultRec) (w : Win) : restored time r w =
    (let x := putBack time (putBack time w 8 r.l8 r.save8) 9 r.l9 r.save9
     { x with ctl := { x.ctl with sw := setBits x.ctl.sw 1 1 0, waitk := 0#4, pc := w.ctl.waita } }) := by
  unfold restored
  dsimp only
  rw [putBack_waita, putBack_waita]
  rfl

theorem uretBack_run {s : State} {m' : Module} (hf : fillTarget s.win.ctl.waita s.begun = .ok ((), { s.begun with m := m' }))
    (hb : SameBound s.begun.m m') (hr : ∀ off, m'.lmRead s.cid off 64 = s.m.lmRead s.cid off 64) :
    uretBack s.begun = .ok (.step 0 0, gone s m') := by
  have hw : s.begun.win.ctl.waita = s.win.ctl.waita ∧ s.begun.win.ctl.waitv = s.win.ctl.waitv := by
    rw [State.begun_win]
    exact ⟨rfl, rfl⟩
  have hwin : ({ s.begun with m := m' } : State).win = s.begun.win := hb.window
  rw [uretBack, Run.get_bind, hw.1, Run.bind_ok hf, Run.get_bind, unwind_eq, hwin, hw.2]
  refine congrArg (fun t => Except.ok (After.step 0 0, t)) ?_
  unfold gone
  dsimp only
  rw [hwin, State.begun_cid, hr, restored_eq, hw.1]
  rfl

theorem filled_eq (s : State) (base : Nat) : filled s base =
    (((s.m.lmSeen s.cid).inspect (s.m.lmAt s.cid base) 64).onCore s.cid fun c => c.onCtx s.ctx fun x =>
      { x with line := some ⟨base, s.m.lmRead s.cid base 64, x.act.elim 0 fun key =>
        (((s.m.lmSeen s.cid).inspect (s.m.lmAt s.cid base) 64).ctlOf s.cid key).aid⟩ }) := rfl

theorem onCtx_act (c : Core) (k j : Nat) {f : Ctx → Ctx} (hf : ∀ x, (f x).act = x.act) : ((c.onCtx k f).ctx j).act = (c.ctx j).act := by
  by_cases h : j = k
  · subst h
    rw [Core.ctx_onCtx, hf]
  · exact congrArg Ctx.act (Tab.get_put_other _ _ _ _ _ h)

theorem filled_bound (s : State) (base : Nat) : SameBound s.m (filled s base) := by
  have hs := seenSame_read s.m s.cid (s.m.lmAt s.cid base) 64
  have hb : SameBound s.m ((s.m.lmSeen s.cid).inspect (s.m.lmAt s.cid base) 64) :=
    ⟨fun c k => by rw [Module.act, hs.core]; rfl, fun c k => by rw [hs.core]⟩
  rw [filled_eq]
  exact hb.trans (sameBound_onCore _ _ (fun _ => rfl) fun k => onCtx_act _ _ _ fun _ => rfl)

theorem filled_lmRead (s : State) (base off n : Nat) : (filled s base).lmRead s.cid off n = s.m.lmRead s.cid off n := by
  have hs := seenSame_read s.m s.cid (s.m.lmAt s.cid base) 64
  rw [filled_eq]
  refine Module.lmRead_same ?_ ?_ ?_ off n
  · exact hs.mem
  · rw [Module.core_onCore, hs.core]
    rfl
  · exact hs.pid s.cid

theorem uret_back {s : State} {m' : Module} (h : GoesBack s) (hf : fillTarget s.win.ctl.waita s.begun = .ok ((), { s.begun with m := m' }))
    (hb : SameBound s.begun.m m') (hr : ∀ off, m'.lmRead s.cid off 64 = s.m.lmRead s.cid off 64) :
    exec .uret s = .next (s.retire (gone s m')) := by
  rw [uret_goes h, uretBack_run hf hb hr]
  rfl

theorem uret_stands {s : State} {m' : Module} (h : GoesBack s) (hc : CodeStands s.begun s.win.ctl.waita m') :
    exec .uret s = .next (s.retire (gone s m')) := by
  refine uret_back h (fillTarget_stands hc) ?_ fun off => ?_
  · rcases hc with ⟨-, -, -, -, rfl⟩ | ⟨-, -, -, -, -, -, -, rfl⟩
    · exact ⟨fun _ _ => rfl, fun _ _ => rfl⟩
    · exact filled_bound ..
  · rcases hc with ⟨-, -, -, -, rfl⟩ | ⟨-, -, -, -, -, -, -, rfl⟩
    · exact State.begun_lmRead ..
    · exact (filled_lmRead s.begun _ off 64).trans (State.begun_lmRead ..)

/-- URET with UPC = 1 has passed its first checks in the state after them. -/
theorem uret_record (s : State) : s.begun.m.lmRead s.begun.cid (s.begun.win.ctl.waitv.toNat % 2 ^ 19) 64 =
    s.m.lmRead s.cid (s.win.ctl.waitv.toNat % 2 ^ 19) 64 := by
  rw [State.begun_cid, State.begun_lmRead, State.begun_win]

theorem uret_upc {s : State} (hu : bit s.sw 1 = true) : (!swUpc s.begun.win.ctl.sw) = false := by
  rw [State.begun_win]
  simpa [swUpc, State.sw] using hu

theorem uret_cancelled {s : State} (hr : s.Running) (hu : bit s.sw 1 = true) (hl : s.ldQ = []) (hs : s.sdQ = [])
    (hp : (FaultRec.decode (s.m.lmRead s.cid (s.win.ctl.waitv.toNat % 2 ^ 19) 64)).pw = false) (hc : s.act.pwCancel = true) :
    exec .uret s = .next (s.leave { s.begun with m := s.begun.m.cancelPage s.cid s.key }) := by
  have hcancel : s.begun.act.pwCancel = true := by rw [State.begun_act]; exact hc
  refine runInstr_leaves hr false _ ?_
  simp only [Run.get_bind, uret_upc hu, Run.stopIf_false]
  rw [noQueue_bind (by simpa using ⟨hl, hs⟩), uret_record, hp, if_neg (by decide), hcancel, if_pos rfl, State.begun_key]
  rfl

theorem uret_waits {s : State} (hr : s.Running) (hu : bit s.sw 1 = true) (hl : s.ldQ = []) (hs : s.sdQ = [])
    (hp : (FaultRec.decode (s.m.lmRead s.cid (s.win.ctl.waitv.toNat % 2 ^ 19) 64)).pw = true) :
    let t := s.begun.setWin { s.begun.win with ctl := { s.begun.win.ctl with pc := s.win.ctl.pc, waitk := 8#4 } }
    let m := t.m.onCore s.cid fun c => { c with spec := { c.spec with inst := c.spec.inst - 1#64 } }
    let m := m.onAct s.cid s.key fun a => { a with wait := .uret, dst := 41#6, grace := none }
    exec .uret s = .next (s.leave { t with m := m.parkOrTrap s.cid s.key .suspended }) := by
  refine runInstr_leaves hr false _ ?_
  simp only [Run.get_bind, uret_upc hu, Run.stopIf_false]
  rw [noQueue_bind (by simpa using ⟨hl, hs⟩), uret_record, hp, if_pos rfl, State.begun_key]
  rfl

theorem uret_illop {s : State} (hr : s.Running) (hu : bit s.sw 1 = false) : exec .uret s = .next (s.faulted { cause := .illop }) := by
  refine runInstr_faults hr false _ false ?_
  have hupc : (!swUpc s.begun.win.ctl.sw) = true := by
    rw [State.begun_win]
    simpa [swUpc, State.sw] using hu
  rw [Run.get_bind, hupc]
  rfl

end Sys2Proof.Machine
end

section
/-!
PROOFS. The return from the trap activation (R353, R421).
-/
namespace Sys2Proof.Machine
open Sys2Proof.Claims

theorem Tab.find_del_other {α : Type} (t : Tab α) {i j : Nat} (h : j ≠ i) : Tab.find (Tab.del t i) j = Tab.find t j := by
  induction t with
  | nil => rfl
  | cons e t ih =>
    obtain ⟨k, v⟩ := e
    rw [Tab.del]
    split
    next hk => rw [ih, Tab.find, if_neg (by omega)]
    next hk => rw [Tab.find, Tab.find, ih]

theorem Tab.mem_del {α : Type} {t : Tab α} {i : Nat} {e : Nat × α} (h : e ∈ Tab.del t i) : e ∈ t := by
  induction t with
  | nil => exact h
  | cons x t ih =>
    obtain ⟨k, v⟩ := x
    rw [Tab.del] at h
    split at h
    · exact List.mem_cons_of_mem _ (ih h)
    · rcases List.mem_cons.mp h with rfl | h
      · exact List.mem_cons_self
      · exact List.mem_cons_of_mem _ (ih h)

/-! ## A release without late faults -/

theorem vacated_core (m : Module) (cid key : Nat) : ∃ x i, (m.vacated cid key).core cid = { m.core cid with
    ctxs := x, idle := i, acts := Tab.del (m.core cid).acts key
    desc := if key < 64 then { (m.core cid).desc with held := setBits (m.core cid).desc.held key key 0 } else (m.core cid).desc
    mons := (m.core cid).mons.filter (·.key ≠ key), vcancel := (m.core cid).vcancel.filter (· ≠ key) } := by
  unfold Module.vacated
  extract_lets a m1 m2 m3
  obtain ⟨x1, h1⟩ := (written_countFixed m cid ((a.win.map (·.fixed)).getD 0) 0 0).core cid
  obtain ⟨x2, h2⟩ := leftCtx_core m1 cid a
  replace h2 : m2.core cid = { m1.core cid with ctxs := x2 } := h2
  replace h1 : m1.core cid = { m.core cid with ctxs := x1 } := h1
  obtain ⟨i, hi⟩ := freeWin_idle (m2.core cid) a.win
  have h3 : m3.core cid = { (m2.core cid).freeWin a.win with
      acts := Tab.del (m2.core cid).acts key
      desc := if key < 64 then { (m2.core cid).desc with held := setBits (m2.core cid).desc.held key key 0 } else (m2.core cid).desc
      mons := (m2.core cid).mons.filter (·.key ≠ key), vcancel := (m2.core cid).vcancel.filter (· ≠ key) } := Module.core_onCore ..
  refine ⟨x2, i, h3.trans ?_⟩
  rw [hi, h2, h1]

theorem vacated_ctx {m : Module} {cid key k : Nat} (h : (m.act cid key).st = .issuing k) :
    (((m.vacated cid key).core cid).ctx k).act = none := by
  unfold Module.vacated
  extract_lets a m1 m2 m3
  have h3 : m3.core cid = { (m2.core cid).freeWin a.win with
      acts := Tab.del (m2.core cid).acts key
      desc := if key < 64 then { (m2.core cid).desc with held := setBits (m2.core cid).desc.held key key 0 } else (m2.core cid).desc
      mons := (m2.core cid).mons.filter (·.key ≠ key), vcancel := (m2.core cid).vcancel.filter (· ≠ key) } := Module.core_onCore ..
  show ((m3.core cid).ctx k).act = none
  rw [h3]
  show (((m2.core cid).freeWin a.win).ctx k).act = none
  rw [freeWin_ctx]
  exact leftCtx_act (m := m1) cid h

theorem countFixed_rest (m : Module) (cid n : Nat) : m.countFixed cid n = { m with sites := (m.countFixed cid n).sites } := by
  unfold Module.countFixed
  split <;> rfl

/-- Neither memory, banks, waiters of other slots nor the numbers of the physical cores change. -/
theorem vacated_rest (m : Module) (cid key : Nat) :
    (m.vacated cid key).mem = m.mem ∧ (m.vacated cid key).phys = m.phys ∧ (∀ c, (m.vacated cid key).pid c = m.pid c) ∧
      (m.vacated cid key).bwait = m.bwait.filter (fun w => !(w.cid == cid && w.key == key)) := by
  unfold Module.vacated
  extract_lets a m1 m2 m3
  have h1 : m1 = { m with sites := m1.sites } := countFixed_rest ..
  have h2 : m2 = { m1 with cores := m2.cores } := leftCtx_rest m1 cid a
  have hp : ∀ c, m1.pid c = m.pid c := (written_countFixed m cid ((a.win.map (·.fixed)).getD 0) 0 0).pid
  have hs : m2.sites = m1.sites := by rw [h2]
  refine ⟨?_, ?_, fun c => ?_, ?_⟩
  · show m2.mem = m.mem
    rw [h2, h1]
  · show m2.phys = m.phys
    rw [h2, h1]
  · refine Eq.trans ?_ (hp c)
    show m2.pid c = m1.pid c
    unfold Module.pid Module.lpct Module.site
    rw [hs]
  · show m2.bwait.filter _ = m.bwait.filter _
    rw [h2, h1]

theorem vacated_unwatched {m : Module} (cid key : Nat) {loc n : Nat} (h : Unwatched m loc n) : Unwatched (m.vacated cid key) loc n := by
  refine ⟨?_, ?_⟩
  · have h1 := (written_countFixed m cid ((((m.act cid key).win).map (·.fixed)).getD 0) loc n).watched loc n h.1
    have h2 := leftCtx_watched cid (m.act cid key) h1
    refine watched_onCore_sub (cid := cid) (f := fun c => { c.freeWin (m.act cid key).win with
      acts := Tab.del c.acts key
      desc := if key < 64 then { c.desc with held := setBits c.desc.held key key 0 } else c.desc
      mons := c.mons.filter (·.key ≠ key), vcancel := c.vcancel.filter (· ≠ key) }) (fun c o ho => ?_) h2
    exact List.mem_of_mem_filter ho
  · rw [(vacated_rest m cid key).2.2.2, List.filter_eq_nil_iff]
    exact fun w hw => List.filter_eq_nil_iff.mp h.2 w (List.mem_of_mem_filter hw)

theorem unwatched_ports {m : Module} (cid : Nat) {g : Core → Core} (hg : ∀ c, (g c).mons = c.mons) {loc n : Nat} (h : Unwatched m loc n) :
    Unwatched (m.onCore cid g) loc n := ⟨watched_onCore hg h.1, h.2⟩

theorem unwatched_breakRoute {m : Module} (scid sid : Nat) {loc k : Nat} (h : Unwatched m loc k) :
    Unwatched (m.breakRoute scid sid) loc k := by
  refine unwatched_ports (m := { m with flits := m.flits.filter fun f => !(f.scid == scid && f.sid == sid) }) _ ?_ ⟨h.1, h.2⟩
  exact fun _ => rfl

theorem unwatched_endRecv {m : Module} (cid n : Nat) {loc k : Nat} (h : Unwatched m loc k) : Unwatched (m.endRecv cid n) loc k := by
  unfold Module.endRecv
  split
  · have h' : Unwatched (m.onCore cid fun c => { c with ports := { c.ports with recv := Tab.del c.ports.recv n } }) loc k := by
      refine unwatched_ports _ ?_ h
      exact fun _ => rfl
    dsimp only
    split
    · split
      · exact h'
      · exact unwatched_breakRoute _ _ h'
    · exact h'
  · exact h

theorem unwatched_closePorts {m : Module} (cid aid : Nat) {loc k : Nat} (h : Unwatched m loc k) : Unwatched (m.closePorts cid aid) loc k := by
  unfold Module.closePorts
  suffices ∀ (l : List Nat) (n : Module), Unwatched n loc k → Unwatched (l.foldl (fun m i =>
      if (Tab.find (m.core cid).ports.recv i).any (·.aid == aid) then m.endRecv cid i else m) n) loc k by
    refine this _ _ (unwatched_ports _ ?_ h)
    exact fun _ => rfl
  intro l
  induction l with
  | nil => exact fun n h => h
  | cons i l ih =>
    refine fun n h => ih _ ?_
    dsimp only
    split
    · exact unwatched_endRecv _ _ h
    · exact h

/-- From m to n the activation in slot key has been released, with no late fault of its own. -/
structure Left (m n : Module) (cid key : Nat) : Prop where
  acts : (n.core cid).acts = Tab.del (m.core cid).acts key
  sup : (n.core cid).sup = (m.core cid).sup
  desc : (n.core cid).desc = if key < 64 then { (m.core cid).desc with held := setBits (m.core cid).desc.held key key 0 } else (m.core cid).desc
  ctx : ∀ k, (m.act cid key).st = .issuing k → ((n.core cid).ctx k).act = none
  mem : n.mem = m.mem
  phys : n.phys = m.phys
  pid : ∀ c, n.pid c = m.pid c
  unwatched : ∀ loc k, Unwatched m loc k → Unwatched n loc k

theorem left_release {m : Module} {cid key : Nat} (h : (m.act cid key).late = []) : Left m (m.release cid key) cid key := by
  have he : m.release cid key = (m.vacated cid key).closePorts cid (m.ctlOf cid key).aid := by
    rw [Module.release_eq, h, List.foldl_nil]
  have hp := portsOnly_closePorts (m.vacated cid key) cid (m.ctlOf cid key).aid
  have hu : ∀ loc k, Unwatched m loc k → Unwatched ((m.vacated cid key).closePorts cid (m.ctlOf cid key).aid) loc k :=
    fun loc k hu => unwatched_closePorts _ _ (vacated_unwatched cid key hu)
  obtain ⟨hmem, hphys, hpid, -⟩ := vacated_rest m cid key
  obtain ⟨x, i, hc⟩ := vacated_core m cid key
  have hx : ∀ k, (m.act cid key).st = .issuing k → (((m.vacated cid key).core cid).ctx k).act = none := fun k => vacated_ctx
  rw [he]
  generalize (m.vacated cid key).closePorts cid (m.ctlOf cid key).aid = n at hp hu
  generalize m.vacated cid key = v at hp hmem hphys hpid hc hx
  obtain ⟨p, hn⟩ := hp.core cid
  have hsites : n.sites = v.sites := (congrArg Module.sites hp.rest).trans rfl
  refine ⟨by rw [hn, hc], by rw [hn, hc], by rw [hn, hc], fun k hk => ?_, (congrArg Module.mem hp.rest).trans hmem,
    (congrArg Module.phys hp.rest).trans hphys, fun c => ?_, hu⟩
  · rw [hn]
    exact hx k hk
  · refine Eq.trans ?_ (hpid c)
    unfold Module.pid Module.lpct Module.site
    rw [hsites]

/-! ## The trap activation gone -/

/-- ERET once the entry's DISP has been done to the activation that the entry names (R353). -/
def Module.disposed (m : Module) (cid i key : Nat) : Module :=
  let m := m.clearV cid (supOff i)
  let m := m.release cid 64
  let m := m.onCore cid fun c => { c with sup := { c.sup with serving := none, keys := Tab.del c.sup.keys i } }
  let m := m.onTile (tileOf cid) fun t => t.unfreeze cid key
  m.deferred cid

theorem eret_other {m : Module} {cid i : Nat} (hs : (m.core cid).sup.serving = some i) (hk : (m.supEntry cid i).kind ≠ 1) :
    m.eret cid = some (m.disposed cid i (Tab.get 64 (m.core cid).sup.keys i)) := by
  unfold Module.eret
  dsimp only
  rw [hs]
  exact if_neg hk

theorem eret_resumed {m : Module} {cid i : Nat} (hs : (m.core cid).sup.serving = some i) (hk : (m.supEntry cid i).kind = 1)
    (hd : (m.supEntry cid i).disp = 1) :
    m.eret cid =
      let key := Tab.get 64 (m.core cid).sup.keys i
      let ctl := m.ctlOf cid key
      let m := m.setCtl cid key { ctl with cls := 4#3, waitk := if swUpc ctl.sw then ctl.waitk else 0#4 }
      some ((m.onAct cid key fun a => { a with st := .ready, since := m.time, aged := m.time, hcyc := 0, wait := .nothing }).disposed
        cid i key) := by
  unfold Module.eret
  dsimp only
  rw [hs]
  dsimp only
  rw [if_pos hk, hd]
  rfl

theorem eret_ended {m : Module} {cid i : Nat} (hs : (m.core cid).sup.serving = some i) (hk : (m.supEntry cid i).kind = 1)
    (hd : (m.supEntry cid i).disp = 0) :
    m.eret cid =
      let key := Tab.get 64 (m.core cid).sup.keys i
      let ctl := m.ctlOf cid key
      (m.endJoin cid (if bit ctl.joina 63 then { ctl with joina := 0 } else ctl)).map fun m => (m.release cid key).disposed cid i key := by
  unfold Module.eret
  dsimp only
  rw [hs]
  dsimp only
  rw [if_pos hk, hd]
  rfl

theorem deferred_none {m : Module} {cid : Nat} (h : ∀ e ∈ (m.core cid).acts, e.2.defer = none) : m.deferred cid = m := by
  unfold Module.deferred
  have : (m.core cid).acts.find? (fun e => e.2.defer.isSome) = none := List.find?_eq_none.mpr fun e he => by simp [h e he]
  rw [this]

/-- Entry i has no V. -/
theorem supEntry_clearV {m : Module} {cid i : Nat} (hw : m.wordOk cid (supOff i) 64 = true)
    (hu : Unwatched m (m.lmAt cid (supOff i)) 64) (hwf : Mem.wf m.mem = true) : ((m.clearV cid (supOff i)).supEntry cid i).v = false := by
  have hu' : Unwatched m (m.lmAt cid (supOff i)) ({ FaultRec.decode (m.lmRead cid (supOff i) 64) with v := false }).encode.length := hu
  have hpid := (written_putWord (off := supOff i) hu').pid cid
  have hr := read_lmPut hu' hwf
  rw [FaultRec.encode_length] at hr
  have he : m.clearV cid (supOff i) = m.lmPut cid (supOff i) ({ FaultRec.decode (m.lmRead cid (supOff i) 64) with v := false }).encode := by
    unfold Module.clearV Module.putWord
    rw [FaultRec.encode_length, if_pos hw]
  have hl : (m.clearV cid (supOff i)).lmAt cid (supOff i) = m.lmAt cid (supOff i) := by
    rw [Module.lmAt, Module.clearV, hpid]; rfl
  rw [Module.supEntry, lmRead_sup, hl, he, hr, FaultRec.decode_encode]

/-- The trap activation of core cid, which has served entry i, is gone. -/
structure Disposed (m n : Module) (cid i : Nat) : Prop where
  acts : (n.core cid).acts = Tab.del (m.core cid).acts 64
  serving : (n.core cid).sup.serving = none
  desc : (n.core cid).desc = (m.core cid).desc
  ctx : ∀ k, (m.act cid 64).st = .issuing k → ((n.core cid).ctx k).act = none
  entry : (n.supEntry cid i).v = false
  mem : ∀ a, a < m.lmAt cid (supOff i) ∨ m.lmAt cid (supOff i) + 64 ≤ a → Mem.get n.mem a = Mem.get m.mem a
  pid : ∀ c, n.pid c = m.pid c

theorem Disposed.act {m n : Module} {cid i : Nat} (h : Disposed m n cid i) {k : Nat} (hk : k ≠ 64) : n.act cid k = m.act cid k := by
  rw [Module.act, Core.act, h.acts, Tab.get_del_other _ _ hk]
  rfl

theorem disposed_of {m : Module} {cid i key : Nat} (hw : m.wordOk cid (supOff i) 64 = true)
    (hu : Unwatched m (m.lmAt cid (supOff i)) 64) (hwf : Mem.wf m.mem = true) (hl : (m.act cid 64).late = [])
    (hd : ∀ e ∈ (m.core cid).acts, e.2.defer = none) : Disposed m (m.disposed cid i key) cid i := by
  have hwr : Written m (m.clearV cid (supOff i)) (m.lmAt cid (supOff i)) 64 := written_putWord (off := supOff i)
    (bs := ({ FaultRec.decode (m.lmRead cid (supOff i) 64) with v := false }).encode) hu
  have hv := supEntry_clearV hw hu hwf
  unfold Module.disposed
  extract_lets m1 m2 m3 m4
  have h2 : Left m1 m2 cid 64 := left_release (by rw [hwr.act]; exact hl)
  obtain ⟨x, hc1⟩ := hwr.core cid
  replace hc1 : m1.core cid = { m.core cid with ctxs := x } := hc1
  have hc3 : m3.core cid = { m2.core cid with sup := { (m2.core cid).sup with serving := none, keys := Tab.del (m2.core cid).sup.keys i } } :=
    Module.core_onCore ..
  replace hc3 : m4.core cid = { m2.core cid with sup := { (m2.core cid).sup with serving := none, keys := Tab.del (m2.core cid).sup.keys i } } :=
    hc3
  have hacts : (m4.core cid).acts = Tab.del (m.core cid).acts 64 := by
    rw [hc3, show (m2.core cid).acts = _ from h2.acts, hc1]
  have hdesc : (m4.core cid).desc = (m.core cid).desc := by
    rw [hc3, show (m2.core cid).desc = _ from h2.desc, hc1]
    rfl
  have hpid : ∀ c, m4.pid c = m1.pid c := h2.pid
  rw [deferred_none (m := m4) fun e he => hd e (Tab.mem_del (hacts ▸ he))]
  refine ⟨hacts, by rw [hc3], hdesc, fun k hk => ?_, ?_, fun a ha => ?_, fun c => (hpid c).trans (hwr.pid c)⟩
  · rw [hc3]
    exact h2.ctx k (by rw [hwr.act]; exact hk)
  · rw [Module.supEntry] at hv ⊢
    rw [Module.lmRead_same (m := m1) (m' := m4) h2.mem (by rw [hdesc, hc1]) (hpid cid)]
    exact hv
  · exact (congrArg (Mem.get · a) h2.mem).trans (hwr.mem a ha)

end Sys2Proof.Machine
end

section
/-!
PROOFS. ERET in a running machine, by the KIND and DISP of the entry it serves (R353, R421).
-/
namespace Sys2Proof.Machine
open Sys2Proof.Claims

/-! ## The control words of an activation without a window -/

theorem written_setCtl {m : Module} {cid key : Nat} {c : Ctl} (h : (m.act cid key).win = none)
    (hu : m.lmUsable cid ((m.act cid key).wp + 1280) 64 = true) (hwf : Mem.wf m.mem = true) :
    Written m (m.setCtl cid key c) (m.lmAt cid ((m.act cid key).wp + 1280)) 64 ∧
      Mem.read (m.setCtl cid key c).mem (m.lmAt cid ((m.act cid key).wp + 1280)) 64 = c.encode := by
  have hlen := Ctl.encode_length c
  have hread := Mem.read_write_same hwf (m.lmAt cid ((m.act cid key).wp + 1280)) c.encode
  rw [hlen] at hread
  have hw := written_touched m cid ((m.act cid key).wp + 1280) 64 (m.lmAt cid ((m.act cid key).wp + 1280)) 64
  rw [Module.setCtl_unbound h, if_pos hu]
  generalize c.encode = bs at hlen hread
  generalize m.touched cid ((m.act cid key).wp + 1280) 64 = n at hw
  refine ⟨⟨fun a ha => Mem.get_write_other _ _ _ _ (by rw [hlen]; exact ha), fun h => Mem.wf_write h _ _, hw.core, hw.ctx, hw.watched,
    hw.usable, hw.bad, hw.pid, ?_⟩, hread⟩
  exact congrArg (fun x : Module => { x with mem := Mem.write m.mem (m.lmAt cid ((m.act cid key).wp + 1280)) bs }) hw.rest

/-! ## The trap activation at its ERET -/

theorem begun_act_other (s : State) {k : Nat} (h : k ≠ s.key) : s.begun.m.act s.cid k = s.m.act s.cid k := by
  have hk : State.key { s with m := s.m.issue s.cid s.ctx, open_ := some s.groupNow } = s.key := State.key_of_issue s _
  have hb : s.begun.m = (s.m.issue s.cid s.ctx).setWin s.cid s.key s.begun.win := by
    rw [State.begun_win]
    simp only [State.begun, State.setPc, State.setWin_m, hk, State.win_of_issue]
  rw [hb, Module.setWin, Module.onAct, Module.act, Module.core_onCore, Core.act, Core.onAct, Core.setAct,
    Tab.get_put_other _ _ _ _ _ h]
  exact Module.issue_act ..

theorem begun_phys (s : State) : s.begun.m.phys = s.m.phys := by
  show (s.m.issue s.cid s.ctx).phys = s.m.phys
  unfold Module.issue
  split <;> rfl

theorem begun_usable (s : State) (c off n : Nat) : s.begun.m.lmUsable c off n = s.m.lmUsable c off n := by
  rw [Module.lmUsable_eq, Module.lmUsable_eq, State.begun_pid, Module.phy, begun_phys]
  rfl

theorem begun_supEntry (s : State) (i : Nat) : s.begun.m.supEntry s.cid i = s.m.supEntry s.cid i := by
  rw [Module.supEntry, State.begun_lmRead, Module.supEntry]

theorem begun_sup (s : State) : (s.begun.m.core s.cid).sup = (s.m.core s.cid).sup := by rw [State.begun_core]

theorem begun_lmAt (s : State) (off : Nat) : s.begun.m.lmAt s.cid off = s.m.lmAt s.cid off := by rw [Module.lmAt, State.begun_pid]; rfl

theorem begun_defer {s : State} (h : ∀ e ∈ s.core.acts, e.2.defer = none) : ∀ e ∈ (s.begun.m.core s.cid).acts, e.2.defer = none := by
  have hk : State.key { s with m := s.m.issue s.cid s.ctx, open_ := some s.groupNow } = s.key := State.key_of_issue s _
  have hb : s.begun.m = (s.m.issue s.cid s.ctx).setWin s.cid s.key s.begun.win := by
    rw [State.begun_win]
    simp only [State.begun, State.setPc, State.setWin_m, hk, State.win_of_issue]
  rw [hb, Module.setWin, Module.onAct, Module.core_onCore, Core.onAct, Core.setAct, Module.issue_core]
  intro e he
  rcases Tab.mem_put he with he | rfl
  · exact h e he
  · show (Tab.get {} (s.m.core s.cid).acts s.key).defer = none
    rcases Tab.get_mem {} (s.m.core s.cid).acts s.key with hm | hm
    · exact h _ hm
    · rw [hm]

theorem ctlOf_congr {m m' : Module} {cid k : Nat} (ha : m'.act cid k = m.act cid k) (hm : m'.mem = m.mem) (hp : m'.pid cid = m.pid cid) :
    m'.ctlOf cid k = m.ctlOf cid k := by
  unfold Module.ctlOf Module.rd Module.lmAt
  rw [ha, hm, hp]

theorem begun_ctlOf_other (s : State) {k : Nat} (h : k ≠ s.key) : s.begun.m.ctlOf s.cid k = s.m.ctlOf s.cid k := by
  exact ctlOf_congr (begun_act_other s h) (State.begun_mem s) (State.begun_pid ..)

/-- What ERET needs of the module in which it gives the entry up. -/
structure MayDispose (m : Module) (cid i : Nat) : Prop where
  words : m.wordOk cid (supOff i) 64 = true
  quiet : Unwatched m (m.lmAt cid (supOff i)) 64
  wf : Mem.wf m.mem = true
  late : (m.act cid 64).late = []
  defer : ∀ e ∈ (m.core cid).acts, e.2.defer = none

theorem MayDispose.disposed {m : Module} {cid i : Nat} (h : MayDispose m cid i) (key : Nat) : Disposed m (m.disposed cid i key) cid i :=
  disposed_of h.words h.quiet h.wf h.late h.defer

variable {s : State} {i : Nat}

theorem begun_trap (h : s.key = 64) : s.begun.m.act s.cid 64 = { s.act with win := some s.begun.win } := by
  have ha := State.begun_act s
  rw [State.act, State.begun_key, h] at ha
  exact ha

theorem mayDispose_begun (h : Serves s i) (ha : Alone s i) : MayDispose s.begun.m s.cid i := by
  refine ⟨(begun_usable s s.cid (supOff i) 64).trans ha.words, ?_, ?_, ?_, begun_defer ha.defer⟩
  · rw [begun_lmAt]
    exact (prepared_begun s).unwatched _ _ ha.quiet
  · rw [State.begun_mem]
    exact ha.wf
  · rw [begun_trap h.key]
    exact ha.late

theorem eret_leaves {m' : Module} (h : Serves s i) (hb : (s.m.supEntry s.cid i).kind = 1 → (s.m.supEntry s.cid i).disp < 2)
    (hw : s.begun.m.eretWaits s.cid = false) (he : s.begun.m.eret s.cid = some m') :
    exec .eret s = .next (s.leave { s.begun with m := m' }) := by
  have hserv : s.begun.core.sup.serving = some i := (congrArg SupQ.serving (begun_sup s)).trans h.serving
  refine runInstr_leaves h.running false _ ?_
  rw [Run.get_bind, State.begun_super, h.mode, State.begun_key, h.key]
  simp only [Bool.not_true, Run.stopIf_false, ne_eq, not_true_eq_false, decide_false]
  rw [noQueue_bind (by simpa using h.queue), hserv]
  have hbad : ((s.begun.m.supEntry s.begun.cid i).kind = 1 && decide (2 ≤ (s.begun.m.supEntry s.begun.cid i).disp)) = false := by
    rw [State.begun_cid, begun_supEntry]
    simpa using hb
  simp only [hbad, Run.stopIf_false]
  rw [releases_bind h.settled, State.begun_cid, hw, Run.stallIf_false, he]
  rfl

theorem eret_refused (h : Serves s i) (hk : (s.m.supEntry s.cid i).kind = 1) (hd : 2 ≤ (s.m.supEntry s.cid i).disp) :
    exec .eret s = .next (s.faulted { cause := .illop }) := by
  have hserv : s.begun.core.sup.serving = some i := (congrArg SupQ.serving (begun_sup s)).trans h.serving
  refine runInstr_faults h.running false _ false ?_
  rw [Run.get_bind, State.begun_super, h.mode, State.begun_key, h.key]
  simp only [Bool.not_true, Run.stopIf_false, ne_eq, not_true_eq_false, decide_false]
  rw [noQueue_bind (by simpa using h.queue), hserv]
  have hbad : ((s.begun.m.supEntry s.begun.cid i).kind = 1 && decide (2 ≤ (s.begun.m.supEntry s.begun.cid i).disp)) = true := by
    rw [State.begun_cid, begun_supEntry]
    simpa using ⟨hk, hd⟩
  simp only [hbad]
  rfl

theorem eret_user (hr : s.Running) (hm : s.super = false) : exec .eret s = .next (s.faulted { cause := .priv }) := by
  refine runInstr_faults hr false _ false ?_
  rw [Run.get_bind, State.begun_super, hm]
  rfl

theorem eret_elsewhere (hr : s.Running) (hm : s.super = true) (hk : s.key ≠ 64) : exec .eret s = .next (s.faulted { cause := .illop }) := by
  refine runInstr_faults hr false _ false ?_
  rw [Run.get_bind, State.begun_super, hm, State.begun_key]
  simp only [Bool.not_true, Run.stopIf_false, ne_eq, hk, not_false_eq_true, decide_true]
  rfl

/-! ## What it leaves -/

/-- A context that its activation has left keeps the module, but for the count of instructions. -/
theorem leave_m (s t : State) : (s.leave t).m = t.m.onCore t.cid fun c => { c with spec := { c.spec with inst := c.spec.inst + 1#64 } } := by
  unfold State.leave State.commit
  dsimp only
  split
  · rfl
  · split <;> rfl

theorem leave_core (s : State) (m : Module) : ∃ x, (s.leave { s.begun with m := m }).m.core s.cid = { m.core s.cid with spec := x } := by
  rw [leave_m]
  exact ⟨_, Module.core_onCore ..⟩

theorem leave_act (s : State) (m : Module) (k : Nat) : (s.leave { s.begun with m := m }).m.act s.cid k = m.act s.cid k := by
  obtain ⟨x, hx⟩ := leave_core s m
  rw [Module.act, hx]
  rfl

theorem leave_lmRead (s : State) (m : Module) (off n : Nat) : (s.leave { s.begun with m := m }).m.lmRead s.cid off n = m.lmRead s.cid off n := by
  obtain ⟨x, hx⟩ := leave_core s m
  refine Module.lmRead_same ?_ (by rw [hx]) ?_ off n
  · rw [leave_m]
    rfl
  · rw [leave_m]
    rfl

theorem leave_ctlOf (s : State) (m : Module) (k : Nat) : (s.leave { s.begun with m := m }).m.ctlOf s.cid k = m.ctlOf s.cid k := by
  refine ctlOf_congr (leave_act s m k) ?_ ?_
  · rw [leave_m]
    rfl
  · rw [leave_m]
    rfl

theorem ended_of {m m' : Module} (h : Disposed m m' s.cid i) (hst : (m.act s.cid 64).st = .issuing s.ctx) :
    Ended s (s.leave { s.begun with m := m' }) i := by
  obtain ⟨x, hx⟩ := leave_core s m'
  refine ⟨?_, ?_, ?_, ?_⟩
  · rw [hx]
    show Tab.find (m'.core s.cid).acts 64 = none
    rw [h.acts]
    exact Tab.find_del_same ..
  · rw [hx]
    exact h.ctx _ hst
  · rw [hx]
    exact h.serving
  · rw [Module.supEntry, leave_lmRead]
    exact h.entry

theorem trap_issues (h : Serves s i) : (s.begun.m.act s.cid 64).st = .issuing s.ctx := by
  rw [begun_trap h.key]
  exact h.ctx

/-! ## The kinds of entry -/

theorem eret_named (h : Serves s i) (ha : Alone s i) (hk : (s.m.supEntry s.cid i).kind ≠ 1) :
    ∃ t, exec .eret s = .next t ∧ Ended s t i ∧ ∀ k, k ≠ 64 → t.m.act s.cid k = s.m.act s.cid k := by
  have hserv : (s.begun.m.core s.cid).sup.serving = some i := (congrArg SupQ.serving (begun_sup s)).trans h.serving
  have hd := (mayDispose_begun h ha).disposed (Tab.get 64 (s.begun.m.core s.cid).sup.keys i)
  have hw : s.begun.m.eretWaits s.cid = false := by
    unfold Module.eretWaits
    rw [hserv]
    simp [begun_supEntry, hk]
  refine ⟨_, eret_leaves h (fun hc => absurd hc hk) hw (eret_other hserv (by rw [begun_supEntry]; exact hk)), ended_of hd (trap_issues h),
    fun k hk => ?_⟩
  rw [leave_act, hd.act hk, begun_act_other s (by rw [h.key]; exact hk)]

end Sys2Proof.Machine
end

section
/-!
PROOFS. ERET for an entry of KIND 1 (R353): the activation that it names resumes or ends.
-/
namespace Sys2Proof.Machine
open Sys2Proof.Claims

variable {s : State} {i : Nat}

/-! ## DISP 1 -/

/-- The activation in slot key, made READY with control words c. -/
def Module.resumed (m : Module) (cid key : Nat) (c : Ctl) : Module :=
  let m := m.setCtl cid key c
  m.onAct cid key fun a => { a with st := .ready, since := m.time, aged := m.time, hcyc := 0, wait := .nothing }

/-- What the resumption leaves of the module. -/
structure Resumed (m n : Module) (cid key : Nat) (c : Ctl) : Prop where
  act : (n.act cid key).st = .ready ∧ (n.act cid key).win = none ∧ (n.act cid key).wp = (m.act cid key).wp
  others : ∀ k, k ≠ key → n.act cid k = m.act cid k
  read : Mem.read n.mem (m.lmAt cid ((m.act cid key).wp + 1280)) 64 = c.encode
  pid : ∀ c, n.pid c = m.pid c
  may : ∀ i, key ≠ 64 → MayDispose m cid i → MayDispose n cid i

theorem resumed_of {m : Module} {cid key : Nat} {c : Ctl} (h : (m.act cid key).win = none)
    (hu : m.lmUsable cid ((m.act cid key).wp + 1280) 64 = true) (hwf : Mem.wf m.mem = true) :
    Resumed m (m.resumed cid key c) cid key c := by
  obtain ⟨hw, hr⟩ := written_setCtl (c := c) h hu hwf
  unfold Module.resumed
  dsimp only
  generalize m.setCtl cid key c = n at hw hr
  have hact : (n.onAct cid key fun a => { a with st := .ready, since := n.time, aged := n.time, hcyc := 0, wait := .nothing }).act cid key =
      { n.act cid key with st := .ready, since := n.time, aged := n.time, hcyc := 0, wait := .nothing } := Module.act_onAct ..
  have hother : ∀ k, k ≠ key → (n.onAct cid key fun a =>
      { a with st := .ready, since := n.time, aged := n.time, hcyc := 0, wait := .nothing }).act cid k = m.act cid k := fun k hk => by
    rw [Module.onAct, Module.act, Module.core_onCore, Core.act, Core.onAct, Core.setAct, Tab.get_put_other _ _ _ _ _ hk]
    exact hw.act cid k
  refine ⟨?_, hother, hr, hw.pid, fun i hk hm => ?_⟩
  · rw [hact, hw.act]
    exact ⟨rfl, h, rfl⟩
  · obtain ⟨hwords, hquiet, hwf, hlate, hdefer⟩ := hm
    obtain ⟨x, hx⟩ := hw.core cid
    have hun := hw.unwatched hquiet
    rw [← hw.lmAt] at hun
    refine ⟨(hw.usable cid (supOff i) 64).trans hwords, ⟨?_, hun.2⟩, hw.wf hwf, ?_, fun e he => ?_⟩
    · refine watched_onCore ?_ hun.1
      exact fun _ => rfl
    · rw [hother 64 hk.symm]
      exact hlate
    · rw [Module.onAct, Module.core_onCore, hx] at he
      rcases Tab.mem_put he with he | rfl
      · exact hdefer e he
      · show (Tab.get {} (m.core cid).acts key).defer = none
        rcases Tab.get_mem {} (m.core cid).acts key with hm | hm
        · exact hdefer _ hm
        · rw [hm]

/-- The serving of an entry of KIND 1, seen from the begun state. -/
theorem begun_serving (h : Serves s i) : (s.begun.m.core s.cid).sup.serving = some i ∧
    Tab.get 64 (s.begun.m.core s.cid).sup.keys i = named s i := by
  rw [begun_sup]
  exact ⟨h.serving, rfl⟩

theorem eret_resumes (h : Serves s i) (ha : Alone s i) (hk : (s.m.supEntry s.cid i).kind = 1) (hd : (s.m.supEntry s.cid i).disp = 1)
    (hn : named s i < 64) (hwin : (s.m.act s.cid (named s i)).win = none) (hwp : (s.m.act s.cid (named s i)).wp + 1344 ≤ 0x7FC40)
    (hok : s.m.wordOk s.cid ((s.m.act s.cid (named s i)).wp + 1280) 64 = true) :
    ∃ t, exec .eret s = .next t ∧ Ended s t i ∧ (t.m.act s.cid (named s i)).st = .ready ∧
      (t.m.ctlOf s.cid (named s i)).cls = 4#3 ∧ (t.m.ctlOf s.cid (named s i)).pc = (s.m.ctlOf s.cid (named s i)).pc ∧
      ∀ k, k ≠ 64 → k ≠ named s i → t.m.act s.cid k = s.m.act s.cid k := by
  obtain ⟨hserv, hname⟩ := begun_serving h
  have hne : named s i ≠ s.key := by rw [h.key]; omega
  have hact := begun_act_other s hne
  have hm := mayDispose_begun h ha
  let ctl := s.begun.m.ctlOf s.cid (named s i)
  let c : Ctl := { ctl with cls := 4#3, waitk := if swUpc ctl.sw then ctl.waitk else 0#4 }
  have hres : Resumed s.begun.m (s.begun.m.resumed s.cid (named s i) c) s.cid (named s i) c :=
    resumed_of (by rw [hact]; exact hwin) (by rw [hact, begun_usable]; exact hok) hm.wf
  have hdis := (hres.may i (by omega) hm).disposed (named s i)
  have hw : s.begun.m.eretWaits s.cid = false := by
    unfold Module.eretWaits
    rw [hserv]
    simp [begun_supEntry, hd]
  have he : s.begun.m.eret s.cid = some ((s.begun.m.resumed s.cid (named s i) c).disposed s.cid i (named s i)) := by
    rw [eret_resumed hserv (by rw [begun_supEntry]; exact hk) (by rw [begun_supEntry]; exact hd), hname]
    rfl
  have hst : ((s.begun.m.resumed s.cid (named s i) c).act s.cid 64).st = .issuing s.ctx := by
    rw [hres.others 64 (by omega)]
    exact trap_issues h
  have hctl : (s.leave { s.begun with m := (s.begun.m.resumed s.cid (named s i) c).disposed s.cid i (named s i) }).m.ctlOf s.cid (named s i) =
      { c with sw := c.sw &&& swMask } := by
    have hl : ∀ off, (s.begun.m.resumed s.cid (named s i) c).lmAt s.cid off = s.begun.m.lmAt s.cid off := fun off => by
      rw [Module.lmAt, hres.pid]; rfl
    have hl' : ∀ off, ((s.begun.m.resumed s.cid (named s i) c).disposed s.cid i (named s i)).lmAt s.cid off = s.begun.m.lmAt s.cid off :=
      fun off => by rw [Module.lmAt, hdis.pid, hres.pid]; rfl
    rw [leave_ctlOf, Module.ctlOf, hdis.act (by omega), hres.act.2.1, hres.act.2.2, hl', Module.rd]
    show Ctl.decode (Mem.read _ _ 64) = _
    rw [read_congr (mem := (s.begun.m.resumed s.cid (named s i) c).mem) fun b _ hb => hdis.mem b (.inl ?_), hres.read, Ctl.decode_encode]
    rw [hl]
    refine below_queue (wp := (s.m.act s.cid (named s i)).wp) hwp ?_
    rw [hact] at hb
    exact hb
  refine ⟨_, eret_leaves h (fun _ => by omega) hw he, ended_of hdis hst, ?_, ?_, ?_, fun k hk hkn => ?_⟩
  · rw [leave_act, hdis.act (by omega)]
    exact hres.act.1
  · rw [hctl]
  · rw [hctl, ← begun_ctlOf_other s hne]
  · rw [leave_act, hdis.act hk, hres.others k hkn, begun_act_other s (by rw [h.key]; exact hk)]

/-! ## DISP 0 -/

theorem Left.act {m n : Module} {cid key : Nat} (h : Left m n cid key) {k : Nat} (hk : k ≠ key) : n.act cid k = m.act cid k := by
  rw [Module.act, Core.act, h.acts, Tab.get_del_other _ _ hk]
  rfl

theorem Left.may {m n : Module} {cid key i : Nat} (h : Left m n cid key) (hk : 64 ≠ key) (hm : MayDispose m cid i) : MayDispose n cid i := by
  obtain ⟨hwords, hquiet, hwf, hlate, hdefer⟩ := hm
  refine ⟨?_, ?_, by rw [h.mem]; exact hwf, by rw [h.act hk]; exact hlate, fun e he => hdefer e (Tab.mem_del (h.acts ▸ he))⟩
  · rw [← hwords, Module.wordOk, Module.wordOk, Module.lmUsable_eq, Module.lmUsable_eq, h.pid, Module.phy, h.phys]
    rfl
  · rw [Module.lmAt, h.pid]
    exact h.unwatched _ _ hquiet

theorem eret_ends (h : Serves s i) (ha : Alone s i) (hk : (s.m.supEntry s.cid i).kind = 1) (hd : (s.m.supEntry s.cid i).disp = 0)
    (hn : named s i < 64) (hl : (s.m.act s.cid (named s i)).late = [])
    (hj : (s.m.ctlOf s.cid (named s i)).joina = 0#64 ∨ bit (s.m.ctlOf s.cid (named s i)).joina 63 = true) :
    ∃ t, exec .eret s = .next t ∧ Ended s t i ∧ Tab.find (t.m.core s.cid).acts (named s i) = none ∧
      bit (t.m.core s.cid).desc.held (named s i) = false ∧ ∀ k, k ≠ 64 → k ≠ named s i → t.m.act s.cid k = s.m.act s.cid k := by
  obtain ⟨hserv, hname⟩ := begun_serving h
  have hne : named s i ≠ s.key := by rw [h.key]; omega
  have hact := begun_act_other s hne
  have hctl := begun_ctlOf_other s hne
  have hleft : Left s.begun.m (s.begun.m.release s.cid (named s i)) s.cid (named s i) := left_release (by rw [hact]; exact hl)
  have hdis := (hleft.may (by omega) (mayDispose_begun h ha)).disposed (named s i)
  have hw : s.begun.m.eretWaits s.cid = false := by
    unfold Module.eretWaits
    rw [hserv]
    dsimp only
    rw [hname, hctl]
    rcases hj with hj | hj <;> simp [hj]
  have he : s.begun.m.eret s.cid = some ((s.begun.m.release s.cid (named s i)).disposed s.cid i (named s i)) := by
    rw [eret_ended hserv (by rw [begun_supEntry]; exact hk) (by rw [begun_supEntry]; exact hd), hname]
    dsimp only
    rw [hctl]
    have hend : ∀ c : Ctl, c.joina = 0#64 → s.begun.m.endJoin s.cid c = some s.begun.m := fun c hc => by
      unfold Module.endJoin
      exact if_pos hc
    rw [hend _ _, Option.map_some]
    split
    · rfl
    next hb => exact hj.resolve_right hb
  have hst : ((s.begun.m.release s.cid (named s i)).act s.cid 64).st = .issuing s.ctx := by
    rw [hleft.act (by omega)]
    exact trap_issues h
  obtain ⟨x, hx⟩ := leave_core s ((s.begun.m.release s.cid (named s i)).disposed s.cid i (named s i))
  refine ⟨_, eret_leaves h (fun _ => by omega) hw he, ended_of hdis hst, ?_, ?_, fun k hk hkn => ?_⟩
  · rw [hx]
    show Tab.find (Module.core _ s.cid).acts (named s i) = none
    rw [hdis.acts, hleft.acts, Tab.find_del_other _ (by omega)]
    exact Tab.find_del_same ..
  · rw [hx]
    show bit (Module.core _ s.cid).desc.held (named s i) = false
    rw [hdis.desc, hleft.desc, if_pos hn]
    exact (bit_setBits_one _ (named s i) 0 hn).trans (if_pos rfl)
  · rw [leave_act, hdis.act hk, hleft.act hkn, begun_act_other s (by rw [h.key]; exact hk)]

/-! ## DISP 0 with a join word -/

theorem released_vacated_any (m : Module) (cid key : Nat) : Released cid key (fun _ => False) (m.vacated cid key) := by
  obtain ⟨x, j, hc⟩ := vacated_core m cid key
  refine ⟨?_, ?_, fun _ h => h.elim, fun o ho => ?_, fun w hw => ?_⟩
  · rw [hc]
    exact Tab.find_del_same ..
  · rw [hc]
    dsimp only
    split
    next hk => exact (bit_setBits_one _ key 0 hk).trans (if_pos rfl)
    next hk => exact BitVec.getLsbD_of_ge _ _ (by omega)
  · rw [hc] at ho
    simpa using (List.mem_filter.mp ho).2
  · rw [(vacated_rest m cid key).2.2.2] at hw
    rintro ⟨hc, hn⟩
    simp [hc, hn] at hw

theorem Released.vacated {cid key : Nat} {K : Nat → Prop} {m : Module} (h : Released cid key K m) (other : Nat) :
    Released cid key (fun _ => False) (m.vacated cid other) := by
  obtain ⟨x, j, hc⟩ := vacated_core m cid other
  refine ⟨?_, ?_, fun _ h => h.elim, fun o ho => ?_, fun w hw => ?_⟩
  · rw [hc]
    by_cases he : key = other
    · subst he
      exact Tab.find_del_same ..
    · exact (Tab.find_del_other _ he).trans h.act
  · rw [hc]
    dsimp only
    split
    · by_cases hk : key < 64
      · refine (bit_setBits_one _ other 0 hk).trans ?_
        split
        · rfl
        · exact h.held
      · exact BitVec.getLsbD_of_ge _ _ (by omega)
    · exact h.held
  · rw [hc] at ho
    exact h.mons o (List.mem_of_mem_filter ho)
  · rw [(vacated_rest m cid other).2.2.2] at hw
    exact h.bwait w (List.mem_of_mem_filter hw)

theorem released_release (m : Module) (cid key : Nat) : Released cid key (fun _ => False) (m.release cid key) := by
  rw [Module.release_eq]
  exact Released.foldl (fun _ => True) (fun _ _ => trivial) _ (fun m x _ h => h.lateAway ..)
    ((released_vacated_any m cid key).of_portsOnly (portsOnly_closePorts ..))

theorem Released.release {cid key : Nat} {K : Nat → Prop} {m : Module} (h : Released cid key K m) (other : Nat) :
    Released cid key (fun _ => False) (m.release cid other) := by
  rw [Module.release_eq]
  exact Released.foldl (fun _ => True) (fun _ _ => trivial) _ (fun m x _ h => h.lateAway ..)
    ((h.vacated other).of_portsOnly (portsOnly_closePorts ..))

theorem ne_of_find_none {α : Type} {t : Tab α} {k : Nat} (h : Tab.find t k = none) {e : Nat × α} (he : e ∈ t) : e.1 ≠ k := by
  induction t with
  | nil => cases he
  | cons x t ih =>
    obtain ⟨j, v⟩ := x
    rw [Tab.find] at h
    split at h
    · cases h
    next hj =>
      rcases List.mem_cons.mp he with rfl | he
      · exact fun hc => hj hc.symm
      · exact ih h he

theorem Released.pushSup {cid key : Nat} {K : Nat → Prop} {m n : Module} (h : Released cid key K m) {c : Nat} {r : FaultRec}
    (hp : m.pushSup c r = some n) : Released cid key K n := by
  unfold Module.pushSup at hp
  dsimp only at hp
  split at hp
  · cases hp
  · cases hp
    exact (h.lmPut ..).onCore _ _ ⟨rfl, rfl, rfl, rfl⟩

theorem pushSup_serving {m n : Module} {cid : Nat} {r : FaultRec} (hp : m.pushSup cid r = some n) :
    (n.core cid).sup.serving = (m.core cid).sup.serving := by
  unfold Module.pushSup at hp
  dsimp only at hp
  split at hp
  · cases hp
  · generalize m.lmPut cid _ _ = o at hp
    cases hp
    rw [Module.core_onCore]

theorem Released.deferred {cid key : Nat} {K : Nat → Prop} {m : Module} (h : Released cid key K m) : Released cid key K (m.deferred cid) := by
  unfold Module.deferred
  split
  next k a hf =>
    have hk : k ≠ key := ne_of_find_none h.act (List.mem_of_find?_eq_some hf)
    dsimp only
    split
    next n hp => exact ((h.pushSup hp).onAct (fun hc => hk hc.2) _).onCore _ _ ⟨rfl, rfl, rfl, rfl⟩
    · exact h
  · exact h

theorem deferred_serving {m : Module} {cid : Nat} (h : (m.core cid).sup.serving = none) : ((m.deferred cid).core cid).sup.serving = none := by
  unfold Module.deferred
  split
  next k a hf =>
    dsimp only
    split
    next n hp =>
      rw [Module.core_onCore, Module.onAct, Module.core_onCore]
      exact (pushSup_serving hp).trans h
    · exact h
  · exact h

theorem Released.clearV {cid key : Nat} {K : Nat → Prop} {m : Module} (h : Released cid key K m) (c off : Nat) :
    Released cid key K (m.clearV c off) := by
  unfold Module.clearV Module.putWord
  split
  · exact h.lmPut ..
  · exact h

/-- However much is pending, the trap activation and the one that it has served are gone. -/
theorem disposed_gone (m : Module) (cid i key : Nat) : (((m.release cid key).disposed cid i key).core cid).sup.serving = none ∧
    Tab.find (((m.release cid key).disposed cid i key).core cid).acts 64 = none ∧
    Tab.find (((m.release cid key).disposed cid i key).core cid).acts key = none := by
  unfold Module.disposed
  extract_lets m1 m2 m3 m4
  have h1 : Released cid key (fun _ => False) m1 := (released_release m cid key).clearV ..
  have h2 : Released cid key (fun _ => False) m2 := h1.release 64
  have h3 : Released cid key (fun _ => False) m3 := h2.onCore cid _ ⟨rfl, rfl, rfl, rfl⟩
  have h4 : Released cid key (fun _ => False) m4 := h3.congr rfl rfl (fun _ => rfl) rfl rfl
  have k2 : Released cid 64 (fun _ => False) m2 := released_release m1 cid 64
  have k3 : Released cid 64 (fun _ => False) m3 := k2.onCore cid _ ⟨rfl, rfl, rfl, rfl⟩
  have k4 : Released cid 64 (fun _ => False) m4 := k3.congr rfl rfl (fun _ => rfl) rfl rfl
  have hs : (m3.core cid).sup.serving = none := congrArg (fun c : Core => c.sup.serving) (Module.core_onCore ..)
  exact ⟨deferred_serving (m := m4) hs, k4.deferred.act, h4.deferred.act⟩

theorem eret_joins {m : Module} (h : Serves s i) (hk : (s.m.supEntry s.cid i).kind = 1) (hd : (s.m.supEntry s.cid i).disp = 0)
    (h63 : bit (s.begun.m.ctlOf s.cid (named s i)).joina 63 = false)
    (hu : s.begun.m.unwritten s.cid (s.begun.m.ctlOf s.cid (named s i)).aid = false)
    (hf : s.begun.m.unflushed s.cid (s.begun.m.ctlOf s.cid (named s i)).aid = false)
    (hj : s.begun.m.endJoin s.cid (s.begun.m.ctlOf s.cid (named s i)) = some m) :
    ∃ t, exec .eret s = .next t ∧ (t.m.core s.cid).sup.serving = none ∧ Tab.find (t.m.core s.cid).acts 64 = none ∧
      Tab.find (t.m.core s.cid).acts (named s i) = none := by
  obtain ⟨hserv, hname⟩ := begun_serving h
  have hw : s.begun.m.eretWaits s.cid = false := by
    unfold Module.eretWaits
    rw [hserv]
    dsimp only
    rw [hname, hu, hf]
    simp
  have he : s.begun.m.eret s.cid = some ((m.release s.cid (named s i)).disposed s.cid i (named s i)) := by
    rw [eret_ended hserv (by rw [begun_supEntry]; exact hk) (by rw [begun_supEntry]; exact hd), hname]
    dsimp only
    rw [h63, if_neg (by decide), hj, Option.map_some]
  obtain ⟨hs, h64, hn⟩ := disposed_gone m s.cid i (named s i)
  obtain ⟨x, hx⟩ := leave_core s ((m.release s.cid (named s i)).disposed s.cid i (named s i))
  refine ⟨_, eret_leaves h (fun _ => by omega) hw he, ?_⟩
  rw [hx]
  exact ⟨hs, h64, hn⟩

end Sys2Proof.Machine

namespace Sys2Proof.Claims
open Sys2Proof.Machine

/-- Settles O54: each return by what its record or its entry says. -/
theorem exceptionReturns : Obligations.ExceptionReturns := by
  unfold Obligations.ExceptionReturns
  refine ⟨fun s hr hu => uret_illop hr hu, fun s m' h hc => uret_stands h hc, fun s f h hf => ?_,
    fun s hr hu hl hs => ⟨fun hp hc => uret_cancelled hr hu hl hs hp hc, fun hp => uret_waits hr hu hl hs hp⟩,
    fun s hr hm => eret_user hr hm, fun s hr hm hk => eret_elsewhere hr hm hk, fun s i h hk hd => eret_refused h hk hd,
    fun s i h ha hk => eret_named h ha hk, fun s i h ha hk hd hn hwin hwp hok => eret_resumes h ha hk hd hn hwin hwp hok,
    fun s i h ha hk hd hn hl hj => eret_ends h ha hk hd hn hl hj, fun s i m h hk hd _ _ h63 hu hf hj _ => eret_joins h hk hd h63 hu hf hj⟩
  refine uret_back h (fillTarget_faults (f := f) ?_) ⟨fun _ _ => rfl, fun _ _ => rfl⟩ (State.begun_lmRead s · 64)
  exact hf

end Sys2Proof.Claims
end

section
/-!
PROOFS. The stream instructions SOPEN, SCLOSE and SBIND (R277, R311, R313, R467, R468).
-/
namespace Sys2Proof.Machine
open Sys2Proof.Claims

/-- Operands in address roles leave the core and the activation that issues as they were. -/
theorem operands_addr_issuer {l : List Src} {dst : Option (Put × Opnd)} {s t : State} {vs : List Word} (ha : ∀ o ∈ l, o.use = .addr)
    (h : operands l dst s = .ok (vs, t)) : t.cid = s.cid ∧ t.aid = s.aid := by
  obtain ⟨w, rfl, -, -, hctl⟩ := operands_addr_state ha h
  refine ⟨rfl, ?_⟩
  rw [State.aid, State.win_setWin, hctl]
  rfl

theorem streamOperands_bind {β : Type} {s : State} {l : List Word} {i n : Nat} {recv : Bool} (h : StreamWord s (arg l i) n recv)
    (f : Nat × Bool → Run β) : (streamOperands l i >>= f) s = f (n, recv) s := by
  refine Run.bind_ok ?_
  dsimp only [streamOperands]
  rw [decide_eq_false (not_not.mpr h.zero), Run.stopIf_false, noHandler_bind h.hnd, h.num, h.dir]
  rfl

theorem checkHandle_bind {β : Type} {s : State} {h : Word} (hok : s.m.handleOk (siteOf s.cid) h = true) (f : Unit → Run β) :
    (checkHandle h >>= f) s = f () s := by
  refine Run.bind_ok ?_
  rw [checkHandle, Run.get_bind, hok]
  rfl

theorem checkHandle_bind_of_imp {β : Type} {s : State} {h : Word} {c : Prop} [Decidable c]
    (hok : c → s.m.handleOk (siteOf s.cid) h = true) (f : Unit → Run β) : (if c then checkHandle h >>= f else f ()) s = f () s := by
  split
  next hc => exact checkHandle_bind (hok hc) f
  next => rfl

end Sys2Proof.Machine

namespace Sys2Proof.Claims
open Sys2Proof.Machine

/-- SOPEN of a receive port (R311, R468). -/
theorem sopen_receives {f : Bin} {s s1 : State} {l : List Word} {n : Nat}
    (hr : Reads s [⟨f.b, f.kb, .addr⟩, ⟨f.c, f.kc, .addr⟩] (some (.reg, f.a)) l s1) (hw : StreamWord s1 (arg l 1) n true)
    (hok : f.b ≠ 41#6 → s1.m.handleOk (siteOf s1.cid) (arg l 0) = true) (s2 : State) :
    (s1.core.boundTo s1.aid n = true → writeDst f.a 3#64 s1 = .ok ((), s2) → exec (.sopen f) s = .next (s.retire s2)) ∧
    (s1.core.boundTo s1.aid n = false → (Tab.find s1.core.ports.recv n).isSome = true → writeDst f.a 4#64 s1 = .ok ((), s2) →
      exec (.sopen f) s = .next (s.retire s2)) ∧
    (s1.core.boundTo s1.aid n = false → Tab.find s1.core.ports.recv n = none →
      let from_ := if f.b = 41#6 then none
        else if bits (arg l 0) 31 16 = s1.m.modnum.toNat then s1.m.coreOfVcn (siteOf s1.cid) (bits (arg l 0) 15 0) else some niAgent
      writeDst f.a 0#64 (onPorts s1 fun p =>
        { p with recv := Tab.put p.recv n { aid := s1.aid, from_ := from_, last := s1.m.time } }) = .ok ((), s2) →
      exec (.sopen f) s = .next (s.retire s2)) := by
  refine ⟨fun hb h => ?_, fun hb hp h => ?_, fun hb hp h => ?_⟩ <;>
    refine run_retires hr.1 _ ((Run.bind_ok hr.2).trans ((streamOperands_bind hw _).trans ((Run.get_bind _ s1).trans
      ((congrFun (if_pos rfl) s1).trans ((checkHandle_bind_of_imp hok _).trans ?_))))) <;> dsimp only
  · rw [if_pos hb]
    exact h
  · rw [if_neg (by rw [hb]; decide), if_pos hp]
    exact h
  · rw [if_neg (by rw [hb]; decide), hp]
    exact h

/-- SOPEN of a send port (R311, R468). -/
theorem sopen_sends {f : Bin} {s s1 : State} {l : List Word} {n : Nat}
    (hr : Reads s [⟨f.b, f.kb, .addr⟩, ⟨f.c, f.kc, .addr⟩] (some (.reg, f.a)) l s1) (hw : StreamWord s1 (arg l 1) n false)
    (hok : s1.m.handleOk (siteOf s1.cid) (arg l 0) = true) (hmod : bits (arg l 0) 31 16 = s1.m.modnum.toNat) (s2 : State) :
    let mine := s1.core.ports.send.any fun p => p.aid == s1.aid && !p.closing
    let used := (s1.core.ports.send.filter fun p => !p.closing).length
    (mine = true → writeDst f.a 1#64 s1 = .ok ((), s2) → exec (.sopen f) s = .next (s.retire s2)) ∧
    (mine = false → 4 ≤ used → writeDst f.a 2#64 s1 = .ok ((), s2) → exec (.sopen f) s = .next (s.retire s2)) ∧
    (∀ d, mine = false → used < 4 → s1.m.coreOfVcn (siteOf s1.cid) (bits (arg l 0) 15 0) = some d →
      writeDst f.a 0#64 (onPorts s1 fun p => { p with send := p.send ++ [{ aid := s1.aid, dcid := d, n := n, last := s1.m.time }] })
        = .ok ((), s2) → exec (.sopen f) s = .next (s.retire s2)) := by
  refine ⟨fun hm h => ?_, fun hm hu h => ?_, fun d hm hu hd h => ?_⟩ <;>
    refine run_retires hr.1 _ ((Run.bind_ok hr.2).trans ((streamOperands_bind hw _).trans ((Run.get_bind _ s1).trans
      ((congrFun (if_neg Bool.false_ne_true) s1).trans ((checkHandle_bind hok _).trans ?_))))) <;>
    rw [decide_eq_false (not_not.mpr hmod), Run.stopIf_false] <;> dsimp only
  · rw [if_pos hm]
    exact h
  · rw [if_neg (by rw [hm]; decide), if_pos hu]
    exact h
  · rw [if_neg (by rw [hm]; decide), if_neg (by omega), hd]
    exact h

/-- SCLOSE (R311, R313, R468). -/
theorem sclose_closes {f : ScloseF} {s s1 : State} {l : List Word} {n : Nat} (hr : Reads s [⟨f.c, f.kc, .addr⟩] (some (.reg, f.a)) l s1)
    (s2 : State) :
    (StreamWord s1 (arg l 0) n true →
      ((Tab.find s1.core.ports.recv n).any (·.aid == s1.aid) = true →
        writeDst f.a 0#64 { s1 with m := s1.m.endRecv s1.cid n } = .ok ((), s2) → exec (.sclose f) s = .next (s.retire s2)) ∧
      ((Tab.find s1.core.ports.recv n).any (·.aid == s1.aid) = false → writeDst f.a 1#64 s1 = .ok ((), s2) →
        exec (.sclose f) s = .next (s.retire s2))) ∧
    (StreamWord s1 (arg l 0) n false →
      ((s1.core.ports.send.any fun p => p.aid == s1.aid && !p.closing) = false → writeDst f.a 1#64 s1 = .ok ((), s2) →
        exec (.sclose f) s = .next (s.retire s2)) ∧
      (∀ p, s1.core.ports.send.find? (fun p => p.aid == s1.aid && !p.closing) = some p → p.route ≠ 3 →
        writeDst f.a 0#64 { s1 with m := s1.m.onCore s1.cid fun c => c.closeSend s1.aid } = .ok ((), s2) →
        exec (.sclose f) s = .next (s.retire s2)) ∧
      (∀ p, s1.core.ports.send.find? (fun p => p.aid == s1.aid && !p.closing) = some p → p.route = 3 →
        exec (.sclose f) s = .next (s.faulted { cause := .streambrk, side := [.sport s.cid s.aid] }))) := by
  refine ⟨fun hw => ⟨fun hp h => ?_, fun hp h => ?_⟩, fun hw => ⟨fun hp h => ?_, fun p hp hroute h => ?_, fun p hp hroute => ?_⟩⟩
  · refine run_retires hr.1 _ ((Run.bind_ok hr.2).trans ((streamOperands_bind hw _).trans ((Run.get_bind _ s1).trans
      ((congrFun (if_pos rfl) s1).trans ((congrFun (if_pos hp) s1).trans h)))))
  · refine run_retires hr.1 _ ((Run.bind_ok hr.2).trans ((streamOperands_bind hw _).trans ((Run.get_bind _ s1).trans
      ((congrFun (if_pos rfl) s1).trans ((congrFun (if_neg (by rw [hp]; decide)) s1).trans h)))))
  · have hnone : s1.core.ports.send.find? (fun p => p.aid == s1.aid && !p.closing) = none :=
      List.find?_eq_none.mpr (List.any_eq_false.mp hp)
    refine run_retires hr.1 _ ((Run.bind_ok hr.2).trans ((streamOperands_bind hw _).trans ((Run.get_bind _ s1).trans
      ((congrFun (if_neg Bool.false_ne_true) s1).trans ?_))))
    rw [hnone]
    exact h
  · refine run_retires hr.1 _ ((Run.bind_ok hr.2).trans ((streamOperands_bind hw _).trans ((Run.get_bind _ s1).trans
      ((congrFun (if_neg Bool.false_ne_true) s1).trans ?_))))
    rw [hp]
    dsimp only
    rw [if_neg hroute]
    exact h
  · obtain ⟨hcid, haid⟩ := operands_addr_issuer (by simp) hr.2
    refine run_faults hr.1 _ ((Run.bind_ok hr.2).trans ((streamOperands_bind hw _).trans ((Run.get_bind _ s1).trans
      ((congrFun (if_neg Bool.false_ne_true) s1).trans ?_))))
    rw [hp]
    dsimp only
    rw [if_pos hroute, hcid, haid, State.begun_cid, State.begun_aid]
    rfl

/-- Settles O43: each stream instruction follows the state of the ports that it finds. -/
theorem streamInstructions : Obligations.StreamInstructions := by
  refine ⟨fun f s s1 s2 l n hr hw hok => sopen_receives hr hw hok s2, fun f s s1 s2 l n hr hw hok hmod => sopen_sends hr hw hok hmod s2,
    fun f s s1 s2 l n hr => sclose_closes hr s2, fun f s s1 s2 l hr => ⟨fun k hk h => ?_, fun hk h => ?_⟩⟩ <;>
    refine run_retires hr.1 _ ((Run.bind_ok hr.2).trans ((Run.get_bind _ s1).trans ?_)) <;> rw [hk] <;> exact h

end Sys2Proof.Claims
end

section
/-!
PROOFS. Messages (R301–R303, R309, R310, R471): SEND, SENDX and MCAST.
-/
namespace Sys2Proof.Machine
open Sys2Proof.Claims

/-- What a look at one source of the address roles gives, when all of them can be read. -/
theorem peek_addr {l : List Src} {dst : Option (Put × Opnd)} {s t : State} {vs : List Word} (ha : ∀ o ∈ l, o.use = .addr)
    (h : operands l dst s = .ok (vs, t)) {i : Nat} {o : Src} (hi : l[i]? = some o) : peek o s = .ok (some (arg vs i), s) := by
  have hi' := congrArg (·[i]?) (operands_addr ha h)
  simp only [List.getElem?_map, hi, Option.map_some] at hi'
  obtain ⟨v, hv, hp⟩ := Option.map_eq_some_iff.mp hi'.symm
  obtain ⟨u, hu⟩ := operands_plain (s := s) (l := [o]) (vs := [v]) (by simp [← hp])
  rw [peek, hu, arg, List.getD_eq_getElem?_getD, hv]
  rfl

/-- The counter of RSH, taken where an instruction rounds under it (R94, R148). -/
theorem takeCounter_bind_of {β : Type} (b : Bool) (s : State) (f : BitVec 32 → Run β) :
    (takeCounter b >>= f) s = f (swRshc s.sw) (if b then withSw s swTick else s) := by
  cases b <;> rfl

theorem payloadOf_bind {β : Type} {s t : State} {c : Word} {len : Nat} {bs : List Byte} {between : Run Unit} (h : Payload s c len bs t)
    (hb : ∀ f : Unit → Run (List Byte), (between >>= f) s = f () s) (f : List Byte → Run β) :
    (payloadOf c len between >>= f) s = f bs t := by
  refine Run.bind_ok ?_
  obtain ⟨m', hread, rfl⟩ := h.read
  have hin : decide (2 ^ 19 < c.toNat + len) = false := decide_eq_false (not_lt.mpr h.inside)
  dsimp only [payloadOf]
  rw [decide_eq_false (not_not.mpr h.aligned), Run.stopIf_false, hb, hin, Run.stopIf_false, Run.get_bind]
  rw [Run.lift, hread]

/-- A message goes into the free reply slot that it finds (R301). -/
theorem sendMessage_sent {s : State} {k : Nat} (p : Packet) (hs : Settled s) (hk : s.m.freeReply s.cid = some k) :
    sendMessage p s = .ok ((), noted (sent s k p)) := by
  rw [sendMessage, releases_bind hs, Run.get_bind, hk]
  rfl

end Sys2Proof.Machine

namespace Sys2Proof.Claims
open Sys2Proof.Machine

theorem send_completes {f : SendF} {s s1 t : State} {l : List Word} {bs : List Byte} {k : Nat}
    (hr : Reads s [⟨f.b, f.kb, .addr⟩, ⟨f.c, f.kc, .addr⟩] none l s1) (hok : s1.m.handleOk (siteOf s1.cid) (arg l 0) = true)
    (hp : Payload s1 (arg l 1) f.len.toNat bs t) (hs : Settled t) (hk : t.m.freeReply t.cid = some k) :
    exec (.send f) s = .next (s.retire (noted (sent t k { headerOf t (arg l 0) bs with ord := f.ord }))) :=
  run_retires hr.1 _ ((Run.bind_ok hr.2).trans ((payloadOf_bind hp (checkHandle_bind hok) _).trans ((Run.get_bind _ t).trans
    (sendMessage_sent _ hs hk))))

theorem sendx_completes {f : SendxF} {s s1 t u : State} {l : List Word} {bs : List Byte} {k : Nat}
    (hr : Reads s [⟨f.b, f.kb, .addr⟩, ⟨f.c, f.kc, .addr⟩] none l s1) (hx : sendxOk f.xf.toNat f.par.toNat f.len.toNat = true)
    (hok : s1.m.handleOk (siteOf s1.cid) (arg l 0) = true) (hp : Payload s1 (arg l 1) f.len.toNat bs t)
    (hu : u = (if xfRsh f.xf.toNat f.par.toNat t.sw then withSw t swTick else t)) (hs : Settled u) (hk : u.m.freeReply u.cid = some k) :
    exec (.sendx f) s = .next (s.retire (noted (sent u k
      { headerOf t (arg l 0) bs with ord := f.ord, opc := 1, xf := f.xf.toNat, par := f.par.toNat }))) := by
  subst hu
  refine run_retires hr.1 _ ?_
  rw [hx, Bool.not_true, Run.stopIf_false]
  exact (Run.bind_ok hr.2).trans ((payloadOf_bind hp (checkHandle_bind hok) _).trans ((Run.get_bind _ t).trans
    ((takeCounter_bind_of _ t _).trans (sendMessage_sent _ hs hk))))

theorem mcast_completes {f : SendF} {s s1 t : State} {l : List Word} {bs : List Byte}
    (hr : Reads s [⟨f.b, f.kb, .addr⟩, ⟨f.c, f.kc, .addr⟩] none l s1) (hset : mcastOk (arg l 0) = true)
    (hne : s1.m.mcastSet s1.cid (arg l 0) ≠ []) (hp : Payload s1 (arg l 1) f.len.toNat bs t) (hs : Settled t)
    (hroom : t.core.ni.mrecs.length < 4) :
    exec (.mcast f) s = .next (s.retire (noted (multicast t f.ord (s1.m.mcastSet s1.cid (arg l 0)) bs))) := by
  have hempty : (s1.m.mcastSet s1.cid (arg l 0)).isEmpty = false := Bool.eq_false_iff.mpr fun h => hne (List.isEmpty_iff.mp h)
  refine run_retires hr.1 _ ((Run.bind_ok (peek_addr (by simp) hr.2 (i := 0) rfl)).trans ?_)
  rw [Option.any_some, hset, Bool.not_true, Run.stopIf_false]
  refine (Run.bind_ok hr.2).trans ?_
  dsimp only
  rw [hset, Bool.not_true, Run.stopIf_false]
  refine (Run.get_bind _ s1).trans ((Run.get_bind _ s1).trans ((payloadOf_bind hp (fun g => ?_) _).trans ?_))
  · rw [hempty, Run.stopIf_false]
  · rw [releases_bind hs, Run.get_bind, decide_eq_false (by omega), Run.stallIf_false]
    rfl

/-- The checks of SEND before its payload is read: the address first, then the handle (R24, R303). -/
theorem send_refuses {f : SendF} {s s1 : State} {l : List Word} (hr : Reads s [⟨f.b, f.kb, .addr⟩, ⟨f.c, f.kc, .addr⟩] none l s1) :
    ((arg l 1).toNat % 8 ≠ 0 → exec (.send f) s = .next (s.faulted { cause := .misalign, addr := arg l 1 })) ∧
    ((arg l 1).toNat % 8 = 0 → s1.m.handleOk (siteOf s1.cid) (arg l 0) = false →
      exec (.send f) s = .next (s.faulted { cause := .badhandle, addr := arg l 0 })) := by
  refine ⟨fun hal => ?_, fun hal hok => ?_⟩ <;> refine run_faults hr.1 _ ((Run.bind_ok hr.2).trans (Run.bind_error ?_)) <;>
    dsimp only [payloadOf]
  · rw [decide_eq_true hal, Run.stopIf_true, BitVec.ofNat_toNat, BitVec.setWidth_eq]
  · rw [decide_eq_false (not_not.mpr hal), Run.stopIf_false]
    refine Run.bind_error ?_
    rw [checkHandle, Run.get_bind, hok, Bool.not_false, Run.stopIf, if_pos rfl, Run.raise_run, BitVec.ofNat_toNat, BitVec.setWidth_eq]

/-- Settles O41: the checks pass in the order of R81, then the packet goes to the NI. -/
theorem messagesSent : Obligations.MessagesSent :=
  ⟨fun _ _ _ _ _ _ _ hr hok hp hs hk => send_completes hr hok hp hs hk,
    fun _ _ _ _ _ _ _ _ hr hx hok hp hu hs hk => sendx_completes hr hx hok hp hu hs hk,
    fun _ _ _ _ _ _ hr hset hne hp hs hroom => mcast_completes hr hset hne hp hs hroom, fun _ _ _ _ hr => send_refuses hr⟩

end Sys2Proof.Claims
end

section
/-!
PROOFS. The push of an engine command (R87, R148, R236, R241, R268), and what of the tiles and of group memory the device's own
writes to LM leave: all of it.
-/
namespace Sys2Proof.Machine
open Sys2Proof.Claims

/-! ## Tiles and group memory -/

/-- The latches, accumulators, flags and queues of the tiles, and group memory. -/
def Module.units (m : Module) : Tab Tile × Tab Group := (m.tiles, m.groups)

theorem unitsKept_iff {s t : State} : UnitsKept s t ↔ t.m.units = s.m.units := Prod.mk_inj.symm
theorem Module.tile_of_units {m m' : Module} (h : m'.units = m.units) (t : Nat) : m'.tile t = m.tile t := by
  rw [Module.tile, (Prod.mk_inj.mp h).1]
  rfl

@[simp] theorem Module.onCore_units (m : Module) (cid : Nat) (f : Core → Core) : (m.onCore cid f).units = m.units := rfl
@[simp] theorem Module.onAct_units (m : Module) (cid key : Nat) (f : Act → Act) : (m.onAct cid key f).units = m.units := rfl
@[simp] theorem Module.onSite_units (m : Module) (i : Nat) (f : Site → Site) : (m.onSite i f).units = m.units := rfl
@[simp] theorem Module.setPhy_units (m : Module) (i : Nat) (p : Phys) : (m.setPhy i p).units = m.units := rfl
@[simp] theorem State.setWin_units (s : State) (w : Win) : (s.setWin w).m.units = s.m.units := rfl

@[simp] theorem Module.touched_units (m : Module) (cid off n : Nat) : (m.touched cid off n).units = m.units := by
  unfold Module.touched
  split
  · split <;> rfl
  · rfl

theorem Module.setCtl_units (m : Module) (cid key : Nat) (c : Ctl) : (m.setCtl cid key c).units = m.units := by
  cases h : (m.act cid key).win with
  | some w =>
    rw [Module.setCtl_bound h]
    rfl
  | none =>
    rw [Module.setCtl_unbound h]
    generalize c.encode = bs
    split
    · exact Module.touched_units m cid _ 64
    · rfl

theorem Module.wake_units (m : Module) (cid key : Nat) (r : Option Word) : (m.wake cid key r).units = m.units := Module.setCtl_units ..

theorem Module.fire_units (m : Module) (cid key : Nat) : (m.fire cid key).units = m.units := by
  unfold Module.fire
  split
  · exact Module.wake_units ..
  · rfl
  · rfl

theorem Module.noteLines_units (m : Module) (loc n : Nat) : (m.noteLines loc n).units = m.units :=
  foldl_keeps Module.units (fun m (p : Nat × Nat) => m.fire p.1 p.2) (fun m p => m.fire_units p.1 p.2) _ _

theorem Module.noteBars_units (m : Module) (loc n : Nat) : (m.noteBars loc n).units = m.units :=
  foldl_keeps Module.units (fun m (w : BWait) => m.wake w.cid w.key (some 1)) (fun m w => m.wake_units w.cid w.key _) _ _

theorem Module.putBytes_units (m : Module) (loc : Nat) (bs : List Byte) : (m.putBytes loc bs).units = m.units :=
  (Module.noteBars_units ..).trans (Module.noteLines_units ..)

theorem Module.putWord_units (m : Module) (cid off : Nat) (bs : List Byte) : (m.putWord cid off bs).units = m.units := by
  unfold Module.putWord
  split
  · exact (Module.putBytes_units ..).trans (Module.touched_units ..)
  · rfl

theorem cprPush_units {m m' : Module} {cid k job n : Nat} {h : BitVec 16} {pc : Word} {ctl : Ctl}
    (hp : m.cprPush cid k h job pc ctl = some (n, m')) : m'.units = m.units := by
  unfold Module.cprPush at hp
  dsimp only at hp
  split at hp
  · cases hp
  · obtain ⟨rfl, rfl⟩ := Prod.mk.inj (Option.some.inj hp)
    exact Module.putWord_units ..

theorem Module.wordLost_units (m : Module) (loc : Nat) : (m.wordLost loc).units = m.units := by
  unfold Module.wordLost
  dsimp only
  split
  · split <;> rfl
  · rfl

/-- A read that finds errors leaves the units as they were. -/
theorem Module.inspect_units (m : Module) (loc n : Nat) : (m.inspect loc n).units = m.units := by
  refine foldl_keeps Module.units (fun (m : Module) (u : Nat × Bool) =>
    if u.2 then m.wordLost u.1 else m.onSite (siteOfWord u.1) fun x => { x with errC := x.errC + 1 }) (fun m u => ?_) _ _
  split
  · exact m.wordLost_units u.1
  · rfl

/-! ## A descriptor read from LM -/

theorem MM.of_bind_ok {x : MM α} {f : α → MM β} {m m' : Module} {b : β} (h : (x >>= f) m = .ok (b, m')) :
    ∃ a n, x m = .ok (a, n) ∧ f a n = .ok (b, m') := by
  cases hx : x m with
  | ok r => exact ⟨r.1, r.2, rfl, (MM.bind_ok hx).symm.trans h⟩
  | error e => rw [MM.bind_error hx] at h; cases h

theorem MM.of_stopIf_bind_ok {b : Bool} {c : Cause} {a : Nat} {f : Unit → MM β} {m : Module} {r : β × Module}
    (h : (MM.stopIf b c a >>= f) m = .ok r) : f () m = .ok r := by
  cases b
  · exact (MM.stopIf_false ..).symm.trans h
  · rw [MM.stopIf_true] at h
    cases h

theorem readWords_units {m m' : Module} {loc n va : Nat} (h : readWords loc n va m = .ok ((), m')) : m'.units = m.units := by
  rw [readWords, MM.get_bind] at h
  split at h
  · cases h
  · cases h
    exact Module.inspect_units ..

theorem lmCheck_units {m m' : Module} {by_ t off n va : Nat} {k : LmAcc} {super : Bool}
    (h : lmCheck by_ t off n k super va m = .ok ((), m')) : m'.units = m.units := by
  rw [lmCheck, MM.get_bind] at h
  replace h := MM.of_stopIf_bind_ok h
  cases hb : m.touchLm t off n <;> rw [hb] at h
  case ok p =>
    dsimp only at h
    rw [MM.upd_bind] at h
    split at h
    · exact (readWords_units h).trans rfl
    · cases h
      rfl
  all_goals cases h

/-- A read of LM leaves the units as they were. -/
theorem lmLoad_units {m m' : Module} {by_ t off n va : Nat} {super : Bool} {bs : List Byte}
    (h : lmLoad by_ t off n super va m = .ok (bs, m')) : m'.units = m.units := by
  obtain ⟨_, m1, hc, hr⟩ := MM.of_bind_ok h
  rw [MM.get_bind] at hr
  cases hr
  exact lmCheck_units hc

/-! ## The issuer -/

theorem issue_units' (m : Module) (cid k : Nat) : (m.issue cid k).units = m.units :=
  Prod.mk_inj.mpr (issue_units m cid k)

/-- Operands in address roles leave the units as they were at the dispatch. -/
theorem reads_addr_units {s t : State} {l : List Src} {dst : Option (Put × Opnd)} {vs : List Word} (h : Reads s l dst vs t)
    (ha : ∀ o ∈ l, o.use = .addr) : t.m.units = s.m.units := by
  obtain ⟨w, rfl, -⟩ := operands_addr_state ha h.2
  exact issue_units' s.m s.cid s.ctx

/-- A destination of the register role that passed its check is a register or `z`. -/
theorem plainCode_of_operands {l : List Src} {s t : State} {a : Opnd} {vs : List Word}
    (h : operands l (some (.reg, a)) s = .ok (vs, t)) : PlainCode a := by
  rw [operands_eq] at h
  split at h
  · cases h
  next hn =>
    by_contra hp
    have h32 : ¬ a.toNat < 32 := fun h => hp (.inl h)
    have h41 : a.toNat ≠ 41 := fun h => hp (.inr (BitVec.eq_of_toNat_eq h))
    exact hn (by simp [State.dstBad, h32, h41])

theorem writeDst_units {a : Opnd} {v : Word} {s t : State} (hp : PlainCode a) (h : writeDst a v s = .ok ((), t)) :
    t.m.units = s.m.units := by
  rcases hp with hn | rfl
  · rw [writeDst_reg hn] at h
    cases h
    rfl
  · rw [writeDst_z] at h
    cases h
    rfl

variable {i : Instr} {cp : Bool} {sig : EngSig} {a : Opnd} {rm : Option Nat} {s t u : State} {b : Issuer}

/-- The rounding mode of a command with rounding field rm. -/
def pushMode (rm : Option Nat) (sw : Word) : Nat := rm.elim 0 fun r => effMode r sw
theorem pushMode_of_ne {r : Nat} {sw : Word} (h : r = 7 → False) : pushMode (some r) sw = r := if_neg h

/-- The issuer after its counter: advanced where the command rounds under RSH. -/
def pushTicked (rm : Option Nat) (t : State) : State := if rm.isSome = true ∧ pushMode rm t.sw = 4 then withSw t swTick else t
/-- The next job of the core at an engine. -/
def pushJob (cp : Bool) (t : State) : Nat := (if cp then t.core.jobCp.last else t.core.jobMx.last) % 65535 + 1
theorem next_eq_pushJob (cp : Bool) (t : State) : (if cp then t.core.jobCp.next else t.core.jobMx.next) = pushJob cp t := by
  cases cp <;> rfl
/-- The next job of the core at an engine, QUEUED. -/
def Core.jobPushed (cp : Bool) (c : Core) : Core := if cp then { c with jobCp := c.jobCp.push } else { c with jobMx := c.jobMx.push }

theorem withSw_core (t : State) (g : Word → Word) : (withSw t g).core =
    t.core.onAct t.key fun a => { a with win := some { t.win with ctl := { t.win.ctl with sw := g t.win.ctl.sw } } } :=
  Module.core_onCore ..

/-- What `PushesFrom` says, in the model's own terms. -/
theorem pushesFrom_parts (h : PushesFrom i cp sig a rm s t b u) : Settled t ∧
    ∃ seq m, (pushTicked rm t).m.cprPush t.cid t.ctx (((encode i).map (·.head)).getD 0) (pushJob cp t) s.win.ctl.pc t.win.ctl
        = some (seq, m) ∧
      writeDst a (BitVec.ofNat 64 (pushJob cp t)) { pushTicked rm t with m := m.onCore t.cid (Core.jobPushed cp) } = .ok ((), u) ∧
      b = { cid := t.cid, key := t.key, aid := t.aid, ctx := t.ctx, seq := seq, job := pushJob cp t, pc := s.win.ctl.pc, super := t.super
            pk := t.core.spec.pk, seed := t.core.spec.seed, sw := t.sw, rshc := swRshc t.sw, rm := pushMode rm t.sw, sig := sig } := by
  unfold PushesFrom at h
  dsimp only at h
  split at h
  next => exact h
  next r h7 =>
    rw [pushTicked, pushMode_of_ne h7]
    exact h
  next => exact h

/-- The push of a command leaves the units as they were. -/
theorem pushesFrom_units (h : PushesFrom i cp sig a rm s t b u) (hp : PlainCode a) : u.m.units = t.m.units := by
  obtain ⟨-, seq, m, hpush, hw, -⟩ := pushesFrom_parts h
  refine (writeDst_units hp hw).trans ((cprPush_units hpush).trans ?_)
  unfold pushTicked
  split <;> rfl

/-- A push that finds its ring entry free takes what `PushesFrom` says. -/
theorem pushIssuer_run (h : PushesFrom i cp sig a rm s t b u) : pushIssuer i cp sig a rm s.win.ctl.pc t = .ok (b, u) := by
  obtain ⟨hset, seq, m, hpush, hw, rfl⟩ := pushesFrom_parts h
  have htick : (if rm.isSome && decide (pushMode rm t.sw = 4) then withSw t swTick else t) = pushTicked rm t :=
    if_congr (by rw [Bool.and_eq_true, decide_eq_true_iff]) rfl rfl
  have hjob : pushJob cp (pushTicked rm t) = pushJob cp t := by
    unfold pushTicked
    split
    · rw [pushJob, withSw_core]
      rfl
    · rfl
  rw [pushIssuer, releases_bind hset, Run.get_bind]
  refine (takeCounter_bind_of _ t _).trans ?_
  rw [show (if rm.isSome && decide ((rm.elim 0 fun r => effMode r t.sw) = 4) then withSw t swTick else t) = pushTicked rm t from htick]
  refine (Run.get_bind _ _).trans ?_
  rw [next_eq_pushJob, hjob, hpush]
  dsimp only
  rw [Run.onM_bind]
  exact Run.bind_ok hw

end Sys2Proof.Machine
end

section
/-!
PROOFS. The matrix commands at commit (R241–R245, R449–R453): the descriptor checks decide the rules, and a command that keeps them
joins its queue.
-/
namespace Sys2Proof.Machine
open Sys2Proof.Claims

/-! ## Descriptors (R242–R245) -/

/-- The low bits of a field. -/
theorem bits_mod {n : Nat} (x : BitVec n) (lo k w : Nat) : bits x (lo + (k + w)) lo % 2 ^ (k + 1) = bits x (lo + k) lo := by
  unfold bits
  rw [Nat.mod_mod_of_dvd _ (pow_dvd_pow 2 (by omega))]
  congr 2
  omega

theorem mod8_of_bits {n : Nat} (x : BitVec n) (lo w : Nat) : bits x (lo + (2 + w)) lo % 8 = bits x (lo + 2) lo := bits_mod x lo 2 w

theorem mxSrcOk_iff (p : Word) : mxSrcOk p = true ↔ SourceOk p := by
  have hoff : (mxSrc p).off % 8 = bits p 2 0 := mod8_of_bits p 0 20
  have hpitch : (mxSrc p).pitch % 8 = bits p 26 24 := mod8_of_bits p 24 10
  simp only [mxSrcOk, hoff, hpitch, Bool.and_eq_true, beq_iff_eq, Bool.or_eq_true, decide_eq_true_eq, and_assoc]
  exact Iff.rfl

theorem mxRegOk_iff (q : Word) : mxRegOk q = true ↔ RegionOk q := by
  simp only [mxRegOk, Bool.and_eq_true, decide_eq_true_eq, and_assoc]
  exact Iff.rfl

theorem mxType_iff (t : Nat) (sc : Bool) : (mxType t = true ∧ mxScaleOk t sc = true) ↔ TypeOk t sc := by
  refine and_congr (by simp [mxType, or_assoc]) ?_
  unfold mxScaleOk
  split
  next h => simp [h]
  next h =>
    split
    next h' => rcases (by simpa using h' : t = 12 ∨ t = 13) with rfl | rfl <;> simp
    next h' => simp_all

theorem mxShapeOk_iff (q : Word) : mxShapeOk q = true ↔ LatchOk q := by
  have ht := mxType_iff (mxShape q).ty (mxShape q).sc
  simp only [mxShapeOk, Bool.and_eq_true, decide_eq_true_eq, beq_iff_eq, ht, and_assoc]
  exact Iff.rfl

theorem mxCtlOk_iff (q : Word) : mxCtlOk q = true ↔ ControlOk q := by
  have ht := mxType_iff (mxCtl q).ty (mxCtl q).sc
  simp only [mxCtlOk, Bool.and_eq_true, beq_iff_eq, mxRegOk_iff]
  rw [and_assoc (a := RegionOk q), ht, and_assoc]
  exact Iff.rfl

theorem mxDrnOk_iff (p q : Word) : mxDrnOk p q = true ↔ DrainOk p q := by
  have hoff : (mxDst p q).off % 8 = bits p 2 0 := mod8_of_bits p 0 16
  have hpitch : (mxDst p q).pitch % 8 = bits p 21 19 := mod8_of_bits p 19 10
  have hwent : (mxDst p q).went % 2 = bits p 32 32 := bits_mod p 32 0 18
  have hty : (if (mxDst p q).int then decide ((mxDst p q).oty ≤ 2) && (mxDst p q).rnd == 0
      else decide (9 ≤ (mxDst p q).oty) && decide ((mxDst p q).oty ≤ 13) && (decide ((mxDst p q).rnd ≤ 4) || (mxDst p q).rnd == 7)) = true ↔
      if bit q 22 then bits q 17 14 ≤ 2 ∧ bits q 20 18 = 0
      else 9 ≤ bits q 17 14 ∧ bits q 17 14 ≤ 13 ∧ (bits q 20 18 ≤ 4 ∨ bits q 20 18 = 7) := by
    have hint : (mxDst p q).int = bit q 22 := rfl
    rw [hint]
    split <;> simp only [Bool.and_eq_true, Bool.or_eq_true, decide_eq_true_eq, beq_iff_eq, and_assoc] <;> exact Iff.rfl
  simp only [mxDrnOk, hoff, hpitch, hwent, hty, Bool.and_eq_true, decide_eq_true_eq, beq_iff_eq, mxRegOk_iff, and_assoc]
  exact Iff.rfl

/-! ## The push -/

/-- An instruction that ends in a push commits with its sequence number and job for a STEP (R360). -/
theorem runInstr_issues {s t : State} {b : Issuer} (h : s.Running) (vec : Bool) (body : Word → Run After)
    (hb : body s.win.ctl.pc s.begun = .ok (.step b.seq b.job, t)) : runInstr vec body s = .next (issued s t b) := by
  rw [runInstr_running h, hb]
  rfl

/-- The state after a command has joined the queue of its issuer's slot. -/
def matrixQueued (t u : State) (c : MxCmd) : State :=
  { u with m := u.m.onTile (tileOf t.cid) fun x =>
      { x with mxq := Tab.put x.mxq (slotOf t.cid) (Tab.get [] x.mxq (slotOf t.cid) ++
          [{ c with ready := u.m.time + 4, cancel := x.mxcancel.contains (slotOf t.cid) }]) } }

theorem mxPush_run {i : Instr} {op : MxOp} {sig : EngSig} {a : Opnd} {rm : Option Nat} {p q h : Word} {s t u : State} {b : Issuer}
    (hroom : (Tab.get [] (t.m.tile (tileOf t.cid)).mxq (slotOf t.cid)).length < 16) (hp : PushesFrom i false sig a rm s t b u) :
    mxPush i op sig a rm p q h s.win.ctl.pc t =
      .ok (.step b.seq b.job, matrixQueued t u { op := op, p := p, q := q, h := h, by_ := b }) := by
  rw [mxPush, Run.get_bind, decide_eq_false (by omega), Run.stallIf_false]
  refine (Run.bind_ok (pushIssuer_run hp)).trans ?_
  rfl

end Sys2Proof.Machine

namespace Sys2Proof.Claims
open Sys2Proof.Machine

/-- A matrix command with a descriptor that breaks a rule (R449). -/
theorem matrix_refused {i : Instr} {r : MatrixRow} {s t : State} {l : List Word} (h : matrixRow i = some r)
    (hr : Reads s r.srcs (some (.reg, r.dst)) l t) (hbad : ¬ r.ok l) : exec i s = .next (s.faulted { cause := .illop }) := by
  unfold matrixRow at h
  split at h <;> cases h
  case h_1 f =>
    have hc : (mxSrcOk (arg l 0) && mxShapeOk (arg l 1)) = false :=
      Bool.eq_false_iff.mpr fun h => hbad (by rwa [Bool.and_eq_true, mxSrcOk_iff, mxShapeOk_iff] at h)
    refine runInstr_faults hr.1 _ _ _ ((Run.bind_ok hr.2).trans ?_)
    rw [hc]
    exact Run.stopIf_true ..
  case h_2 f =>
    have hc : (mxSrcOk (arg l 0) && mxCtlOk (arg l 1)) = false :=
      Bool.eq_false_iff.mpr fun h => hbad (by rwa [Bool.and_eq_true, mxSrcOk_iff, mxCtlOk_iff] at h)
    refine runInstr_faults hr.1 _ _ _ ((Run.bind_ok hr.2).trans ?_)
    rw [hc]
    exact Run.stopIf_true ..
  case h_3 f =>
    have hc : mxDrnOk (arg l 0) (arg l 1) = false := Bool.eq_false_iff.mpr fun h => hbad ((mxDrnOk_iff ..).mp h)
    refine runInstr_faults hr.1 _ _ _ ((Run.bind_ok hr.2).trans ?_)
    rw [hc]
    exact Run.stopIf_true ..
  case h_4 f => exact absurd trivial hbad
  case h_5 f =>
    have hc : (!mxRegOk (arg l 0) || decide (bits (arg l 0) 63 14 ≠ 0)) = true := by
      by_contra h
      simp only [Bool.or_eq_true, Bool.not_eq_true', decide_eq_true_eq, not_or, Bool.not_eq_false, not_not, mxRegOk_iff] at h
      exact hbad h
    refine runInstr_faults hr.1 _ _ _ ((Run.bind_ok hr.2).trans ?_)
    rw [hc]
    exact Run.stopIf_true ..
  case h_6 f => exact absurd trivial hbad

/-- A matrix command that passes its checks: it pushes. -/
theorem matrix_queues {i : Instr} {r : MatrixRow} {s t : State} {l : List Word} {b : Issuer} {u : State} (h : matrixRow i = some r)
    (hr : Reads s r.srcs (some (.reg, r.dst)) l t) (hok : r.ok l)
    (hdrn : r.op = .drn → t.m.handleOk (siteOf t.cid) (arg l 2) = true ∧ bits (arg l 2) 31 16 = t.m.modnum.toNat)
    (hroom : (Tab.get [] (t.m.tile (tileOf t.cid)).mxq (slotOf t.cid)).length < 16) (hp : PushesFrom i false r.sig r.dst (r.rm l) s t b u) :
    exec i s = .next (issued s (matrixQueued t u
      { op := r.op, p := (r.words l).1, q := (r.words l).2.1, h := (r.words l).2.2, by_ := b }) b) := by
  unfold matrixRow at h
  split at h <;> cases h
  case h_1 f =>
    have hc : (mxSrcOk (arg l 0) && mxShapeOk (arg l 1)) = true := by rwa [Bool.and_eq_true, mxSrcOk_iff, mxShapeOk_iff]
    refine runInstr_issues hr.1 _ _ ((Run.bind_ok hr.2).trans ?_)
    rw [hc]
    exact (Run.stopIf_false ..).trans (mxPush_run hroom hp)
  case h_2 f =>
    have hc : (mxSrcOk (arg l 0) && mxCtlOk (arg l 1)) = true := by rwa [Bool.and_eq_true, mxSrcOk_iff, mxCtlOk_iff]
    refine runInstr_issues hr.1 _ _ ((Run.bind_ok hr.2).trans ?_)
    rw [hc]
    exact (Run.stopIf_false ..).trans (mxPush_run hroom hp)
  case h_3 f =>
    obtain ⟨hh, hmod⟩ := hdrn rfl
    refine runInstr_issues hr.1 _ _ ((Run.bind_ok hr.2).trans ?_)
    rw [(mxDrnOk_iff ..).mpr hok]
    refine (Run.stopIf_false ..).trans ((checkHandle_bind hh _).trans ((Run.get_bind _ t).trans ?_))
    rw [decide_eq_false (not_not.mpr hmod)]
    exact (Run.stopIf_false ..).trans (mxPush_run hroom hp)
  case h_4 f => exact runInstr_issues hr.1 _ _ ((Run.bind_ok hr.2).trans (mxPush_run hroom hp))
  case h_5 f =>
    obtain ⟨hreg, hzero⟩ := hok
    refine runInstr_issues hr.1 _ _ ((Run.bind_ok hr.2).trans ?_)
    dsimp only
    rw [(mxRegOk_iff _).mpr hreg, decide_eq_false (not_not.mpr hzero)]
    exact (Run.stopIf_false ..).trans (mxPush_run hroom hp)
  case h_6 f => exact runInstr_issues hr.1 _ _ ((Run.bind_ok hr.2).trans (mxPush_run hroom hp))

theorem matrixRow_addr {i : Instr} {r : MatrixRow} (h : matrixRow i = some r) : ∀ o ∈ r.srcs, o.use = .addr := by
  unfold matrixRow at h
  split at h <;> cases h <;> simp

/-! ## MXSTAT (R262, R465) -/

theorem withZeroed_eq (x : Tile) (time : Nat) : x.statAt time = withZeroed x time := by
  unfold Tile.statAt withZeroed
  cases x.zeroAt with
  | none => rfl
  | some z =>
    by_cases h : z.1 = time
    · rw [Option.filter_some, if_pos (beq_iff_eq.mpr h)]
      exact (if_pos h).symm
    · rw [Option.filter_some, if_neg (by simpa using h)]
      exact (if_neg h).symm

theorem mxstat_eq (x : Tile) (k : Nat) : x.mxstat k = statusWord x k := by
  have hflags : x.gangFlags (gangAt x k).1 (gangAt x k).2 =
      ((upFrom 0 (gangAt x k).2).map fun j => Tab.get 0 x.aflags ((gangAt x k).1 + j) % 8 * 8 ^ j).sum := List.sum_eq_foldl.symm
  rw [statusWord, ← hflags, Nat.mul_comm (2 ^ 24), Nat.mul_comm (2 ^ 26)]
  rfl

theorem mxstat_completes {f : Dest} {s t u : State} (hr : Reads s [] (some (.reg, f.a)) [] t) :
     let n := t.m.dueSteps (tileOf t.cid) (t.m.tile (tileOf t.cid)).steps.length
     let x := withZeroed (n.tile (tileOf t.cid)) n.time
     let m := n.onTile (tileOf t.cid) fun x => flagsCleared x (slotOf t.cid)
     (writeDst f.a (statusWord x (slotOf t.cid)) { t with m := n } = .ok ((), u) → exec (.mxstat f) s = .next (s.retire u)) ∧
     (writeDst f.a (statusWord x (slotOf t.cid)) { t with m := m } = .ok ((), u) → exec (.mxstatClr f) s = .next (s.retire u)) := by
  intro n x m
  constructor <;> intro h <;> refine run_retires hr.1 _ ((Run.bind_ok hr.2).trans ((Run.get_bind _ t).trans
      ((Run.onM_bind ..).trans ((Run.get_bind _ _).trans ?_)))) <;>
    dsimp only <;> rw [withZeroed_eq, mxstat_eq]
  · exact h
  · exact h

/-- Settles O44: a command passes its checks, then pushes; the push leaves every unit as it was. -/
theorem matrixCommandsQueue : Obligations.MatrixCommandsQueue := by
  refine ⟨fun i r s t l h hr => ⟨fun hbad => matrix_refused h hr hbad, fun b u hok hdrn hroom hp => ⟨?_, matrix_queues h hr hok hdrn hroom hp⟩⟩,
    fun f s t u hr => mxstat_completes hr⟩
  exact unitsKept_iff.mpr ((pushesFrom_units hp (plainCode_of_operands hr.2)).trans (reads_addr_units hr (matrixRow_addr h)))

end Sys2Proof.Claims
end

section
/-!
PROOFS. The copy commands at commit (R266–R270, R286, R407, R418): a command whose descriptor keeps its rules joins its queue.
-/
namespace Sys2Proof.Machine
open Sys2Proof.Claims

theorem Run.stopIf_passes {β : Type} {b : Bool} (h : b = false) {c : Cause} {a : Nat} (f : Unit → Run β) (s : State) :
    (Run.stopIf b c a >>= f) s = f () s := by
  rw [h, Run.stopIf_false]

/-- Operands in address roles leave the mode as it was. -/
theorem operands_addr_super {l : List Src} {dst : Option (Put × Opnd)} {s t : State} {vs : List Word} (ha : ∀ o ∈ l, o.use = .addr)
    (h : operands l dst s = .ok (vs, t)) : t.super = s.super := by
  obtain ⟨w, rfl, -, -, hctl⟩ := operands_addr_state ha h
  rw [State.super, State.sw, State.win_setWin, hctl]
  rfl

/-- The queue that an issuer may name passes the check of its mode (R266). -/
theorem queueOk_priv {s t : State} {sq : BitVec 2} (h : QueueOk t sq) (hs : t.super = s.super) :
    (decide (sq ≠ 0#2) && !s.super) = false := by
  rcases h.1 with rfl | hsup
  · rfl
  · rw [← hs, hsup, Bool.not_true, Bool.and_false]

theorem copyQueue_eq (s : State) (sq : BitVec 2) : (if sq.toNat = 0 then slotOf s.cid else 7 + sq.toNat) = copyQueue s sq :=
  if_congr (by rw [← BitVec.toNat_inj]; rfl) rfl rfl

theorem cpPush_run {i : Instr} {sig : EngSig} {a : Opnd} {sq : BitVec 2} {rm : Option Nat} {c : CpCmd} {s t t' u : State} {b : Issuer}
    (hq : QueueOk t sq) (hcid : t'.cid = t.cid) (hm : t'.m.units = t.m.units) (hp : PushesFrom i true sig a rm s t' b u) :
    cpPush i sig a sq.toNat rm c s.win.ctl.pc t' = .ok (.step b.seq b.job, copyQueued t u (copyQueue t sq) { c with by_ := b }) := by
  have hlen := hq.2
  dsimp only [cpPush]
  rw [Run.get_bind, hcid, copyQueue_eq, Module.tile_of_units hm, decide_eq_false (by omega), Run.stallIf_false]
  refine (Run.bind_ok (pushIssuer_run hp)).trans ?_
  rfl

/-- A descriptor at an LM offset. -/
theorem readDesc_bind {β : Type} {h : Word} {t : State} {bs : List Byte} {m : Module} (hal : h.toNat % 64 = 0) (hin : h.toNat < 2 ^ 19)
    (hl : lmLoad t.cid t.cid h.toNat 64 t.super h.toNat t.m = .ok (bs, m)) (f : Nat → Run β) :
    (readDesc h >>= f) t = f (leNat bs) { t with m := m } := by
  refine Run.bind_ok ?_
  rw [readDesc, decide_eq_false (not_not.mpr hal), Run.stopIf_false, decide_eq_false (by omega), Run.stopIf_false, Run.get_bind]
  exact Run.lift_ok hl

theorem exec_copy {i : Instr} {op : CpOp} {f : CpF} (h : copyRow i = some (op, f)) (s : State) :
    exec i s = runInstr false (copyBody i op f) s := by
  unfold copyRow at h
  split at h <;> cases h <;> rfl

end Sys2Proof.Machine

namespace Sys2Proof.Claims
open Sys2Proof.Machine

theorem cpy_queues {f : CpF} {s t u : State} {l : List Word} {b : Issuer}
    (hr : Reads s [⟨f.p, f.kp, .addr⟩, ⟨f.q, f.kq, .addr⟩, ⟨f.h, f.kh, .addr⟩] (some (.reg, f.a)) l t) (hdsc : f.dsc = false)
    (hq : QueueOk t f.sq) (hlen : bits (arg l 2) 63 32 = 0) (hp : PushesFrom (.cpy f) true f.sig f.a none s t b u)
    (hg : CpCmd.groupOk { op := .cpy, p := arg l 0, q := arg l 1, h := arg l 2, d := { len := bits (arg l 2) 31 0 } } = true) :
    exec (.cpy f) s = .next (issued s (copyQueued t u (copyQueue t f.sq)
      { op := .cpy, p := arg l 0, q := arg l 1, h := arg l 2, d := { len := bits (arg l 2) 31 0 }, by_ := b }) b) := by
  have hpriv := queueOk_priv hq (operands_addr_super (by simp) hr.2)
  have hok : (decide (bits (arg l 2) 63 32 ≠ 0) ||
      !CpCmd.groupOk { op := .cpy, p := arg l 0, q := arg l 1, h := arg l 2, d := { len := bits (arg l 2) 31 0 } }) = false := by
    rw [hg, decide_eq_false (not_not.mpr hlen)]
    rfl
  refine runInstr_issues hr.1 _ _ ((Run.get_bind _ _).trans ?_)
  rw [hpriv, Run.stopIf_false]
  exact (Run.bind_ok hr.2).trans ((Run.get_bind _ t).trans ((congrFun (if_pos (by rw [hdsc]; rfl)) t).trans
    ((Run.stopIf_passes hok _ t).trans (cpPush_run hq rfl rfl hp))))

theorem copy_queues {i : Instr} {op : CpOp} {f : CpF} {s t u : State} {l : List Word} {b : Issuer} {bs : List Byte} {m : Module}
    (h : copyRow i = some (op, f)) (hr : Reads s [⟨f.p, f.kp, .addr⟩, ⟨f.q, f.kq, .addr⟩, ⟨f.h, f.kh, .addr⟩] (some (.reg, f.a)) l t)
    (hdsc : op = .cpy → f.dsc = true) (hq : QueueOk t f.sq) (hal : (arg l 2).toNat % 64 = 0) (hin : (arg l 2).toNat < 2 ^ 19)
    (hl : lmLoad t.cid t.cid (arg l 2).toNat 64 t.super (arg l 2).toNat t.m = .ok (bs, m)) :
    let c : CpCmd := { op := op, p := arg l 0, q := arg l 1, h := arg l 2, d := CpDesc.decode (leNat bs) }
    t.m.descOk { c with by_ := { cid := t.cid, super := t.super } } (leNat bs) = true → (op = .cpyx → c.spans = false) →
    PushesFrom i true f.sig f.a (if op = .cpyx then xfRm c.d.xf c.d.par else none) s { t with m := m } b u →
    exec i s = .next (issued s (copyQueued t u (copyQueue t f.sq) { c with by_ := b }) b) := by
  intro c hdesc hspan hp
  rw [exec_copy h]
  have hpriv := queueOk_priv hq (operands_addr_super (by simp) hr.2)
  have hform : ¬ (decide (op = .cpy) && !f.dsc) = true := fun h => by
    obtain ⟨hop, hd⟩ := Bool.and_eq_true_iff.mp h
    rw [hdsc (of_decide_eq_true hop)] at hd
    cases hd
  have hspans : (decide (op = .cpyx) && c.spans) = false := by
    by_cases hop : op = .cpyx
    · rw [hspan hop, Bool.and_false]
    · rw [decide_eq_false hop, Bool.false_and]
  refine runInstr_issues hr.1 _ _ ((Run.get_bind _ _).trans ?_)
  rw [hpriv, Run.stopIf_false]
  exact (Run.bind_ok hr.2).trans ((Run.get_bind _ t).trans ((congrFun (if_neg hform) t).trans ((readDesc_bind hal hin hl _).trans
    ((Run.stopIf_passes (congrArg not hdesc) _ _).trans ((Run.stopIf_passes hspans _ _).trans
      (cpPush_run hq rfl (lmLoad_units hl) hp))))))

theorem dtld_queues {f : DtldF} {s t u : State} {l : List Word} {b : Issuer}
    (hr : Reads s [⟨f.q, f.kq, .addr⟩, ⟨f.h, f.kh, .addr⟩] (some (.reg, f.a)) l t) (hq : QueueOk t f.sq) (hal : (arg l 0).toNat % 8 = 0)
    (h1 : 1 ≤ bits (arg l 1) 12 4) (h256 : bits (arg l 1) 12 4 ≤ 256) (hzero : bits (arg l 1) 63 13 = 0)
    (hp : PushesFrom (.dtld f) true f.sig f.a none s t b u) :
    exec (.dtld f) s = .next (issued s (copyQueued t u (copyQueue t f.sq)
      { op := .dtld, q := arg l 0, h := arg l 1, d := { len := bits (arg l 1) 12 4 }, by_ := b }) b) := by
  have hpriv := queueOk_priv hq (operands_addr_super (by simp) hr.2)
  have hok : (decide ((arg l 0).toNat % 8 ≠ 0) || decide (bits (arg l 1) 12 4 = 0) || decide (256 < bits (arg l 1) 12 4)
      || decide (bits (arg l 1) 63 13 ≠ 0)) = false := by
    rw [decide_eq_false (not_not.mpr hal), decide_eq_false (by omega), decide_eq_false (by omega), decide_eq_false (not_not.mpr hzero)]
    rfl
  refine runInstr_issues hr.1 _ _ ((Run.get_bind _ _).trans ?_)
  rw [hpriv, Run.stopIf_false]
  refine (Run.bind_ok hr.2).trans ?_
  rw [hok, Run.stopIf_false]
  exact cpPush_run hq rfl rfl hp

/-- Settles O45: a command passes its checks, then pushes; the push leaves every unit as it was. -/
theorem copyCommandsQueue : Obligations.CopyCommandsQueue := by
  refine ⟨fun f s t u l b hr hdsc hq hlen hp hg => ⟨unitsKept_iff.mpr ?_, cpy_queues hr hdsc hq hlen hp hg⟩,
    fun i op f s t u l b bs m h hr hdsc hq hal hin hl hdesc hspan hp =>
      ⟨unitsKept_iff.mpr ?_, copy_queues h hr hdsc hq hal hin hl hdesc hspan hp⟩,
    fun f s t u l b hr hq hal h1 h256 hzero hp => ⟨unitsKept_iff.mpr ?_, dtld_queues hr hq hal h1 h256 hzero hp⟩⟩
  · exact (pushesFrom_units hp (plainCode_of_operands hr.2)).trans (reads_addr_units hr (by simp))
  · exact (pushesFrom_units hp (plainCode_of_operands hr.2)).trans ((lmLoad_units hl).trans (reads_addr_units hr (by simp)))
  · exact (pushesFrom_units hp (plainCode_of_operands hr.2)).trans (reads_addr_units hr (by simp))

end Sys2Proof.Claims
end
